-- ==== Sys2Proof/Word.lean ====
section
/-! DEFINITION. The word types of the H6 model. Registers are 32 bits (R12), scalar registers 64 bits and
vector registers 1,024 bits (R94); memory is byte addressed and little-endian (R11). -/

namespace Sys2Proof

/-- One byte of memory. -/
abbrev Byte := BitVec 8

/-- A register of the register space (R12), or one FP32 or INT32 element. -/
abbrev W32 := BitVec 32

/-- A scalar register of a compute core, or one Commons word an atomic acts on. -/
abbrev W64 := BitVec 64

/-- A vector register: 128 8-bit, 64 16-bit or 32 32-bit lanes (R94). Also one 128-byte Satchel line. -/
abbrev W1024 := BitVec 1024

/-- A predicate mask (R94). -/
abbrev W128 := BitVec 128

/-- One row of an accumulator plane: 128 elements of 32 bits (R137). -/
abbrev AccRow := BitVec 4096

/-- A sparse map from natural numbers: sorted keys, no entry holding the default value. -/
abbrev Sparse (V : Type) := List (Nat × V)

end Sys2Proof
end

