-- ==== Sys2Proof/Config.lean ====
section
/-! DEFINITION. The free values of the model: constants without a body, one for every value the spec leaves
open after a step that goes on. Nothing can be proved about what they are, so a statement holds whatever they are.
Each is named in the assumption log. -/

namespace Sys2Proof

/-- DESIGN CHOICE (log 9). A byte of memory whose contents the spec calls undefined (R33, R406, R414, R449):
`n` numbers the event that left the range undefined, `a` is the byte's address. -/
opaque Config.undefByte : Nat → Nat → Byte

/-- DESIGN CHOICE (log 11). The demosaic stage (R281: edge-directed, no arithmetic given): filter order, width,
the raw codes in row-major order, the pixel's index; answers its 48-bit RGB code. -/
opaque Config.demosaic : Nat → Nat → List Nat → Nat → BitVec 48

/-- DESIGN CHOICE (log 11). The two-dimensional noise reduction (R281: 5 x 5 edge-preserving, no arithmetic given). -/
opaque Config.denoise : Nat → Nat → Nat → List (BitVec 48) → Nat → BitVec 48

/-- DESIGN CHOICE (log 11). The scaler's area filter where a ratio is not whole (R281: no weights given): input width and height, output width
and height, the pixels, the output pixel's index. -/
opaque Config.areaScale : Nat → Nat → Nat → Nat → List (BitVec 48) → Nat → BitVec 48

/-- DESIGN CHOICE (log 78). Whether a walker transfer under way takes a Satchel bank in a core cycle (R106: the spec gives
no cycle to a walker's block): which use, which slot, which core cycle, which bank. -/
opaque Config.walkerBank : Nat → Nat → Nat → Nat → Bool

/-- DESIGN CHOICE (log 12). The next value of a channel's neighbour-refresh generator, and the seed Proctor gives it at boot
(R332: neither is stated): which use, which channel. -/
opaque Config.nextDraw : BitVec 32 → BitVec 32
opaque Config.drawSeed : Nat → Nat → BitVec 32

/-- DESIGN CHOICE (log 13). A byte a defective write left in the settings store or a fuse image the spec gives no
layout for (R455 measures the fuse image, whose layout is not stated). -/
opaque Config.fuseImageByte : Nat → Byte

/-- DESIGN CHOICE (log 15). round_ties_away(x * 255 / r) of R76 where r is zero, infinite or a NaN: no value stated. -/
opaque Config.openQuotient : W32 → W32 → Int

/-- DESIGN CHOICE (log 11). The corrected value of a pixel whose eight neighbours are not all in the frame, which R281 does
not state: width, threshold, codes, index. -/
opaque Config.defectEdge : Nat → Nat → List Nat → Nat → Nat

/-- DESIGN CHOICE (log 42). Points of the ISP's statistics the spec does not state (R282): the grid cell of a pixel
(width, height, index), its luma bin, whether it counts as clipped. -/
opaque Config.statCell : Nat → Nat → Nat → Nat
opaque Config.statLuma : BitVec 48 → Nat
opaque Config.statClipped : BitVec 48 → Bool

/-- DESIGN CHOICE (log 44). A byte of a record the spec states no content for: which use, which byte. -/
opaque Config.openByte : Nat → Nat → Byte

/-- DESIGN CHOICE (log 97). Pervethen's PCI-SIG vendor ID, whose number R423 does not state; and the width and rate the
PCI Express link trains to, whose partner the spec does not give: which use. -/
opaque Config.pciVendor : BitVec 16
opaque Config.pciWidth : Nat → Nat
opaque Config.pciRate : Nat → Nat

/-- DESIGN CHOICE (log 105). The correction of a power or energy estimate by the regulator's telemetry (R384, R390, R467: no
arithmetic given): READ_VOUT in mV, READ_IOUT in mA, the estimate. -/
opaque Config.railCorrect : Nat → Nat → Nat → Nat

end Sys2Proof
end

