-- ==== Sys2Proof/Syntax.lean ====
section
/-! DEFINITION. The commands of the block: one constructor of `Instr` per row of spec/opcode_table.json, with the
row's operands. A core operation carries the fields of its 64-bit slot word exactly as R91, R97, R98, R105, R107,
R110 and R113 lay them out (the mnemonic is the opcode, the record holds the other 56 bits), and the other non-zero
slot words of its bundle. An event carries what the outside supplies with it. -/

namespace Sys2Proof

/-- The eight slots of a bundle, in the order R90 and R122 give them: 0 S0, 1 S1, 2 V, 3 L0, 4 L1, 5 M, 6 X, 7 C. -/
abbrev SlotPos := Fin 8

/-- A slot word that issues in the same bundle (R90): its place and its 64 bits. -/
structure CoWord where
  pos : SlotPos
  word : BitVec 64
deriving DecidableEq, Repr

/-- Where a core operation issues: the physical core slot P0-P6, and the other non-zero slot words of its bundle. -/
structure Site where
  core : Fin 7
  co : List CoWord
deriving DecidableEq, Repr

/-- Scalar slot fields (R91, R97). -/
structure SFields where
  d : BitVec 6
  a : BitVec 6
  b : BitVec 6
  imm : BitVec 38
deriving DecidableEq, Repr

/-- Vector slot fields (R98). -/
structure VFields where
  vd : BitVec 6
  va : BitVec 6
  vb : BitVec 6
  mask : BitVec 4
  type : BitVec 3
  sb : Bool
  vc : BitVec 6
  imm : BitVec 24
deriving DecidableEq, Repr

/-- Load and store slot fields (R105); `r1` and `r2` are the reserved bits [43:38] and [31:24]. -/
structure LFields where
  vd : BitVec 6
  sa : BitVec 6
  r1 : BitVec 6
  mask : BitVec 4
  gran : BitVec 2
  r2 : BitVec 8
  off : BitVec 24
deriving DecidableEq, Repr

/-- Matrix slot fields (R107); `r` is the reserved bit [0]. -/
structure MFields where
  d : BitVec 6
  sa : BitVec 6
  sb : BitVec 6
  mode : BitVec 3
  axis : Bool
  fmt : BitVec 4
  clr : Bool
  f : Bool
  flag : BitVec 6
  mask : BitVec 4
  stride : BitVec 12
  chain : BitVec 4
  ch : Bool
  r : Bool
deriving DecidableEq, Repr

/-- Movement slot fields (R110); `r` is the reserved field [26:12]. -/
structure XFields where
  sd : BitVec 6
  sa : BitVec 6
  sb : BitVec 6
  flag : BitVec 6
  walker : BitVec 2
  cls : BitVec 2
  dsrc : Bool
  r : BitVec 15
  bundle : BitVec 12
deriving DecidableEq, Repr

/-- Control slot fields (R113); `r` is the reserved field [26:24]. -/
structure CFields where
  sd : BitVec 6
  sa : BitVec 6
  sb : BitVec 6
  flag : BitVec 6
  clr : Bool
  planes : BitVec 4
  r : BitVec 3
  opnd : BitVec 12
  target : BitVec 12
deriving DecidableEq, Repr

/-- What training finds of the five lanes (R352): which pass the test, and the errors each showed in it (a lane not listed
showed none), by which the better ones are told. -/
structure LaneTest where
  good : BitVec 5
  errors : List Nat
deriving DecidableEq, Repr

/-- The far initiator of a staff-core access: hart 0-8 (eight staff cores and the spare). -/
abbrev Hart := Fin 9

/-- RV64A operations of a staff core on a Commons word (R259). -/
inductive AmoOp where
  | swap | add | xor | and | or | min | max | minu | maxu
deriving DecidableEq, Repr

/-- A Kwaos packet as R356 lays it out: header fields and the bytes of its data flits. -/
structure Packet where
  addr : BitVec 56
  kind : BitVec 8
  src : BitVec 8
  unit : BitVec 8
  tag : BitVec 16
  len : BitVec 8
  stat : BitVec 8
  flags : BitVec 8
  aux : BitVec 8
  mask : BitVec 64
  lasta : BitVec 64
  data : List Byte
deriving DecidableEq, Repr

/-- A flit on the wire (R348, R349): 256 data bits, eight word parity bits, the sideband. -/
structure Flit where
  data : BitVec 256
  par : BitVec 8
  side : BitVec 8
deriving DecidableEq, Repr

/-- The profile a header names (R286): the table's, or another of some codec. -/
inductive CodecProfile where
  | h264ConstrainedBaseline | h264Main | h264High | h265Main | h265Main10 | av1Main | jpegBaseline | other
deriving DecidableEq, Repr

/-- A tool that R286 says is not decoded. -/
inductive CodecTool where
  | interlaced | fieldCoding | rangeExtension | screenContent | progressive | arithmetic | lossless | hierarchical | bits12
deriving DecidableEq, Repr

/-- What a sequence header or JPEG start-of-frame says (R286, R288), as the codec's own standard reads it: size, reference
pictures required, profile, bits per sample, chroma (0 4:2:0, 1 4:2:2, 2 4:4:4, 3 4:0:0), tools outside the table. -/
structure SeqHeader where
  width : Nat
  height : Nat
  refs : Nat
  profile : CodecProfile
  depth : Nat
  chroma : Nat
  tools : List CodecTool := []
deriving DecidableEq, Repr

/-- A run of an entry's data that the decoder reads (R284, R288): from a header, or the rest of what an earlier header
governs, up to the next header or the entry's end; `last` where it reaches the end. -/
structure DataRun where
  hdr : Option SeqHeader
  last : Bool
deriving DecidableEq, Repr

/-- Where a picture begins (R285, R287): in the entry behind the `used` ones; and the other streams whose next picture has
begun to arrive, as the codecs' standards read their data. -/
structure PicStart where
  used : Nat
  waiting : List Nat := []
deriving DecidableEq, Repr

/-- A condition of R289's table. -/
inductive DamageKind where
  | incomplete | syntaxError | restartMarker | missingReference | missingParameterSet | unitTooLong
deriving DecidableEq, Repr

/-- Concealed samples of a plane: first byte column and row, byte columns and rows. -/
structure PixRect where
  plane : Nat
  x : Nat
  y : Nat
  w : Nat
  h : Nat
deriving DecidableEq, Repr

/-- Damage met in a picture, and the blocks it takes with it. -/
structure Damage where
  kind : DamageKind
  blocks : List PixRect := []
deriving DecidableEq, Repr

/-- The straps of R464: chain head, TEST_MODE, PM_ADDR. -/
structure Straps where
  head : Bool := false
  testMode : Bool := false
  pmAddr : Fin 4 := 0
deriving DecidableEq, Repr

/-- What a reset release finds (R464, R467): the straps, and whether the core regulator answers PMBus transactions. -/
structure Release where
  straps : Straps := {}
  regulator : Bool := true
deriving DecidableEq, Repr

/-- How the core steps up after stack training (R392, R467): whether the regulator answers, and the worst slack measured at
each point, point 0's first, in permille of the cycle; one not listed is 100, which re-plans nothing. -/
structure StepUp where
  regulator : Bool := true
  slack : List Nat := []
deriving DecidableEq, Repr

/-- A block predicted from a reference picture: the pool buffer, the samples read there, the samples they give. -/
structure RefRead where
  buf : Nat
  src : PixRect
  dst : PixRect
deriving DecidableEq, Repr

/-- How a picture ended (R289, R291, R399): its damage, the bytes of it that the engine's line buffer still holds, the
reference blocks it was predicted from. -/
structure PicEnd where
  damage : List Damage := []
  held : Nat := 0
  reads : List RefRead := []
deriving DecidableEq, Repr

/-- Where an error is detected (the rows of R398's table). -/
inductive ErrorSite where
  | satchel (p : Fin 7) (addr : Nat) (spareRow : Bool)
  | imem (p : Fin 7) (addr : Nat) (spareRow : Bool)
  | coreReg (p : Fin 7)
  | residue (p : Fin 7)
  | slotLogic (p : Fin 7)
  | network (path : Nat)
  | kwaos (port : Fin 4) (lane : Fin 4)
  | stackIf (ch : Fin 16) (addr : Nat)
  | commons (addr : Nat)
  | taskTable (row : Nat)
  | staffCache (hart : Hart) (dirty : Bool)
  | captureBuffer (stream : Fin 16)
  | ispBuffer (pipe : Fin 2)
  | codecBuffer (stream : Nat) (block : PixRect)
  | encoderBuffer (enc : Fin 32)
  | pll (commons : Bool)
deriving DecidableEq, Repr

/-- How a slot's self-test ends (R410): pass, repaired by the given spare maps, or failed for good. -/
inductive TestResult where
  | pass
  | repaired (rowA colA rowB colB : W32)
  | failed
deriving DecidableEq, Repr

/-- What the droop detectors of a slot see (R373): the local core voltages at its 8 detectors, in mV. -/
structure Droop where
  slot : Fin 7
  mv : List Nat
deriving DecidableEq, Repr

/-- A charge of the energy tick (R390), in uJ: of the task a slot ran as its `nth` since the last tick (its core, arrays,
Satchel, walkers and the traffic they cause), or of everything else. -/
inductive Charge where
  | task (slot : Fin 7) (nth : Nat) (uj : Nat)
  | other (uj : Nat)
deriving DecidableEq, Repr

/-- What a requester presents to an arbiter (R261, R264): a transfer of so many beats, reading or writing; or it withdraws
what it presents. -/
inductive Present where
  | transfer (beats : Nat) (write : Bool)
  | withdraw
deriving DecidableEq, Repr

/-- The bytes a stack read asks for (R322), within one 64-byte block. -/
structure Bytes where
  addr : Nat
  len : Nat
deriving DecidableEq, Repr

/-- On-die corrections a channel's die reports of one row (R338, R340): channel, pseudo-channel, bank, row, how many. -/
structure RowFix where
  ch : Fin 16
  pc : Nat
  bank : Nat
  row : Nat
  n : Nat
deriving DecidableEq, Repr

/-- What a Recess window brings (R411, R412): the on-die corrections the channels report, the bytes of the window's shares
that work earlier in R412's order has used, and the Commons words that the scrub finds failing their check (address,
permanent). -/
structure Recess where
  corrections : List RowFix
  commonsUsed : Nat
  stackUsed : Nat
  errors : List (Nat × Bool)
deriving DecidableEq, Repr

/-- The commands: one constructor per row of the table of operations and events. -/
inductive Instr where
  -- register space and host windows
  | registerWrite (off : Nat) (val : W32)
  | sysLockSet
  | cyclesLatchRead (p : Fin 7)
  | timebaseLatchRead
  | heldWriteApply (p : Fin 7)
  | hostRead (bar : Nat) (off : Nat) (len : Nat)
  | hostWrite (bar : Nat) (off : Nat) (data : List Byte) (ep : Bool)
  -- scalar slots; `second` is true in S1
  | nop (at_ : Site) (pos : SlotPos)
  | add (at_ : Site) (second : Bool) (f : SFields)
  | sub (at_ : Site) (second : Bool) (f : SFields)
  | and_ (at_ : Site) (second : Bool) (f : SFields)
  | or_ (at_ : Site) (second : Bool) (f : SFields)
  | xor_ (at_ : Site) (second : Bool) (f : SFields)
  | sll (at_ : Site) (second : Bool) (f : SFields)
  | srl (at_ : Site) (second : Bool) (f : SFields)
  | sra (at_ : Site) (second : Bool) (f : SFields)
  | slt (at_ : Site) (second : Bool) (f : SFields)
  | sltu (at_ : Site) (second : Bool) (f : SFields)
  | mul (at_ : Site) (second : Bool) (f : SFields)
  | mulh (at_ : Site) (second : Bool) (f : SFields)
  | min_ (at_ : Site) (second : Bool) (f : SFields)
  | max_ (at_ : Site) (second : Bool) (f : SFields)
  | addi (at_ : Site) (second : Bool) (f : SFields)
  | andi (at_ : Site) (second : Bool) (f : SFields)
  | ori (at_ : Site) (second : Bool) (f : SFields)
  | xori (at_ : Site) (second : Bool) (f : SFields)
  | slli (at_ : Site) (second : Bool) (f : SFields)
  | srli (at_ : Site) (second : Bool) (f : SFields)
  | srai (at_ : Site) (second : Bool) (f : SFields)
  | slti (at_ : Site) (second : Bool) (f : SFields)
  | lui (at_ : Site) (second : Bool) (f : SFields)
  | div (at_ : Site) (second : Bool) (f : SFields)
  | divu (at_ : Site) (second : Bool) (f : SFields)
  | remu (at_ : Site) (second : Bool) (f : SFields)
  | divideComplete (p : Fin 7) (second : Bool)
  | gets (at_ : Site) (second : Bool) (f : SFields)
  | sets (at_ : Site) (second : Bool) (f : SFields)
  | movv (at_ : Site) (second : Bool) (f : SFields)
  -- vector slot
  | vadd (at_ : Site) (f : VFields)
  | vsub (at_ : Site) (f : VFields)
  | vmul (at_ : Site) (f : VFields)
  | vfma (at_ : Site) (f : VFields)
  | vmin (at_ : Site) (f : VFields)
  | vmax (at_ : Site) (f : VFields)
  | vand (at_ : Site) (f : VFields)
  | vor (at_ : Site) (f : VFields)
  | vxor (at_ : Site) (f : VFields)
  | vshl (at_ : Site) (f : VFields)
  | vshr (at_ : Site) (f : VFields)
  | vcmplt (at_ : Site) (f : VFields)
  | vcmpeq (at_ : Site) (f : VFields)
  | vsel (at_ : Site) (f : VFields)
  | vbcast (at_ : Site) (f : VFields)
  | vcvt (at_ : Site) (f : VFields)
  | vred (at_ : Site) (f : VFields)
  | vgather (at_ : Site) (f : VFields)
  | mgen (at_ : Site) (f : VFields)
  | mand (at_ : Site) (f : VFields)
  | mor (at_ : Site) (f : VFields)
  | mandn (at_ : Site) (f : VFields)
  | qrinit (at_ : Site) (f : VFields)
  | qracc (at_ : Site) (f : VFields)
  | qrange (at_ : Site) (f : VFields)
  | vquant (at_ : Site) (f : VFields)
  | vdeq (at_ : Site) (f : VFields)
  | vrdacc (at_ : Site) (f : VFields)
  | vrdtal (at_ : Site) (f : VFields)
  | finish (at_ : Site) (f : VFields)
  -- load and store slots; `second` is true in L1
  | ld (at_ : Site) (second : Bool) (f : LFields)
  | st (at_ : Site) (second : Bool) (f : LFields)
  | ldw (at_ : Site) (second : Bool) (f : LFields)
  -- matrix slot and its events; `arr` 0 is array A, 1 array B
  | mload (at_ : Site) (f : MFields)
  | mloadComplete (p : Fin 7) (arr : Fin 2)
  | mswap (at_ : Site) (f : MFields)
  | mrun (at_ : Site) (f : MFields)
  | mrunStreamStart (p : Fin 7) (arr : Fin 2)
  | mrunComplete (p : Fin 7) (arr : Fin 2)
  | mepi (at_ : Site) (f : MFields)
  | mepiStart (p : Fin 7) (arr : Fin 2)
  | mepiComplete (p : Fin 7) (arr : Fin 2)
  | mclr (at_ : Site) (f : MFields)
  | chainPlaneArrive (p : Fin 7)
  -- movement slot and its events; walker 0 and 1 read, 2 write
  | walk (at_ : Site) (f : XFields)
  | walkerTransferStart (p : Fin 7) (w : Fin 3)
  | walkerTransferComplete (p : Fin 7) (w : Fin 3)
  | remoteTimeout (p : Fin 7) (w : Fin 3)
  | fset (at_ : Site) (f : XFields)
  | fclr (at_ : Site) (f : XFields)
  | take (at_ : Site) (f : XFields)
  | aadd (at_ : Site) (f : XFields)
  | ald (at_ : Site) (f : XFields)
  | ast (at_ : Site) (f : XFields)
  | acas (at_ : Site) (f : XFields)
  | atomicPerform (p : Fin 7)
  | atomicComplete (p : Fin 7)
  | awatch (at_ : Site) (f : XFields)
  | awatchFire (p : Fin 7) (n : Nat)
  | fence (at_ : Site) (f : XFields)
  -- control slot and its events
  | jmp (at_ : Site) (f : CFields)
  | jal (at_ : Site) (f : CFields)
  | jr (at_ : Site) (f : CFields)
  | beq (at_ : Site) (f : CFields)
  | bne (at_ : Site) (f : CFields)
  | blt (at_ : Site) (f : CFields)
  | bge (at_ : Site) (f : CFields)
  | bltu (at_ : Site) (f : CFields)
  | bgeu (at_ : Site) (f : CFields)
  | waitf (at_ : Site) (f : CFields)
  | waita (at_ : Site) (f : CFields)
  | tile (at_ : Site) (f : CFields)
  | end_ (at_ : Site) (f : CFields)
  | trap (at_ : Site) (f : CFields)
  | barrier (at_ : Site) (f : CFields)
  | barrierRelease (level : Fin 3) (id : BitVec 10) (p : Fin 7)
  | dismissHoldExpire
  | tileWatchdog (p : Fin 7)
  | tileRerunResume (p : Fin 7)
  -- array power
  | arrayIdleRampDown (p : Fin 7) (arr : Fin 2)
  | arrayRampDownStep (p : Fin 7) (arr : Fin 2)
  | rampGrant
  | arrayRampUpStep (p : Fin 7) (arr : Fin 2)
  | haloCounterClear (p : Fin 7)
  -- Timetable; `host` is what the submitter has written to host memory since the last upstream read
  | ringPoll (host : List Host.Cell)
  | task (ring : Fin 16) (rec : List Byte)
  | load (ring : Fin 16) (rec : List Byte)
  | mark (ring : Fin 16) (rec : List Byte)
  | taskDispatch
  | loadStart
  | loadComplete (entry : Fin 1024)
  | markComplete
  | taskComplete (p : Fin 7)
  | completionRecordWrite (ring : Fin 16)
  | irqModerationTimeout (ring : Fin 16)
  | ttEnable (en : Bool)
  | ringEnable (ring : Fin 16) (val : W32)
  | ringDisable (ring : Fin 16)
  | counterWrite (c : Fin 128) (val : BitVec 24)
  | arbModeChange (group : Fin 3)
  | barrierMaskApply
  | staffCoreAmo (hart : Hart) (op : AmoOp) (wide : Bool) (addr : Nat) (val : W64)
  | staffCoreLr (hart : Hart) (wide : Bool) (addr : Nat)
  | staffCoreSc (hart : Hart) (wide : Bool) (addr : Nat) (val : W64)
  | arbiterRequest (arb : Fin 84) (req : Nat) (cls : Fin 4) (what : Present)
  | arbiterGrant (arb : Fin 84)
  -- capture; `hdr` 0 good header, 1 corrected, 2 uncorrectable; `full` the receive buffer is full
  | csiFrameStart (port : Fin 4) (vc : Fin 16) (frameNo : BitVec 16) (hdr : Fin 3) (full : Bool)
  | csiLinePacket (port : Fin 4) (vc : Fin 16) (dt : BitVec 6) (hdr : Fin 3) (crcBad full : Bool) (data : List Byte)
  | csiFrameEnd (port : Fin 4) (vc : Fin 16) (hdr : Fin 3) (full : Bool)
  | portEnable (port : Fin 4) (val : W32)
  | streamEnable (stream : Fin 16) (val : W32)
  | portErrClear (port : Fin 4)
  | vcStatClear (stream : Fin 16)
  | ppsEdge
  | ppsHoldover
  | timebaseLoad
  | fsyncEdge (n : Fin 4)
  | triggerWindowEnd (n : Fin 4)
  | ispLineGroup (pipe : Fin 2)
  | ispFrameComplete (pipe : Fin 2)
  -- codecs; `order` is a picture's place in output order,
  -- `shown` pictures are output now, `refs` are the pool buffers still needed as references
  | bitstreamPoll (host : List Host.Cell)
  | data (stream : Fin 144) (entry : List Byte) (run : DataRun)
  | eos (stream : Fin 144) (entry : List Byte)
  | pictureDecodeStart (stream : Fin 144) (first : PicStart)
  | pictureDecodeComplete (stream : Fin 144) (ns : Nat) (how : PicEnd) (pix : List Byte) (order shown : Nat) (refs : List Nat)
  | encodeInput (enc : Fin 32)
  | accessUnitComplete (enc : Fin 32) (bytes : List Byte)
  -- Easel and Primer
  | assemblerEnable (a : Fin 16)
  | assemblerDisable (a : Fin 16)
  | asmStatClear (a : Fin 16)
  | groupConfigWrite (g : Fin 16) (val : W32)
  | sampleConvert
  | sampleConvertComplete
  | batchBudgetExpire (a : Fin 16)
  | batchComplete (a : Fin 16)
  | lateDecode (stream : Fin 144)
  | groupSetClose (g : Fin 16)
  | primerEnable
  | primerPoll
  | tokenise (rec : List Byte)
  | tokeniseComplete
  -- stack controller; `cls` is the request's class, `req` its requester
  | stackReadAccept (ch : Fin 16) (req : Nat) (cls : Fin 4) (what : Bytes)
  | stackWriteAccept (ch : Fin 16) (req : Nat) (cls : Fin 4) (addr : Nat) (mask : BitVec 64) (data : List Byte)
  | dramCommandIssue (ch : Fin 16) (pc : Fin 2) (hot : Bool)
  | stackReadComplete (ch : Fin 16) (badReads : Nat)
  | writeParityError (ch : Fin 16) (badWrites : Nat)
  | refreshDue (ch : Fin 16) (pc : Fin 2) (bank : Fin 16)
  | trackerWindowReset
  | channelRetrain (ch : Fin 16)
  | channelRetrainComplete (ch : Fin 16)
  | softRepairRequest (ch : Fin 16) (val : W32)
  | softRepair (ch : Fin 16)
  | stackEnable
  | memErrClear (ch : Fin 16)
  -- management chain
  | rollCallStart
  | token (id : BitVec 8)
  | full
  | close (id count : BitVec 8)
  | chainFrameRepeat
  | rollCallTimeout
  | chainNoclk
  -- Kwaos links
  | linkEnable (k : Fin 4)
  | linkRetrain (k : Fin 4)
  | linkTrainingComplete (k : Fin 4) (lanes : LaneTest) (peerId : BitVec 8) (peerPort : BitVec 2) (rtt : Nat)
  | linkNoPeer (k : Fin 4)
  | flitReceive (k : Fin 4) (flit : Flit)
  | nak (k : Fin 4) (lastGood : BitVec 16)
  | linkAck (k : Fin 4) (good : BitVec 16) (credits : List Nat)
  | laneErrorThreshold (k : Fin 4) (lane : Fin 4)
  | laneLockLoss (k : Fin 4) (lane : Fin 4)
  | linkErrClear (k : Fin 4)
  | fabricEnable (val : W32)
  | read (k : Fin 4) (pkt : Packet)
  | write (k : Fin 4) (pkt : Packet)
  | atomic (k : Fin 4) (pkt : Packet)
  | barArrive (k : Fin 4) (pkt : Packet)
  | mgmt (k : Fin 4) (pkt : Packet)
  | rdata (k : Fin 4) (pkt : Packet)
  | wack (k : Fin 4) (pkt : Packet)
  | aresult (k : Fin 4) (pkt : Packet)
  | barRelease (k : Fin 4) (pkt : Packet)
  | error (k : Fin 4) (pkt : Packet)
  | fabricDiscovery (mapAgrees : Bool) (roster : BitVec 8) (routes : List (Nat × W32)) (ctl : List (Nat × W32)) (fab : W32)
  -- power and clocks; powers in 1/16 W, temperatures in 1/1000 degree
  | dvfsStep (req : BitVec 2)
  | setpointSlewDone
  | relockWindow
  | relockComplete
  | droopTrip (x : Droop)
  | skipFrameBoundary (p : Fin 7)
  | braceEntry
  | braceRecovery
  | braceHoldEnd
  | braceRampStep
  | supplyReset
  | capTick (now avg : Nat)
  | grantWrite (val : W32)
  | leaseDrop
  | leaseExpire
  | grant (payload : List Byte)
  | thermalSample (milli : List Int)
  | thermalTick
  | energyTick (charges : List Charge)
  | energyTableEnable (base : BitVec 29)
  | pmbusTelemetry (millivolt milliamp : Nat)
  | pmAlert
  | marginMeasure (point : Fin 4) (slackPermille : Nat)
  | reportCardWrite
  -- faults, spares, background work, replay
  | errorDetect (where_ : ErrorSite) (permanent : Bool)
  | takeoverRemap
  | takeoverReloadDone
  | pllLockLoss (commons : Bool)
  | pllSwitchComplete (commons : Bool)
  | rotationDue
  | rotationStep
  | rotationSkip
  | selfTestComplete (p : Fin 7) (r : TestResult)
  | recessWindow (w : Recess)
  | deviceTestComplete (passed : Bool)
  -- service requests; `req` is the 64-byte request record
  | servicePoll (host : List Host.Cell)
  | streamOpen (req : List Byte)
  | streamClose (req : List Byte)
  | encodeOpen (req : List Byte)
  | encodeClose (req : List Byte)
  | faultConfig (req : List Byte)
  | test (req : List Byte)
  | marionette (req : List Byte)
  | lease (req : List Byte)
  | settingsWrite (req : List Byte)
  | flashWrite (req : List Byte)
  | svnCommit (req : List Byte)
  | ownerProvision (req : List Byte)
  | identity (req : List Byte)
  | attest (req : List Byte)
  | debugChallenge (req : List Byte) (random : BitVec 256)
  | debugChallengeExpire
  | debugUnlock (req : List Byte)
  | reset (req : List Byte)
  | serviceRingEnable (val : W32)
  | pciErrClear
  | msixUnmask (vector : Option (Fin 64)) (enable functionMask : Bool)
  | powerStateChange (d3hot busMaster : Bool)
  | perst
  | functionReset
  -- boot
  | resetNAssert
  | resetRelease (release : Release)
  | loaderImageCheck
  | firmwareRelease (selfCheckOk : Bool)
  | stackTrainingComplete (failed : List (Fin 16)) (up : StepUp)
  | bootReady
  | recoveryGo (len : BitVec 24)
  | ignoredChainFrame (frame : BitVec 32)
  | tb10mLock
  | supplyRemoval
  | bar2Resize (log2Size : Nat)
  | forcedTestTimeout
deriving DecidableEq, Repr

end Sys2Proof
end

