-- ==== Sys2Proof/Decode.lean ====
section
/-! DEFINITION. The command a table word spells. No row of the table of operations gives bits, so no word spells one. -/

namespace Sys2Proof

/-- The command of a word of `nbits` bits: none, since the table lays no word out for any row. -/
def decodeTableWord (_nbits _w : Nat) : Option Instr := none

end Sys2Proof
end

