-- ==== Sys2Proof/Machine/Sparse.lean ====
section
/-! DEFINITION. Sparse maps in one canonical form (keys strictly rising, no entry equal to the default), byte lists,
and the bit-field helpers every other file uses. -/

namespace Sys2Proof.Machine

variable {V : Type}

/-- The value at `a`, or the default `d` where the map lists nothing. -/
def spGet (d : V) : Sparse V → Nat → V
  | [], _ => d
  | (k, v) :: r, a => if k = a then v else spGet d r a

/-- Remove the entry at `a`. -/
def spErase : Sparse V → Nat → Sparse V
  | [], _ => []
  | (k, v) :: r, a => if k = a then spErase r a else (k, v) :: spErase r a

/-- Put `v` at `a`, keeping the keys in rising order. -/
def spIns : Sparse V → Nat → V → Sparse V
  | [], a, v => [(a, v)]
  | (k, x) :: r, a, v =>
    if a < k then (a, v) :: (k, x) :: r
    else if a = k then (a, v) :: r
    else (k, x) :: spIns r a v

/-- Write `v` at `a`: writing the default removes the entry. -/
def spSet [DecidableEq V] (d : V) (m : Sparse V) (a : Nat) (v : V) : Sparse V :=
  if v = d then spErase m a else spIns m a v

/-- Every key of the map is above `lo` and the keys rise strictly. -/
def spRising : Nat → Sparse V → Bool
  | _, [] => true
  | lo, (k, _) :: r => decide (lo ≤ k) && spRising (k + 1) r

/-- The canonical form: keys strictly rising, no entry holding the default. -/
def spWf [DecidableEq V] (d : V) (m : Sparse V) : Bool :=
  spRising 0 m && m.all (fun e => decide (e.2 ≠ d))

/-- Replace element `i` of a list. -/
def setAt : List V → Nat → V → List V
  | [], _, _ => []
  | _ :: r, 0, v => v :: r
  | x :: r, i + 1, v => x :: setAt r i v

/-- Apply `f` to element `i` of a list. -/
def modAt : List V → Nat → (V → V) → List V
  | [], _, _ => []
  | x :: r, 0, f => f x :: r
  | x :: r, i + 1, f => x :: modAt r i f

/-- The numbers 0 to n - 1. -/
def upto (n : Nat) : List Nat := List.range n

/-- Bits `hi` to `lo` of a number. -/
def bits (x : Nat) (hi lo : Nat) : Nat := (x >>> lo) % 2 ^ (hi + 1 - lo)

/-- Bit `i` of a number. -/
def bit (x : Nat) (i : Nat) : Bool := (x >>> i) % 2 == 1

/-- One where the condition holds, else zero. -/
def b2n (b : Bool) : Nat := if b then 1 else 0

/-- Replace bits `hi` to `lo` of a number by the low bits of `v`. -/
def setBits (x : Nat) (hi lo v : Nat) : Nat :=
  x - (bits x hi lo) * 2 ^ lo + (v % 2 ^ (hi + 1 - lo)) * 2 ^ lo

/-- The two's-complement value of the low `w` bits. -/
def sgn (w x : Nat) : Int :=
  let y := x % 2 ^ w
  if 2 * y < 2 ^ w then (y : Int) else (y : Int) - (2 ^ w : Nat)

/-- The low `w` bits of an integer. -/
def unsgn (w : Nat) (x : Int) : Nat := (x % ((2 ^ w : Nat) : Int)).toNat

/-- Clamp an integer. -/
def clampI (x lo hi : Int) : Int := if x < lo then lo else if hi < x then hi else x

/-- Round a quotient up. -/
def ceilDiv (a b : Nat) : Nat := (a + b - 1) / b

/-- Bytes of a number, least significant first (R11). -/
def leBytes : Nat → Nat → List Byte
  | 0, _ => []
  | n + 1, x => BitVec.ofNat 8 x :: leBytes n (x / 256)

/-- The number whose bytes these are, least significant first (R11). -/
def leNat : List Byte → Nat
  | [] => 0
  | b :: r => b.toNat + 256 * leNat r

/-- Two 32-bit register halves as one 64-bit number. -/
def hiLo (hi lo : W32) : Nat := hi.toNat * 2 ^ 32 + lo.toNat

/-- Drop the first entry that `p` accepts. -/
def dropFirst (p : V → Bool) : List V → List V
  | [] => []
  | x :: r => if p x then r else x :: dropFirst p r

end Sys2Proof.Machine
end

