-- ==== Sys2Proof/Machine/Num.lean ====
section
/-! DEFINITION. The arithmetic of 02_number_formats.md: exact values, the element formats (R48-R55), FP32 operations
rounded to nearest even (R59, R71, R100), narrowing with ties away from zero (R69-R73), the integer epilogue (R74),
QRANGE, quantise and dequantise (R75, R76). -/

namespace Sys2Proof.Machine

/-- The numeric flag byte (R78). -/
abbrev NumFlags := BitVec 8

def nfAsat : NumFlags := 0x01#8
def nfLsat : NumFlags := 0x02#8
def nfNsat : NumFlags := 0x04#8
def nfFovf : NumFlags := 0x08#8
def nfNan : NumFlags := 0x10#8
def nfDegen : NumFlags := 0x20#8

/-- A flag where the condition holds. -/
def flagIf (b : Bool) (f : NumFlags) : NumFlags := if b then f else 0#8

/-- An exact floating-point value: `fin s m e` is (-1)^s m 2^e. -/
inductive FV where
  | nan
  | inf (neg : Bool)
  | fin (neg : Bool) (m : Nat) (e : Int)
deriving DecidableEq, Repr

/-- A binary format: exponent bits, mantissa bits. -/
structure FpFmt where
  eb : Nat
  mb : Nat
deriving DecidableEq, Repr

def fp32 : FpFmt := ⟨8, 23⟩
def fp16 : FpFmt := ⟨5, 10⟩
def bf16 : FpFmt := ⟨8, 7⟩
def e5m2 : FpFmt := ⟨5, 2⟩
def e4m3 : FpFmt := ⟨4, 3⟩

/-- The exponent of the smallest subnormal. -/
def FpFmt.qmin (f : FpFmt) : Int := 2 - (2 : Int) ^ (f.eb - 1) - f.mb

/-- The value of an encoding (R53 for E4M3, which has no infinities; R54 and IEEE 754 for the others). -/
def fpDec (f : FpFmt) (x : Nat) : FV :=
  let m := x % 2 ^ f.mb
  let e := (x >>> f.mb) % 2 ^ f.eb
  let s := bit x (f.eb + f.mb)
  if f = e4m3 ∧ e = 15 ∧ m = 7 then .nan
  else if f ≠ e4m3 ∧ e = 2 ^ f.eb - 1 then (if m = 0 then .inf s else .nan)
  else if e = 0 then .fin s m f.qmin
  else .fin s (m + 2 ^ f.mb) (f.qmin + e - 1)

/-- floor(log2 (n / d)) for n, d > 0. -/
def ilog2 (n d : Nat) : Int :=
  let l : Int := (Nat.log2 n : Int) - (Nat.log2 d : Int)
  let under : Bool := if 0 ≤ l then n < d * 2 ^ l.toNat else n * 2 ^ (-l).toNat < d
  if under then l - 1 else l

/-- Round n / d to an integer, ties to even. -/
def rndEven (n d : Nat) : Nat :=
  let q := n / d
  let r := n % d
  if 2 * r < d then q else if d < 2 * r then q + 1 else q + q % 2

/-- Round n / d to an integer, ties away from zero. -/
def rndAway (n d : Nat) : Nat := (2 * n + d) / (2 * d)

/-- The rounded magnitude of n / d times 2^e in the format as if the exponent were unbounded above: the encoding
without its sign, which may lie at or beyond the infinity's (R59, R72). -/
def fpMag (f : FpFmt) (away : Bool) (n d : Nat) (e : Int) : Nat :=
  if n = 0 then 0
  else
    let l := ilog2 n d + e
    let q : Int := if l - f.mb < f.qmin then f.qmin else l - f.mb
    let k := e - q
    let (n', d') := if 0 ≤ k then (n * 2 ^ k.toNat, d) else (n, d * 2 ^ (-k).toNat)
    let r := if away then rndAway n' d' else rndEven n' d'
    (q - f.qmin).toNat * 2 ^ f.mb + r

/-- The encoding of the infinity (or, for E4M3, of the NaN) without its sign. -/
def FpFmt.top (f : FpFmt) : Nat := if f = e4m3 then 0x7F else (2 ^ f.eb - 1) * 2 ^ f.mb

/-- The canonical NaN (R55). -/
def FpFmt.cnan (f : FpFmt) : Nat := if f = e4m3 then 0x7F else f.top + 2 ^ (f.mb - 1)

/-- The sign bit's weight. -/
def FpFmt.sbit (f : FpFmt) : Nat := 2 ^ (f.eb + f.mb)

/-- Float narrowing (R69, R72): ties away, overflow to the format's largest (E4M3) or infinity, with flags. -/
def fpNarrow (f : FpFmt) : FV → Nat × NumFlags
  | .nan => (f.cnan, nfNan)
  | .inf s => if f = e4m3 then (b2n s * f.sbit + 0x7E, nfFovf) else (b2n s * f.sbit + f.top, 0#8)
  | .fin s m e =>
    let r := fpMag f true m 1 e
    if r < f.top then (b2n s * f.sbit + r, 0#8)
    else (b2n s * f.sbit + (if f = e4m3 then 0x7E else f.top), nfFovf)

/-- FP32 from an exact rational, IEEE round to nearest even (R71). -/
def f32OfRat (s : Bool) (n d : Nat) (e : Int) : W32 :=
  let r := fpMag fp32 false n d e
  BitVec.ofNat 32 (b2n s * 2 ^ 31 + (if r < fp32.top then r else fp32.top))

def f32Nan : W32 := 0x7FC00000#32
def f32Inf : W32 := 0x7F800000#32
def f32NegInf : W32 := 0xFF800000#32
def f32Max : W32 := 0x7F7FFFFF#32

/-- The exact value of an FP32 element. -/
def f32Dec (x : W32) : FV := fpDec fp32 x.toNat

/-- IEEE round-to-nearest-even of an exact value to FP32. -/
def f32Of : FV → W32
  | .nan => f32Nan
  | .inf s => if s then f32NegInf else f32Inf
  | .fin s m e => f32OfRat s m 1 e

/-- Whether an FP32 element is a NaN. -/
def f32IsNan (x : W32) : Bool := decide (0x7F800000 < x.toNat % 2 ^ 31)

/-- Whether an FP32 element is an infinity. -/
def f32IsInf (x : W32) : Bool := decide (x.toNat % 2 ^ 31 = 0x7F800000)

/-- The exact sum; opposite exact values give +0, two negative zeros give -0 (IEEE 754, R59). -/
def fvAdd : FV → FV → FV
  | .nan, _ => .nan
  | _, .nan => .nan
  | .inf a, .inf b => if a = b then .inf a else .nan
  | .inf a, _ => .inf a
  | _, .inf b => .inf b
  | .fin a m e, .fin b n g =>
    let k := if e ≤ g then e else g
    let x : Int := (m * 2 ^ (e - k).toNat : Nat)
    let y : Int := (n * 2 ^ (g - k).toNat : Nat)
    let z := (if a then -x else x) + (if b then -y else y)
    if z = 0 then .fin (a && b && m == 0 && n == 0) 0 k else .fin (decide (z < 0)) z.natAbs k

/-- The exact product. -/
def fvMul : FV → FV → FV
  | .nan, _ => .nan
  | _, .nan => .nan
  | .inf a, .inf b => .inf (a ^^ b)
  | .inf a, .fin b n _ => if n = 0 then .nan else .inf (a ^^ b)
  | .fin a m _, .inf b => if m = 0 then .nan else .inf (a ^^ b)
  | .fin a m e, .fin b n g => .fin (a ^^ b) (m * n) (e + g)

def fvNeg : FV → FV
  | .nan => .nan
  | .inf a => .inf (!a)
  | .fin a m e => .fin (!a) m e

/-- FP32 addition, subtraction, product and fused multiply-add with one rounding (R59, R100, R101). -/
def f32Add (a b : W32) : W32 := f32Of (fvAdd (f32Dec a) (f32Dec b))
def f32Sub (a b : W32) : W32 := f32Of (fvAdd (f32Dec a) (fvNeg (f32Dec b)))
def f32Mul (a b : W32) : W32 := f32Of (fvMul (f32Dec a) (f32Dec b))
def f32Fma (a b c : W32) : W32 := f32Of (fvAdd (fvMul (f32Dec a) (f32Dec b)) (f32Dec c))

/-- FP32 division (R177: rne(x / y)); x / 0 is an infinity, 0 / 0 a NaN. -/
def f32Div (a b : W32) : W32 :=
  match f32Dec a, f32Dec b with
  | .nan, _ => f32Nan
  | _, .nan => f32Nan
  | .inf _, .inf _ => f32Nan
  | .inf s, .fin t _ _ => if s ^^ t then f32NegInf else f32Inf
  | .fin s _ _, .inf t => f32OfRat (s ^^ t) 0 1 0
  | .fin s m e, .fin t n g =>
    if n = 0 then (if m = 0 then f32Nan else if s ^^ t then f32NegInf else f32Inf)
    else f32OfRat (s ^^ t) m n (e - g)

/-- The value order as integers: a total order of FP32 elements with -0 below +0 (R144, R162, R172). -/
def f32Key (x : W32) : Int :=
  let m : Int := (x.toNat % 2 ^ 31 : Nat)
  if bit x.toNat 31 then -m - 1 else m

/-- Minimum and maximum that order -0 below +0 and give NaN where either is NaN (R100, R144, R162). -/
def f32Min (a b : W32) : W32 :=
  if f32IsNan a || f32IsNan b then f32Nan else if f32Key a ≤ f32Key b then a else b
def f32Max2 (a b : W32) : W32 :=
  if f32IsNan a || f32IsNan b then f32Nan else if f32Key a ≤ f32Key b then b else a

/-- Numeric comparison: the zeros are equal, a NaN is neither less nor equal (R101). -/
def f32Lt (a b : W32) : Bool :=
  if f32IsNan a || f32IsNan b then false
  else if a.toNat % 2 ^ 31 = 0 && b.toNat % 2 ^ 31 = 0 then false
  else decide (f32Key a < f32Key b)
def f32Eq (a b : W32) : Bool :=
  if f32IsNan a || f32IsNan b then false
  else if a.toNat % 2 ^ 31 = 0 && b.toNat % 2 ^ 31 = 0 then true
  else decide (a = b)

/-- floor(sqrt n), `k` bits of result from the top. -/
def isqrt : Nat → Nat → Nat → Nat
  | 0, _, r => r
  | k + 1, n, r => let c := r + 2 ^ k; isqrt k n (if c * c ≤ n then c else r)

/-- The correctly rounded FP32 value of 1 / sqrt(x) (R177 ISTD): +infinity for a zero, NaN below zero. -/
def f32Rsqrt (x : W32) : W32 :=
  match f32Dec x with
  | .nan => f32Nan
  | .inf s => if s then f32Nan else 0#32
  | .fin s m e =>
    if m = 0 then f32Inf
    else if s then f32Nan
    else
      let (m', k) := if e % 2 = 0 then (m, e / 2) else (2 * m, (e - 1) / 2)
      let t : Nat := 64
      let q := 2 ^ (2 * t) / m'
      let r := isqrt 70 q 0
      let sticky := decide (r * r * m' ≠ 2 ^ (2 * t))
      f32OfRat false (2 * r + b2n sticky) 1 (-(t : Int) - (k : Int) - 1)

/-- round_ties_away of n / d times 2^e with a sign. -/
def roundAway (s : Bool) (n d : Nat) (e : Int) : Int :=
  let r : Int := if 0 ≤ e then rndAway (n * 2 ^ e.toNat) d else rndAway n (d * 2 ^ (-e).toNat)
  if s then -r else r

/-- FP32 from an integer in units of 2^e, to nearest even (R71). -/
def f32OfInt (x : Int) (e : Int) : W32 := f32OfRat (decide (x < 0)) x.natAbs 1 e

/-- An exact value from an integer. -/
def fvOfInt (x : Int) : FV := .fin (decide (x < 0)) x.natAbs 0

/-- Integer narrowing (R73): zero point `zp`, the format's own range `flo`-`fhi`, bounds `lo`-`hi`. -/
def intNarrow (zp flo fhi lo hi : Int) : FV → Int × NumFlags
  | .nan => (zp, nfNan)
  | .inf s => (if s then lo else hi, nfNsat)
  | .fin s m e =>
    let r := roundAway s m 1 e + zp
    (clampI r lo hi, flagIf (decide (r < flo) || decide (fhi < r)) nfNsat)

/-- The element formats with the codes of R161. -/
inductive EFmt where
  | int8 | uint8 | int4 | e4 | e5 | f16 | b16 | f32
deriving DecidableEq, Repr

/-- R161: format codes; 8-15 are reserved. -/
def efmtOf : Nat → Option EFmt
  | 0 => some .int8 | 1 => some .uint8 | 2 => some .int4 | 3 => some .e4
  | 4 => some .e5 | 5 => some .f16 | 6 => some .b16 | 7 => some .f32 | _ => none

/-- Bits of an element (R161). -/
def EFmt.bits : EFmt → Nat
  | .int8 => 8 | .uint8 => 8 | .int4 => 4 | .e4 => 8 | .e5 => 8 | .f16 => 16 | .b16 => 16 | .f32 => 32

def EFmt.isInt : EFmt → Bool
  | .int8 => true | .uint8 => true | .int4 => true | _ => false

/-- R161: the formats that may carry a zero point. -/
def EFmt.zpOk : EFmt → Bool
  | .int8 => true | .uint8 => true | _ => false

/-- The integer format's range (R48). -/
def EFmt.lo : EFmt → Int
  | .int8 => -128 | .int4 => -8 | _ => 0
def EFmt.hi : EFmt → Int
  | .int8 => 127 | .int4 => 7 | _ => 255

/-- The integer an integer code stands for before its zero point (R48, R49). -/
def EFmt.code (f : EFmt) (x : Nat) : Int :=
  match f with
  | .int8 => sgn 8 x
  | .int4 => sgn 4 x
  | _ => (x % 256 : Nat)

/-- The floating-point format, for a float element format. -/
def EFmt.fp : EFmt → FpFmt
  | .e4 => e4m3 | .e5 => e5m2 | .f16 => fp16 | .b16 => bf16 | _ => fp32

/-- The exact value of an element with zero point 0 (R52, R190). -/
def EFmt.dec (f : EFmt) (x : Nat) : FV :=
  if f.isInt then fvOfInt (f.code x) else fpDec f.fp (x % 2 ^ f.bits)

/-- Narrow an exact value to a format, zero point `zp` for the integers (R69, R72, R73); FP32 is written without
further rounding after one rounding to nearest even (R71). -/
def EFmt.enc (f : EFmt) (zp : Int) (v : FV) : Nat × NumFlags :=
  if f.isInt then
    let (c, fl) := intNarrow zp f.lo f.hi f.lo f.hi v
    (unsgn f.bits c, fl)
  else if f = .f32 then ((f32Of v).toNat, 0#8)
  else fpNarrow f.fp v

/-- The value of a GS8 byte as (16 + m) 2^e in units of 2^-12; zero for the byte 0x00 (R62, R67). -/
def gs8Units (b : Nat) : Nat := if b = 0 then 0 else (16 + b % 16) * 2 ^ (b / 16)

/-- The integer epilogue (R74): answers the code as an integer and the flags. -/
def intEpilogue (acc bias mult : Int) (sh : Nat) (zp flo fhi : Int) (relu : Nat) (cap : Int) : Int × NumFlags :=
  let y := (acc + bias) * mult
  let r := roundAway (decide (y < 0)) y.natAbs (2 ^ sh) 0 + zp
  let lo := if relu = 0 then flo else max flo zp
  let hi := if relu = 2 then min fhi cap else fhi
  (clampI r lo hi, flagIf (decide (r < flo) || decide (fhi < r)) nfNsat)

/-- QRANGE of one channel from its lo and hi (R75, R103): range, zero point, degenerate bit, flags. A lane with lo > hi is
taken as lo = hi = 0 and sets no numeric flag of its own; its D bit is 1 as R75 has it for equal ends, and so DEGEN counts it
(DESIGN CHOICE, log 86: R103's two sentences leave it open). -/
def qrange (lo hi : W32) : W32 × Int × Bool × NumFlags :=
  let nonfin (x : W32) := f32IsNan x || f32IsInf x
  let noval := !(f32IsNan lo || f32IsNan hi) && f32Lt hi lo
  let bad := !noval && (nonfin lo || nonfin hi)
  let fl0 := if bad then flagIf (f32IsNan lo || f32IsNan hi) nfNan ||| flagIf (f32IsInf lo || f32IsInf hi) nfFovf
             else 0#8
  let l : W32 := if noval || bad then 0#32 else lo
  let h : W32 := if noval || bad then 0#32 else hi
  let degen := f32Eq l h
  let l2 : W32 := if f32Lt l 0#32 then l else 0#32
  let h2 : W32 := if f32Lt 0#32 h then h else 0#32
  let r0 := f32Sub h2 l2
  let r : W32 := if f32Eq h2 l2 then 0x437F0000#32 else if f32IsInf r0 then f32Max else r0
  let fl1 := flagIf (!f32Eq h2 l2 && f32IsInf r0) nfFovf
  let zp : Int :=
    match f32Dec l2, f32Dec r with
    | .fin s m e, .fin _ n g => clampI (if n = 0 then 0 else roundAway (!s) (m * 255) n (e - g)) 0 255
    | _, _ => 0
  (r, zp, degen, fl0 ||| fl1 ||| flagIf degen nfDegen)

/-- quantise of R76 with the flags of R104. A NaN gives zp; a zp that no UINT8 code holds is clamped to 0-255 for it, which
the spec does not say (DESIGN CHOICE, log 85). Where r is zero or not finite the quotient has no stated value: its
rounded value is then free (`Config.openQuotient`, log 15). -/
def quantise (x r : W32) (zp : Int) : Int × NumFlags :=
  match f32Dec x, f32Dec r with
  | .nan, _ => (clampI zp 0 255, nfNan)
  | .inf s, _ => (if s then 0 else 255, nfNsat)
  | .fin s m e, d =>
    let q : Int :=
      match d with
      | .fin t n g => if n = 0 then Config.openQuotient x r else roundAway (s ^^ t) (m * 255) n (e - g)
      | _ => Config.openQuotient x r
    (clampI (q + zp) 0 255, flagIf (decide (q + zp < 0) || decide (255 < q + zp)) nfNsat)

/-- dequantise of R76: one exact operation, one rounding to nearest even. R76 gives no value for an r that is not a positive
finite number, nor a sign to a result of 0: an infinite r gives an infinity, or a NaN at u = zp, a NaN r gives a NaN, and the
sign is that of u - zp (a difference of 0 counts as positive) combined with r's (DESIGN CHOICE, log 102). -/
def dequantise (u : Nat) (r : W32) (zp : Int) : W32 :=
  let d : Int := (u : Int) - zp
  match f32Dec r with
  | .nan => f32Nan
  | .inf s => if d = 0 then f32Nan else if s ^^ decide (d < 0) then f32NegInf else f32Inf
  | .fin s m e => f32OfRat (s ^^ decide (d < 0)) (d.natAbs * m) 255 e

end Sys2Proof.Machine
end

