-- ==== Sys2Proof/Machine/RegTable.lean ====
section
/-! DEFINITION. The registers of the register space (R12, R38): each register's place, the access type of each of its
fields (R13) and its reset value, as the chapters' register tables give them. -/

namespace Sys2Proof.Machine

/-- Access types (R13). -/
inductive Access where
  | ro | rw | w1c | w1s | wo | rwl
deriving DecidableEq, Repr

/-- The registers, one name per register table of the spec. -/
inductive Reg where
  /-- SYS_ID (R39). -/
  | sysId
  /-- SYS_LOCK (R40). -/
  | sysLock
  /-- SYS_CORE_MAP (R41). -/
  | sysCoreMap
  /-- CORE_STATE (R125). -/
  | coreState
  /-- CORE_TASK (R126). -/
  | coreTask
  /-- CORE_EXC (R127). -/
  | coreExc
  /-- CORE_CYCLES_LO (R128). -/
  | coreCyclesLo
  /-- CORE_CYCLES_HI (R128). -/
  | coreCyclesHi
  /-- CORE_STALL_WAIT (R129). -/
  | coreStallWait
  /-- CORE_STALL_ISSUE (R129). -/
  | coreStallIssue
  /-- CORE_ARR_STATE (R152). -/
  | coreArrState
  /-- CORE_ARR_IDLE (R152). -/
  | coreArrIdle
  /-- CORE_ARR_RAMP_WAIT (R152). -/
  | coreArrRampWait
  /-- CORE_ARR_RAMPS (R152). -/
  | coreArrRamps
  /-- CORE_ARR_ROWMAP_A (R152). -/
  | coreArrRowmapA
  /-- CORE_ARR_COLMAP_A (R152). -/
  | coreArrColmapA
  /-- CORE_ARR_ROWMAP_B (R152). -/
  | coreArrRowmapB
  /-- CORE_ARR_COLMAP_B (R152). -/
  | coreArrColmapB
  /-- CORE_ARR_SPFUSE (R152). -/
  | coreArrSpfuse
  /-- CORE_CHD_CTL (R160). -/
  | coreChdCtl
  /-- CORE_CHD_OPS (R160). -/
  | coreChdOps
  /-- CORE_CHD_ARGS (R160). -/
  | coreChdArgs
  /-- CORE_CHD_OUT (R160). -/
  | coreChdOut
  /-- CORE_CHD_P (R160). -/
  | coreChdP
  /-- CORE_FTAB_X0 (R170). -/
  | coreFtabX0
  /-- CORE_FTAB_INVW (R170). -/
  | coreFtabInvw
  /-- CORE_FTAB_EDGE (R170). -/
  | coreFtabEdge
  /-- CORE_FTAB_TCTL (R170). -/
  | coreFtabTctl
  /-- CORE_FTAB_COEF (R170). -/
  | coreFtabCoef
  /-- CORE_WLK_FAULT (R201). -/
  | coreWlkFault
  /-- CORE_WLK_FDESC (R201). -/
  | coreWlkFdesc
  /-- CORE_WLK_FADDR_LO (R201). -/
  | coreWlkFaddrLo
  /-- CORE_WLK_FADDR_HI (R201). -/
  | coreWlkFaddrHi
  /-- CORE_WLK_OUTST (R201). -/
  | coreWlkOutst
  /-- CORE_WLK_RDBLK (R201). -/
  | coreWlkRdblk
  /-- CORE_WLK_WRBLK (R201). -/
  | coreWlkWrblk
  /-- CORE_WCH_CTL (R207). -/
  | coreWchCtl
  /-- CORE_WCH_WIN (R207). -/
  | coreWchWin
  /-- CORE_WCH_STAT (R207). -/
  | coreWchStat
  /-- CORE_HALO_CTL (R238). -/
  | coreHaloCtl
  /-- CORE_HALO_RDY_UP (R238). -/
  | coreHaloRdyUp
  /-- CORE_HALO_RDY_DN (R238). -/
  | coreHaloRdyDn
  /-- CORE_HALO_SPC_UP (R238). -/
  | coreHaloSpcUp
  /-- CORE_HALO_SPC_DN (R238). -/
  | coreHaloSpcDn
  /-- CORE_CONV_EMPTY (R238). -/
  | coreConvEmpty
  /-- TT_CTL (R268). -/
  | ttCtl
  /-- TT_RING_POLL (R268). -/
  | ttRingPoll
  /-- TT_TASK_STAT (R268). -/
  | ttTaskStat
  /-- TT_ARB_CTL (R268). -/
  | ttArbCtl
  /-- TT_BAR_DEV (R268). -/
  | ttBarDev
  /-- TT_CMD_BASE_LO (R268). -/
  | ttCmdBaseLo
  /-- TT_CMD_BASE_HI (R268). -/
  | ttCmdBaseHi
  /-- TT_CPL_BASE_LO (R268). -/
  | ttCplBaseLo
  /-- TT_CPL_BASE_HI (R268). -/
  | ttCplBaseHi
  /-- TT_RING_CFG (R268). -/
  | ttRingCfg
  /-- TT_RING_IRQ (R268). -/
  | ttRingIrq
  /-- TT_RING_STAT (R268). -/
  | ttRingStat
  /-- TT_CNT (R268). -/
  | ttCnt
  /-- CAP_TB_CTL (R293). -/
  | capTbCtl
  /-- CAP_TB_NOW_LO (R293). -/
  | capTbNowLo
  /-- CAP_TB_NOW_HI (R293). -/
  | capTbNowHi
  /-- CAP_TB_SET (R293). -/
  | capTbSet
  /-- CAP_PORT_CFG (R293). -/
  | capPortCfg
  /-- CAP_PORT_ERR (R293). -/
  | capPortErr
  /-- CAP_VC_CFG (R293). -/
  | capVcCfg
  /-- CAP_VC_STAT (R293). -/
  | capVcStat
  /-- CAP_FSYNC_CFG (R293). -/
  | capFsyncCfg
  /-- CAP_FSYNC_PER (R293). -/
  | capFsyncPer
  /-- ISP_PIPE_STAT (R294). -/
  | ispPipeStat
  /-- VID_ENG_STAT (R294). -/
  | vidEngStat
  /-- EASEL_STAB_LO (R316). -/
  | easelStabLo
  /-- EASEL_STAB_HI (R316). -/
  | easelStabHi
  /-- EASEL_ASM_BASE_LO (R316). -/
  | easelAsmBaseLo
  /-- EASEL_ASM_BASE_HI (R316). -/
  | easelAsmBaseHi
  /-- EASEL_ASM_CTL (R316). -/
  | easelAsmCtl
  /-- EASEL_ASM_STAT (R316). -/
  | easelAsmStat
  /-- EASEL_GRP_CFG (R316). -/
  | easelGrpCfg
  /-- PRIM_CTL (R317). -/
  | primCtl
  /-- PRIM_BASE_LO (R317). -/
  | primBaseLo
  /-- PRIM_BASE_HI (R317). -/
  | primBaseHi
  /-- PRIM_STAT (R317). -/
  | primStat
  /-- MEM_CH_STAT (R340). -/
  | memChStat
  /-- MEM_CH_ERR (R340). -/
  | memChErr
  /-- MEM_CH_ODECC (R340). -/
  | memChOdecc
  /-- MEM_CH_RH (R340). -/
  | memChRh
  /-- MEM_CH_REPAIR (R340). -/
  | memChRepair
  /-- MEM_CH_PPR (R340). -/
  | memChPpr
  /-- MEM_GCTL (R340). -/
  | memGctl
  /-- MEM_RD_CTL (R340). -/
  | memRdCtl
  /-- MEM_MAP (R340). -/
  | memMap
  /-- MEM_RT_THR (R340). -/
  | memRtThr
  /-- CHN_CFG (R347). -/
  | chnCfg
  /-- CHN_STAT (R347). -/
  | chnStat
  /-- CHN_TIME (R347). -/
  | chnTime
  /-- LNK_CTL (R354). -/
  | lnkCtl
  /-- LNK_STAT (R354). -/
  | lnkStat
  /-- LNK_ERR (R354). -/
  | lnkErr
  /-- LNK_LANEERR (R354). -/
  | lnkLaneerr
  /-- LNK_FAB_CTL (R365). -/
  | lnkFabCtl
  /-- LNK_MBOX_STAT (R365). -/
  | lnkMboxStat
  /-- LNK_ROUTE (R365). -/
  | lnkRoute
  /-- PWR_CAP (R396). -/
  | pwrCap
  /-- PWR_LEASE (R396). -/
  | pwrLease
  /-- PWR_SKIP (R396). -/
  | pwrSkip
  /-- PWR_DVFS (R396). -/
  | pwrDvfs
  /-- PWR_SUPPLY (R396). -/
  | pwrSupply
  /-- PWR_DROOP (R396). -/
  | pwrDroop
  /-- PWR_STRETCH (R396). -/
  | pwrStretch
  /-- PWR_SLOT_FLOOR (R396). -/
  | pwrSlotFloor
  /-- TEL_PWR (R397). -/
  | telPwr
  /-- TEL_THERM (R397). -/
  | telTherm
  /-- TEL_EJOB (R397). -/
  | telEjob
  /-- TEL_ENERGY (R397). -/
  | telEnergy
  /-- TEL_RCARD (R397). -/
  | telRcard
  /-- TEL_TS (R397). -/
  | telTs
  /-- PCI_BAR2_BASE (R459). -/
  | pciBar2Base
  /-- PCI_BAR4_CORE (R459). -/
  | pciBar4Core
  /-- PCI_ERR (R459). -/
  | pciErr
  /-- PCI_SVC_CMD_LO (R459). -/
  | pciSvcCmdLo
  /-- PCI_SVC_CMD_HI (R459). -/
  | pciSvcCmdHi
  /-- PCI_SVC_RSP_LO (R459). -/
  | pciSvcRspLo
  /-- PCI_SVC_RSP_HI (R459). -/
  | pciSvcRspHi
  /-- PCI_SVC_CFG (R459). -/
  | pciSvcCfg
  /-- SEC_BOOT (R460). -/
  | secBoot
  /-- SEC_STATE (R460). -/
  | secState
  /-- SEC_RESET (R460). -/
  | secReset
  /-- SEC_RECOVERY (R460). -/
  | secRecovery
deriving DecidableEq, Repr

/-- Where a register lies: its offset from 0x000E_0000_0000 and, for an indexed one, the count and stride of each
index, outermost first (R38 and the register tables). -/
structure RegPlace where
  base : Nat
  dims : List (Nat × Nat)
deriving DecidableEq, Repr

/-- The place of each register. -/
def Reg.place : Reg → RegPlace
  | .sysId => ⟨0x0, []⟩
  | .sysLock => ⟨0x4, []⟩
  | .sysCoreMap => ⟨0x8, []⟩
  | .coreState => ⟨0x1000000, [(7, 0x100000)]⟩
  | .coreTask => ⟨0x1000004, [(7, 0x100000)]⟩
  | .coreExc => ⟨0x1000008, [(7, 0x100000)]⟩
  | .coreCyclesLo => ⟨0x1000010, [(7, 0x100000)]⟩
  | .coreCyclesHi => ⟨0x1000014, [(7, 0x100000)]⟩
  | .coreStallWait => ⟨0x1000018, [(7, 0x100000)]⟩
  | .coreStallIssue => ⟨0x100001C, [(7, 0x100000)]⟩
  | .coreArrState => ⟨0x1001000, [(7, 0x100000)]⟩
  | .coreArrIdle => ⟨0x1001004, [(7, 0x100000)]⟩
  | .coreArrRampWait => ⟨0x1001008, [(7, 0x100000)]⟩
  | .coreArrRamps => ⟨0x100100C, [(7, 0x100000)]⟩
  | .coreArrRowmapA => ⟨0x1001010, [(7, 0x100000)]⟩
  | .coreArrColmapA => ⟨0x1001014, [(7, 0x100000)]⟩
  | .coreArrRowmapB => ⟨0x1001018, [(7, 0x100000)]⟩
  | .coreArrColmapB => ⟨0x100101C, [(7, 0x100000)]⟩
  | .coreArrSpfuse => ⟨0x1001020, [(7, 0x100000)]⟩
  | .coreChdCtl => ⟨0x1004000, [(7, 0x100000), (15, 0x40)]⟩
  | .coreChdOps => ⟨0x1004004, [(7, 0x100000), (15, 0x40)]⟩
  | .coreChdArgs => ⟨0x1004008, [(7, 0x100000), (15, 0x40)]⟩
  | .coreChdOut => ⟨0x100400C, [(7, 0x100000), (15, 0x40)]⟩
  | .coreChdP => ⟨0x1004010, [(7, 0x100000), (15, 0x40), (12, 0x4)]⟩
  | .coreFtabX0 => ⟨0x10043C0, [(7, 0x100000), (4, 0x10)]⟩
  | .coreFtabInvw => ⟨0x10043C4, [(7, 0x100000), (4, 0x10)]⟩
  | .coreFtabEdge => ⟨0x10043C8, [(7, 0x100000), (4, 0x10)]⟩
  | .coreFtabTctl => ⟨0x10043CC, [(7, 0x100000), (4, 0x10)]⟩
  | .coreFtabCoef => ⟨0x1004400, [(7, 0x100000), (4, 0x200), (64, 0x8), (2, 0x4)]⟩
  | .coreWlkFault => ⟨0x1002000, [(7, 0x100000)]⟩
  | .coreWlkFdesc => ⟨0x1002004, [(7, 0x100000)]⟩
  | .coreWlkFaddrLo => ⟨0x1002008, [(7, 0x100000)]⟩
  | .coreWlkFaddrHi => ⟨0x100200C, [(7, 0x100000)]⟩
  | .coreWlkOutst => ⟨0x1002010, [(7, 0x100000)]⟩
  | .coreWlkRdblk => ⟨0x1002014, [(7, 0x100000)]⟩
  | .coreWlkWrblk => ⟨0x1002018, [(7, 0x100000)]⟩
  | .coreWchCtl => ⟨0x1002020, [(7, 0x100000)]⟩
  | .coreWchWin => ⟨0x1002024, [(7, 0x100000)]⟩
  | .coreWchStat => ⟨0x1002028, [(7, 0x100000)]⟩
  | .coreHaloCtl => ⟨0x1003000, [(7, 0x100000)]⟩
  | .coreHaloRdyUp => ⟨0x1003004, [(7, 0x100000)]⟩
  | .coreHaloRdyDn => ⟨0x1003008, [(7, 0x100000)]⟩
  | .coreHaloSpcUp => ⟨0x100300C, [(7, 0x100000)]⟩
  | .coreHaloSpcDn => ⟨0x1003010, [(7, 0x100000)]⟩
  | .coreConvEmpty => ⟨0x1003014, [(7, 0x100000)]⟩
  | .ttCtl => ⟨0x200000, []⟩
  | .ttRingPoll => ⟨0x200004, []⟩
  | .ttTaskStat => ⟨0x200008, []⟩
  | .ttArbCtl => ⟨0x20000C, []⟩
  | .ttBarDev => ⟨0x200010, []⟩
  | .ttCmdBaseLo => ⟨0x200100, [(16, 0x20)]⟩
  | .ttCmdBaseHi => ⟨0x200104, [(16, 0x20)]⟩
  | .ttCplBaseLo => ⟨0x200108, [(16, 0x20)]⟩
  | .ttCplBaseHi => ⟨0x20010C, [(16, 0x20)]⟩
  | .ttRingCfg => ⟨0x200110, [(16, 0x20)]⟩
  | .ttRingIrq => ⟨0x200114, [(16, 0x20)]⟩
  | .ttRingStat => ⟨0x200118, [(16, 0x20)]⟩
  | .ttCnt => ⟨0x200400, [(128, 0x4)]⟩
  | .capTbCtl => ⟨0x4000000, []⟩
  | .capTbNowLo => ⟨0x4000004, []⟩
  | .capTbNowHi => ⟨0x4000008, []⟩
  | .capTbSet => ⟨0x400000C, []⟩
  | .capPortCfg => ⟨0x4000100, [(4, 0x10)]⟩
  | .capPortErr => ⟨0x4000104, [(4, 0x10)]⟩
  | .capVcCfg => ⟨0x4000200, [(16, 0x10)]⟩
  | .capVcStat => ⟨0x4000204, [(16, 0x10)]⟩
  | .capFsyncCfg => ⟨0x4000400, [(4, 0x8)]⟩
  | .capFsyncPer => ⟨0x4000404, [(4, 0x8)]⟩
  | .ispPipeStat => ⟨0x4400000, [(2, 0x10)]⟩
  | .vidEngStat => ⟨0x4800000, [(7, 0x10)]⟩
  | .easelStabLo => ⟨0x5000000, []⟩
  | .easelStabHi => ⟨0x5000004, []⟩
  | .easelAsmBaseLo => ⟨0x5000100, [(16, 0x10)]⟩
  | .easelAsmBaseHi => ⟨0x5000104, [(16, 0x10)]⟩
  | .easelAsmCtl => ⟨0x5000108, [(16, 0x10)]⟩
  | .easelAsmStat => ⟨0x500010C, [(16, 0x10)]⟩
  | .easelGrpCfg => ⟨0x5000200, [(16, 0x4)]⟩
  | .primCtl => ⟨0x5400000, []⟩
  | .primBaseLo => ⟨0x5400004, []⟩
  | .primBaseHi => ⟨0x5400008, []⟩
  | .primStat => ⟨0x540000C, []⟩
  | .memChStat => ⟨0x2000000, [(16, 0x10000)]⟩
  | .memChErr => ⟨0x2000004, [(16, 0x10000)]⟩
  | .memChOdecc => ⟨0x2000008, [(16, 0x10000)]⟩
  | .memChRh => ⟨0x200000C, [(16, 0x10000)]⟩
  | .memChRepair => ⟨0x2000010, [(16, 0x10000)]⟩
  | .memChPpr => ⟨0x2000014, [(16, 0x10000)]⟩
  | .memGctl => ⟨0x2008000, []⟩
  | .memRdCtl => ⟨0x2008004, []⟩
  | .memMap => ⟨0x2008010, [(9, 0x4)]⟩
  | .memRtThr => ⟨0x2008080, [(13, 0x4)]⟩
  | .chnCfg => ⟨0x7800000, []⟩
  | .chnStat => ⟨0x7800004, []⟩
  | .chnTime => ⟨0x7800008, []⟩
  | .lnkCtl => ⟨0x3000000, [(4, 0x10000)]⟩
  | .lnkStat => ⟨0x3000004, [(4, 0x10000)]⟩
  | .lnkErr => ⟨0x3000008, [(4, 0x10000)]⟩
  | .lnkLaneerr => ⟨0x300000C, [(4, 0x10000)]⟩
  | .lnkFabCtl => ⟨0x3008000, []⟩
  | .lnkMboxStat => ⟨0x3008010, []⟩
  | .lnkRoute => ⟨0x3008400, [(192, 0x4)]⟩
  | .pwrCap => ⟨0x100000, []⟩
  | .pwrLease => ⟨0x100004, []⟩
  | .pwrSkip => ⟨0x100008, []⟩
  | .pwrDvfs => ⟨0x10000C, []⟩
  | .pwrSupply => ⟨0x100010, []⟩
  | .pwrDroop => ⟨0x100014, []⟩
  | .pwrStretch => ⟨0x100018, []⟩
  | .pwrSlotFloor => ⟨0x10001C, []⟩
  | .telPwr => ⟨0x7000000, []⟩
  | .telTherm => ⟨0x7000004, []⟩
  | .telEjob => ⟨0x7000008, []⟩
  | .telEnergy => ⟨0x700000C, []⟩
  | .telRcard => ⟨0x7000010, []⟩
  | .telTs => ⟨0x7000100, [(16, 0x4)]⟩
  | .pciBar2Base => ⟨0x3800000, []⟩
  | .pciBar4Core => ⟨0x3800004, []⟩
  | .pciErr => ⟨0x3800008, []⟩
  | .pciSvcCmdLo => ⟨0x3800010, []⟩
  | .pciSvcCmdHi => ⟨0x3800014, []⟩
  | .pciSvcRspLo => ⟨0x3800018, []⟩
  | .pciSvcRspHi => ⟨0x380001C, []⟩
  | .pciSvcCfg => ⟨0x3800020, []⟩
  | .secBoot => ⟨0x6000000, []⟩
  | .secState => ⟨0x6000004, []⟩
  | .secReset => ⟨0x6000008, []⟩
  | .secRecovery => ⟨0x600000C, []⟩

/-- The fields of each register with their access types, high bit first; every other bit is reserved (R16). -/
def Reg.fields : Reg → List (Nat × Nat × Access)
  | .sysId => [(31, 16, .ro), (15, 8, .ro), (7, 0, .ro)]
  | .sysLock => [(0, 0, .w1s)]
  | .sysCoreMap => [(31, 28, .ro), (20, 18, .ro), (17, 15, .ro), (14, 12, .ro), (11, 9, .ro), (8, 6, .ro), (5, 3, .ro), (2, 0, .ro)]
  | .coreState => [(31, 20, .ro), (15, 12, .ro), (2, 0, .ro)]
  | .coreTask => [(31, 16, .ro), (9, 0, .ro)]
  | .coreExc => [(31, 20, .ro), (18, 11, .ro), (10, 8, .ro), (7, 0, .ro)]
  | .coreCyclesLo => [(31, 0, .ro)]
  | .coreCyclesHi => [(31, 0, .ro)]
  | .coreStallWait => [(31, 0, .ro)]
  | .coreStallIssue => [(31, 0, .ro)]
  | .coreArrState => [(13, 12, .ro), (11, 8, .ro), (5, 4, .ro), (3, 0, .ro)]
  | .coreArrIdle => [(15, 0, .rw)]
  | .coreArrRampWait => [(31, 0, .ro)]
  | .coreArrRamps => [(31, 16, .ro), (15, 0, .ro)]
  | .coreArrRowmapA => [(31, 31, .rw), (30, 24, .rw), (23, 23, .rw), (22, 16, .rw), (15, 15, .rw), (14, 8, .rw), (7, 7, .rw), (6, 0, .rw)]
  | .coreArrColmapA => [(31, 31, .rw), (30, 24, .rw), (23, 23, .rw), (22, 16, .rw), (15, 15, .rw), (14, 8, .rw), (7, 7, .rw), (6, 0, .rw)]
  | .coreArrRowmapB => [(31, 31, .rw), (30, 24, .rw), (23, 23, .rw), (22, 16, .rw), (15, 15, .rw), (14, 8, .rw), (7, 7, .rw), (6, 0, .rw)]
  | .coreArrColmapB => [(31, 31, .rw), (30, 24, .rw), (23, 23, .rw), (22, 16, .rw), (15, 15, .rw), (14, 8, .rw), (7, 7, .rw), (6, 0, .rw)]
  | .coreArrSpfuse => [(15, 12, .ro), (11, 8, .ro), (7, 4, .ro), (3, 0, .ro)]
  | .coreChdCtl => [(31, 31, .rw), (30, 30, .rw), (29, 29, .rw), (28, 28, .rw), (27, 24, .rw), (23, 17, .rw), (16, 15, .rw)]
  | .coreChdOps => [(23, 0, .rw)]
  | .coreChdArgs => [(23, 0, .rw)]
  | .coreChdOut => [(15, 8, .rw), (7, 0, .rw)]
  | .coreChdP => [(31, 0, .rw)]
  | .coreFtabX0 => [(31, 0, .rw)]
  | .coreFtabInvw => [(31, 0, .rw)]
  | .coreFtabEdge => [(31, 16, .rw), (15, 0, .rw)]
  | .coreFtabTctl => [(31, 31, .rw), (1, 1, .rw), (0, 0, .rw)]
  | .coreFtabCoef => [(31, 16, .rw), (15, 0, .rw)]
  | .coreWlkFault => [(31, 24, .ro), (23, 22, .ro), (21, 20, .ro), (19, 19, .ro), (11, 0, .ro)]
  | .coreWlkFdesc => [(31, 31, .ro), (22, 0, .ro)]
  | .coreWlkFaddrLo => [(31, 0, .ro)]
  | .coreWlkFaddrHi => [(23, 0, .ro)]
  | .coreWlkOutst => [(11, 8, .ro), (7, 4, .ro), (3, 0, .ro)]
  | .coreWlkRdblk => [(31, 0, .ro)]
  | .coreWlkWrblk => [(31, 0, .ro)]
  | .coreWchCtl => [(7, 7, .rw), (2, 0, .rw)]
  | .coreWchWin => [(25, 16, .rw), (9, 0, .rw)]
  | .coreWchStat => [(31, 16, .ro), (15, 0, .ro)]
  | .coreHaloCtl => [(31, 31, .rw), (30, 30, .wo), (23, 18, .rw), (17, 12, .rw), (11, 6, .rw), (5, 0, .rw)]
  | .coreHaloRdyUp => [(31, 0, .ro)]
  | .coreHaloRdyDn => [(31, 0, .ro)]
  | .coreHaloSpcUp => [(31, 0, .ro)]
  | .coreHaloSpcDn => [(31, 0, .ro)]
  | .coreConvEmpty => [(15, 0, .ro)]
  | .ttCtl => [(0, 0, .rw)]
  | .ttRingPoll => [(6, 0, .rw)]
  | .ttTaskStat => [(26, 16, .ro), (10, 0, .ro)]
  | .ttArbCtl => [(2, 2, .rwl), (1, 1, .rwl), (0, 0, .rwl)]
  | .ttBarDev => [(31, 31, .rw), (5, 0, .rw)]
  | .ttCmdBaseLo => [(31, 6, .rw)]
  | .ttCmdBaseHi => [(31, 0, .rw)]
  | .ttCplBaseLo => [(31, 6, .rw)]
  | .ttCplBaseHi => [(31, 0, .rw)]
  | .ttRingCfg => [(31, 31, .rw), (30, 30, .rw), (23, 20, .rw), (19, 16, .rw)]
  | .ttRingIrq => [(31, 31, .rw), (21, 16, .rw), (15, 8, .rw), (7, 0, .rw)]
  | .ttRingStat => [(31, 31, .w1c), (30, 30, .ro), (29, 29, .ro), (28, 28, .ro), (27, 16, .ro), (11, 0, .ro)]
  | .ttCnt => [(23, 0, .rw)]
  | .capTbCtl => [(31, 31, .ro), (30, 30, .ro), (15, 8, .ro), (2, 2, .w1s), (1, 0, .rw)]
  | .capTbNowLo => [(31, 0, .ro)]
  | .capTbNowHi => [(31, 0, .ro)]
  | .capTbSet => [(31, 0, .rw)]
  | .capPortCfg => [(31, 31, .rw), (17, 16, .rw), (12, 0, .rw)]
  | .capPortErr => [(31, 31, .wo), (30, 30, .w1c), (23, 16, .ro), (15, 8, .ro), (7, 0, .ro)]
  | .capVcCfg => [(31, 31, .rw), (30, 29, .rw), (28, 28, .rw), (27, 27, .rw), (26, 24, .rw), (23, 20, .rw), (19, 14, .rw)]
  | .capVcStat => [(31, 31, .wo), (30, 30, .ro), (23, 12, .ro), (11, 0, .ro)]
  | .capFsyncCfg => [(31, 31, .rw), (30, 30, .rw), (29, 29, .rw), (21, 10, .rw), (9, 0, .rw)]
  | .capFsyncPer => [(19, 0, .rw)]
  | .ispPipeStat => [(27, 24, .ro), (23, 16, .ro), (15, 0, .ro)]
  | .vidEngStat => [(31, 24, .ro), (23, 16, .ro), (15, 0, .ro)]
  | .easelStabLo => [(31, 5, .rw)]
  | .easelStabHi => [(15, 0, .rw)]
  | .easelAsmBaseLo => [(31, 7, .rw)]
  | .easelAsmBaseHi => [(15, 0, .rw)]
  | .easelAsmCtl => [(31, 31, .rw), (30, 30, .w1c), (29, 29, .wo)]
  | .easelAsmStat => [(31, 24, .ro), (23, 16, .ro), (15, 0, .ro)]
  | .easelGrpCfg => [(31, 31, .rw), (18, 16, .rw), (15, 0, .rw)]
  | .primCtl => [(31, 31, .rw), (30, 30, .w1c)]
  | .primBaseLo => [(31, 6, .rw)]
  | .primBaseHi => [(15, 0, .rw)]
  | .primStat => [(31, 16, .ro), (15, 0, .ro)]
  | .memChStat => [(31, 29, .ro), (28, 28, .ro), (14, 8, .ro), (6, 0, .ro)]
  | .memChErr => [(31, 31, .wo), (23, 16, .ro), (15, 8, .ro), (7, 0, .ro)]
  | .memChOdecc => [(31, 0, .ro)]
  | .memChRh => [(31, 16, .ro), (15, 0, .ro)]
  | .memChRepair => [(22, 16, .ro), (14, 8, .ro), (6, 0, .ro)]
  | .memChPpr => [(31, 31, .w1s), (30, 30, .w1c), (29, 29, .w1c), (24, 24, .rw), (23, 20, .rw), (13, 0, .rw)]
  | .memGctl => [(31, 31, .w1s), (30, 30, .w1c), (1, 1, .rw), (0, 0, .rwl)]
  | .memRdCtl => [(31, 31, .rwl), (30, 30, .rwl), (27, 24, .rwl), (23, 16, .rwl), (15, 0, .rwl)]
  | .memMap => [(29, 25, .rw), (24, 20, .rw), (19, 15, .rw), (14, 10, .rw), (9, 5, .rw), (4, 0, .rw)]
  | .memRtThr => [(31, 31, .rw), (30, 30, .ro), (15, 8, .ro), (5, 0, .rw)]
  | .chnCfg => [(15, 8, .rw), (7, 0, .rw)]
  | .chnStat => [(31, 29, .ro), (28, 28, .ro), (27, 27, .ro), (26, 26, .w1c), (25, 25, .ro), (24, 24, .ro), (23, 23, .w1c), (22, 22, .ro), (21, 16, .ro), (15, 8, .ro), (7, 0, .ro)]
  | .chnTime => [(31, 0, .ro)]
  | .lnkCtl => [(31, 31, .rw), (30, 30, .w1s), (29, 29, .rw), (28, 28, .rw), (23, 16, .rw)]
  | .lnkStat => [(31, 29, .ro), (28, 26, .ro), (25, 23, .ro), (22, 21, .ro), (20, 13, .ro), (9, 0, .ro)]
  | .lnkErr => [(31, 31, .wo), (23, 16, .ro), (15, 0, .ro)]
  | .lnkLaneerr => [(31, 24, .ro), (23, 16, .ro), (15, 8, .ro), (7, 0, .ro)]
  | .lnkFabCtl => [(31, 31, .rw), (30, 30, .rwl), (10, 8, .rw), (3, 0, .rw)]
  | .lnkMboxStat => [(23, 16, .ro), (6, 0, .ro)]
  | .lnkRoute => [(31, 31, .rw), (2, 0, .rw)]
  | .pwrCap => [(31, 24, .ro), (20, 16, .rw), (15, 15, .ro), (7, 0, .rw)]
  | .pwrLease => [(31, 31, .rw), (30, 30, .ro), (29, 29, .w1c), (15, 8, .rw), (7, 0, .rw)]
  | .pwrSkip => [(21, 20, .ro), (19, 16, .ro), (15, 12, .ro), (11, 8, .ro), (7, 4, .ro), (3, 0, .rw)]
  | .pwrDvfs => [(31, 31, .w1s), (30, 30, .ro), (29, 28, .rw), (27, 26, .ro), (15, 8, .ro), (4, 0, .ro)]
  | .pwrSupply => [(31, 30, .ro), (15, 0, .ro)]
  | .pwrDroop => [(3, 0, .rwl)]
  | .pwrStretch => [(31, 0, .ro)]
  | .pwrSlotFloor => [(27, 0, .rw)]
  | .telPwr => [(31, 16, .ro), (15, 0, .ro)]
  | .telTherm => [(31, 31, .ro), (19, 16, .ro), (15, 0, .ro)]
  | .telEjob => [(31, 31, .rw), (28, 0, .rw)]
  | .telEnergy => [(31, 0, .ro)]
  | .telRcard => [(31, 31, .ro), (15, 12, .ro), (11, 8, .ro), (7, 4, .ro), (3, 0, .ro)]
  | .telTs => [(15, 0, .ro)]
  | .pciBar2Base => [(5, 0, .rw)]
  | .pciBar4Core => [(2, 0, .rw)]
  | .pciErr => [(31, 31, .wo), (23, 16, .ro), (15, 8, .ro), (7, 0, .ro)]
  | .pciSvcCmdLo => [(31, 6, .rw)]
  | .pciSvcCmdHi => [(31, 0, .rw)]
  | .pciSvcRspLo => [(31, 5, .rw)]
  | .pciSvcRspHi => [(31, 0, .rw)]
  | .pciSvcCfg => [(31, 31, .rw), (30, 30, .rw), (29, 29, .rw), (28, 28, .w1c), (21, 16, .rw), (11, 8, .rw), (7, 4, .rw)]
  | .secBoot => [(31, 29, .ro), (28, 28, .ro), (27, 27, .ro), (23, 20, .ro), (19, 16, .ro), (15, 8, .ro), (7, 0, .ro)]
  | .secState => [(31, 31, .ro), (30, 30, .ro), (26, 24, .ro), (23, 16, .ro), (6, 0, .ro)]
  | .secReset => [(19, 16, .ro), (15, 0, .ro)]
  | .secRecovery => [(31, 31, .w1s), (23, 0, .rw)]

/-- The reset value the register table states as one number; `Reg.resetAt` has those that depend on the instance
or the fuses. -/
def Reg.reset : Reg → W32
  | .sysCoreMap => 0x001AC688#32
  | .coreArrIdle => 0x00000400#32
  | .coreWchCtl => 0x00000007#32
  | .ttRingPoll => 0x00000004#32
  | .ttTaskStat => 0x04000000#32
  | .ttBarDev => 0x8000003F#32
  | .capVcCfg => 0x04000000#32
  | .capFsyncCfg => 0x00000064#32
  | .capFsyncPer => 0x00008235#32
  | .memGctl => 0x00000002#32
  | .memRdCtl => 0xC8141000#32
  | .memRtThr => 0x80000010#32
  | .chnCfg => 0x00000A01#32
  | .chnTime => 0xFFFFFFFF#32
  | .lnkCtl => 0x00100000#32
  | .pwrCap => 0x4B08004B#32
  | .pwrLease => 0x00001400#32
  | .pwrDvfs => 0x3C000000#32
  | .pwrDroop => 0x00000005#32
  | _ => 0#32

/-- Every register, in the order of the spec's files. -/
def Reg.all : List Reg :=
  [.sysId, .sysLock, .sysCoreMap, .coreState, .coreTask, .coreExc, .coreCyclesLo, .coreCyclesHi, .coreStallWait, .coreStallIssue, .coreArrState, .coreArrIdle, .coreArrRampWait, .coreArrRamps, .coreArrRowmapA, .coreArrColmapA, .coreArrRowmapB, .coreArrColmapB, .coreArrSpfuse, .coreChdCtl, .coreChdOps, .coreChdArgs, .coreChdOut, .coreChdP, .coreFtabX0, .coreFtabInvw, .coreFtabEdge, .coreFtabTctl, .coreFtabCoef, .coreWlkFault, .coreWlkFdesc, .coreWlkFaddrLo] ++
  [.coreWlkFaddrHi, .coreWlkOutst, .coreWlkRdblk, .coreWlkWrblk, .coreWchCtl, .coreWchWin, .coreWchStat, .coreHaloCtl, .coreHaloRdyUp, .coreHaloRdyDn, .coreHaloSpcUp, .coreHaloSpcDn, .coreConvEmpty, .ttCtl, .ttRingPoll, .ttTaskStat, .ttArbCtl, .ttBarDev, .ttCmdBaseLo, .ttCmdBaseHi, .ttCplBaseLo, .ttCplBaseHi, .ttRingCfg, .ttRingIrq, .ttRingStat, .ttCnt, .capTbCtl, .capTbNowLo, .capTbNowHi, .capTbSet, .capPortCfg, .capPortErr] ++
  [.capVcCfg, .capVcStat, .capFsyncCfg, .capFsyncPer, .ispPipeStat, .vidEngStat, .easelStabLo, .easelStabHi, .easelAsmBaseLo, .easelAsmBaseHi, .easelAsmCtl, .easelAsmStat, .easelGrpCfg, .primCtl, .primBaseLo, .primBaseHi, .primStat, .memChStat, .memChErr, .memChOdecc, .memChRh, .memChRepair, .memChPpr, .memGctl, .memRdCtl, .memMap, .memRtThr, .chnCfg, .chnStat, .chnTime, .lnkCtl, .lnkStat] ++
  [.lnkErr, .lnkLaneerr, .lnkFabCtl, .lnkMboxStat, .lnkRoute, .pwrCap, .pwrLease, .pwrSkip, .pwrDvfs, .pwrSupply, .pwrDroop, .pwrStretch, .pwrSlotFloor, .telPwr, .telTherm, .telEjob, .telEnergy, .telRcard, .telTs, .pciBar2Base, .pciBar4Core, .pciErr, .pciSvcCmdLo, .pciSvcCmdHi, .pciSvcRspLo, .pciSvcRspHi, .pciSvcCfg, .secBoot, .secState, .secReset, .secRecovery]

/-- The offset of a register's instance from 0x000E_0000_0000. -/
def regOff (r : Reg) (idx : List Nat) : Nat :=
  r.place.base + ((r.place.dims.zip idx).map (fun e => e.1.2 * e.2)).foldl (· + ·) 0

/-- The indices of the instance `x` bytes above a register's first one, if there is one. -/
def regIdx : List (Nat × Nat) → Nat → Option (List Nat)
  | [], x => if x = 0 then some [] else none
  | (n, st) :: r, x =>
    if x / st < n then (regIdx r (x % st)).map (x / st :: ·) else none

/-- The register at an offset, first match in a list (R17: none where the offset holds no register). -/
def regFind (off : Nat) : List Reg → Option (Reg × List Nat)
  | [] => none
  | r :: rest =>
    if r.place.base ≤ off then
      match regIdx r.place.dims (off - r.place.base) with
      | some is => some (r, is)
      | none => regFind off rest
    else regFind off rest

/-- The register at an offset from 0x000E_0000_0000. -/
def regAt (off : Nat) : Option (Reg × List Nat) := regFind off Reg.all

end Sys2Proof.Machine
end

