-- ==== Sys2Proof/Machine/State.lean ====
section
/-! DEFINITION. The state of the block, as plain data: every register, memory, queue, counter and mode the spec gives
the device, and the queue of commands waiting. INVENTORY.md lists each piece with its rule and reset value. -/

namespace Sys2Proof.Machine

/-- Where a command acts on a part the block does not have. The model raises no fault: every row of the table has an
effect, so this constructor stands for the interface alone. Safe: nothing answers it. -/
inductive Fault where
  | absentUnit
deriving DecidableEq, Repr

/-- Why a command is not run. `notModelled` stands in the refused arms of `exec` alone: safe, the run stops there. -/
inductive Refusal where
  | notModelled (mnemonic : String)
deriving DecidableEq, Repr

/-- What the fuses and the stack's repair record hold (R1, R39, R152, R338, R451); they never change but for the owner
and the rollback counter. The values at reset are a DESIGN CHOICE (log 3). -/
structure Fuses where
  grade : Byte := 0#8
  stepping : Byte := 1#8
  badSlot : Option (Fin 7) := none
  rowmapA : List W32 := []
  colmapA : List W32 := []
  rowmapB : List W32 := []
  colmapB : List W32 := []
  spfuse : List W32 := []
  hardRepair : List (Nat × Nat × Nat × Nat) := []
  vdbg : Bool := false
  owned : Bool := false
  ownerKey : List Byte := []
  vendorKey : List Byte := []
  rollback : Nat := 0
  vfac : List Nat := [800, 750, 700, 620]
  uds : List Byte := []
  serial : List Byte := []
  cert : List Byte := []
deriving DecidableEq, Repr

/-- Byte-addressed memory: the bytes that differ from 0, and the ranges whose contents the spec calls undefined
(first byte, byte after the last, the event that left it so). -/
structure Memory where
  cells : Sparse Byte := []
  undef : List (Nat × Nat × Nat) := []
deriving DecidableEq, Repr

/-- The STATE field of CORE_STATE (R125). -/
inductive CoreMode where
  | idle | running | aborting | standby | selfTest | fusedOff | rerun
deriving DecidableEq, Repr

/-- A weight plane with its format, group size code and scale stream (R130-R135); `fmt` none is a zeroed plane.
Lines are the 128-byte lines of the plane and of the scale stream as they lie in the Satchel. -/
structure Plane where
  fmt : Option Nat := none
  gsize : Nat := 0
  lines : Sparse W1024 := []
  scales : Sparse W1024 := []
deriving DecidableEq, Repr

/-- An accumulator plane's tag (R137). -/
inductive Tag where
  | none | integer | float | grouped
deriving DecidableEq, Repr

/-- A queued or running MLOAD (R130, R133); `got` is the plane it has taken, for a chain MLOAD; `t0` the core cycle it
started in. -/
structure LoadOp where
  addr : Nat
  fmt : Nat
  gsize : Nat
  saddr : Nat
  chain : Bool
  flag : Option Nat
  seq : Nat
  got : Option Plane := none
  t0 : Nat := 0
deriving DecidableEq, Repr

/-- A queued MRUN (R107, R131); `norm` is the tally its prologue reads, `pair` says that it breaks or uses the pair. -/
structure RunOp where
  plane : Nat
  addr : Nat
  count : Nat
  first : Nat
  mode : Nat
  axis : Bool
  fmt : Nat
  clr : Bool
  flag : Option Nat
  mask : W128
  stride : Nat
  chain : Nat
  azp : Nat
  pair : Bool
  seq : Nat
deriving DecidableEq, Repr

/-- An MRUN that has started: its plane, its operand vectors, the flags of its prologue, the core cycle it started in, the
cycles from there to the entry of its first vector and from one vector to the next, and the Satchel bytes its prologue's
parameter vectors lie in (R131, R170). -/
structure RunJob where
  op : RunOp
  w : Plane
  xs : List (List Nat)
  fl : BitVec 8
  t0 : Nat := 0
  lead : Nat := 0
  pitch : Nat := 1
  vecs : List (Nat × Nat) := []
deriving DecidableEq, Repr

/-- A queued MEPI (R107, R164, R166) with its plane's tag at issue. -/
structure EpiOp where
  plane : Nat
  addr : Nat
  count : Nat
  first : Nat
  flag : Option Nat
  stride : Nat
  chain : Nat
  tag : Tag
  seq : Nat
deriving DecidableEq, Repr

/-- An MEPI that has started: the accumulator rows it read (low and high halves), the class scales (R139, R140), the core
cycle it started in (moved on with every cycle it is stalled), the bytes of an output row, the residual rows it reads (first
address, distance and bytes of a row) and the Satchel bytes of its vectors and records (R106, R164, R166). -/
structure EpiJob where
  op : EpiOp
  lo : Sparse AccRow
  hi : Sparse AccRow
  latch : BitVec 2048
  t0 : Nat := 0
  width : Nat := 512
  resid : List (Nat × Nat × Nat) := []
  vecs : List (Nat × Nat) := []
deriving DecidableEq, Repr

/-- An entry of an array's queue (R109). -/
inductive MOp where
  | load (o : LoadOp)
  | swap (flag : Option Nat) (seq : Nat)
  | run (o : RunOp)
  | epi (o : EpiOp)
  | clr (plane : Nat) (pair : Bool) (flag : Option Nat) (seq : Nat)
deriving DecidableEq, Repr

/-- Power of a matrix array (R152-R154). -/
inductive ArrPwr where
  | gated | up | on | down
deriving DecidableEq, Repr

/-- One matrix array. -/
structure ArrSt where
  active : Plane := {}
  shadow : Plane := {}
  queue : List MOp := []
  loading : Option LoadOp := none
  runs : List RunJob := []
  epis : List EpiJob := []
  acc0 : Sparse AccRow := []
  acc1 : Sparse AccRow := []
  tag0 : Tag := .none
  tag1 : Tag := .none
  latch : BitVec 2048 := 0#2048
  pwr : ArrPwr := .gated
  step : Nat := 0
  idle : Nat := 0
  waitsGrant : Bool := false
deriving DecidableEq, Repr

/-- A register of a core that a bundle writes (R92): scalar, vector or mask. -/
inductive RegRef where
  | s (n : Nat)
  | v (n : Nat)
  | m (n : Nat)
deriving DecidableEq, Repr

/-- A division in flight: destination and the value it will write (R118, R121). -/
structure DivOp where
  dest : Nat
  val : W64
deriving DecidableEq, Repr

/-- The data atomics and the watch (R110). -/
inductive AtomKind where
  | take | aadd | ald | ast | acas
deriving DecidableEq, Repr

/-- A data atomic in flight (R87, R110, R258). -/
structure AtomOp where
  kind : AtomKind
  off : Nat
  arg : W64
  expect : W64
  dest : Nat
  tag : Nat
  result : Option W64 := none
deriving DecidableEq, Repr

/-- An outstanding AWATCH (R110). -/
structure Watch where
  off : Nat
  thr : W64
  flag : Nat
deriving DecidableEq, Repr

/-- A walker transfer (R183, R196): the copied descriptor (16 words, 32 with its extension), where it came from, the
index argument, PADV, class, flag, and its progress. `remote` where it waits for another device, `mdev` the device its
tensor lies on (none: this one), `sent` the requests not yet answered (tag, fabric address), `got` the far bytes that came
back by fabric address, `wrote` once a remote write has sent its WRITEs. -/
structure Xfer where
  words : List W32
  dsrc : Bool
  descAt : Nat
  idx : W64
  padv : W32
  cls : Nat
  flag : Option Nat
  released : Bool := true
  reissue : Bool := false
  started : Bool := false
  empty : Bool := false
  base : Nat := 0
  tile : Nat := 0
  remote : Bool := false
  sent : List (Nat × Nat) := []
  got : List (Nat × Byte) := []
  accepted : Bool := false
  mdev : Option Nat := none
  wrote : Bool := false
deriving DecidableEq, Repr

/-- A recorded descriptor of the checkpoint (R84): walker and transfer. -/
structure CkDesc where
  walker : Nat
  xfer : Xfer
deriving DecidableEq, Repr

/-- The checkpoint (R84, R404). -/
structure Ckpt where
  pc : Nat := 0
  sregs : Sparse W64 := []
  mregs : Sparse W128 := []
  tally : Sparse W32 := []
  flags : BitVec 64 := 0#64
  padv : W32 := 0#32
  azp : Byte := 0#8
  tiles : Nat := 0
  tagctr : Nat := 0
  nflags : BitVec 8 := 0#8
  resident : List CkDesc := []
  next : List CkDesc := []
  pendingWr : List Xfer := []
deriving DecidableEq, Repr

/-- A register write held until the core leaves its task (R151, R160, R207, R238): offset and value. -/
abbrev HeldWrite := Nat × W32

/-- One physical core slot. -/
structure CoreSt where
  mode : CoreMode := .idle
  pc : Nat := 0
  /-- Where control goes after the delay-slot bundle at `pc` (R114). -/
  delay : Option Nat := none
  sregs : Sparse W64 := []
  vregs : Sparse W1024 := []
  mregs : Sparse W128 := []
  tally : Sparse W32 := []
  flags : BitVec 64 := 0#64
  padv : W32 := 0#32
  azp : Byte := 0#8
  tiles : Nat := 0
  tagctr : Nat := 0
  nflags : BitVec 8 := 0#8
  /-- Flags of earlier executions of the tile (R80). -/
  nfUnion : BitVec 8 := 0#8
  jobId : Nat := 0
  entry : Nat := 0
  /-- s3 of the task: it was started with a pointer list (R193). -/
  plTask : Bool := false
  plAddr : Nat := 0
  plLen : Nat := 0
  cyc : Nat := 0
  tileCyc : Nat := 0
  totCyc : Nat := 0
  div0 : Option DivOp := none
  div1 : Option DivOp := none
  arrA : ArrSt := {}
  arrB : ArrSt := {}
  mseq : Nat := 0
  wk0 : List Xfer := []
  wk1 : List Xfer := []
  wk2 : List Xfer := []
  atomics : List AtomOp := []
  watches : List Watch := []
  nAtomics : Nat := 0
  resident : List CkDesc := []
  nextDescs : List CkDesc := []
  ckpt : Ckpt := {}
  /-- The END has been executed, or an abort is under way, with this aborting status (R89, R123). -/
  ended : Bool := false
  abort : Option Byte := none
  wlkFault : Bool := false
  /-- Informational codes of the task other than those the flag byte shows (R420). -/
  replayed : Bool := false
  parity : Bool := false
  taken : Bool := false
  emptyOut : Bool := false
  /-- A word read through the repair port in a takeover failed its check: the status is POISONED (R404). -/
  carryBad : Bool := false
  held : List HeldWrite := []
  /-- BARRIERs passed in this tile, and how many of them had been released before a re-run (R255). -/
  barIdx : Nat := 0
  barDone : Nat := 0
  /-- The slot number its atomics carry in their key (R258). -/
  keySlot : Nat := 0
  /-- Pulse skipping: position in the frame, the skip in force, the largest of the sources but brace as last applied,
  stretching (1 the next delivered position is stretched, 2 its first period has passed), clock stopped (R371-R373,
  R380, R400). -/
  pos : Nat := 0
  skip : Nat := 0
  skipOther : Nat := 0
  stretch : Nat := 0
  stopped : Bool := false
  /-- A droop detector of the slot trips (R373). -/
  droop : Bool := false
  /-- Job IDs the slot has run tasks of since the last energy tick, in order (R390). -/
  jobs : List Nat := []
  /-- Registers with a write pending, each with the core cycles left before a dependent bundle can issue (R118, R121). -/
  pend : List (RegRef × Nat) := []
  /-- The bundle has stalled for a bank that both its L slots want, and retries (R106). -/
  bankRetry : Bool := false
  /-- A re-run is restoring its Satchel and descriptors (R85, steps 2-4). -/
  reloading : Bool := false
  /-- Frozen by the first step of a takeover (R403). -/
  frozen : Bool := false
  /-- The takeover whose re-run the slot runs and that is still to be reported: the failed slot, the capture timebase at
  detection (R403 step 6, R418). -/
  takenAt : Option (Nat × Nat) := none
deriving DecidableEq, Repr

/-- Where a fetched command stands (R245-R249). -/
inductive EPhase where
  | waiting | running | finished
deriving DecidableEq, Repr

/-- How an instance of a task ended: its logical core, its status, its flag byte (R250). -/
structure InstEnd where
  core : Nat
  status : Byte
  nflags : BitVec 8
deriving DecidableEq, Repr

/-- A task entry (R243, R245). -/
structure TEntry where
  seq : Nat
  ring : Nat
  op : Nat
  jobId : Nat
  tag : Nat
  cores : Nat
  cls : Nat
  spread : Bool
  pl : Bool
  cpl : Bool
  irq : Bool
  start : Nat
  signal : Option Nat
  waits : List (Nat × Nat)
  arg0 : Nat
  arg1 : Nat
  cfg : Nat
  phase : EPhase := .waiting
  live : List Nat := []
  ran : Nat := 0
  ends : List InstEnd := []
  status : Byte := 0#8
  nflags : BitVec 8 := 0#8
  done : Nat := 0
  written : Bool := false
deriving DecidableEq, Repr

/-- The hardware side of one ring pair (R240-R242, R251). -/
structure RingSt where
  cmdIdx : Nat := 0
  cplIdx : Nat := 0
  cmdPh : Bool := false
  cplPh : Bool := false
  fetched : Nat := 0
  written : Nat := 0
  consumed : Nat := 0
  unsig : Nat := 0
  timer : Bool := false
deriving DecidableEq, Repr

/-- The Timetable unit (R239-R251): task entries by index, records fetched and not yet entered, the finished entries
in completion order. -/
structure TTSt where
  entries : List (Nat × TEntry) := []
  fetchSeq : Nat := 0
  fetched : List (Nat × List Byte) := []
  finish : List Nat := []
  /-- SPREAD entries that hold their idle cores until they start (R247). -/
  holding : List Nat := []
  rings : Vector RingSt 16 := Vector.replicate 16 {}
deriving DecidableEq, Repr

/-- An arrival at a barrier (R252): level, identifier, physical slot, task entry; `held` while a dismissal holds its
release (R254), `released` once the slot may pass. -/
structure BarArr where
  level : Nat
  id : Nat
  slot : Nat
  entry : Nat
  held : Bool := false
  released : Bool := false
deriving DecidableEq, Repr

/-- Barriers (R252-R255, R364). -/
structure BarSt where
  arr : List BarArr := []
  /-- System barriers: (identifier, link port) of child arrivals. -/
  child : List (Nat × Nat) := []
  /-- System barriers whose combined arrival has gone to the parent. -/
  sentUp : List Nat := []
  /-- System barriers whose release has arrived and is held (R254). -/
  hold : List Nat := []
  /-- The staged write of TT_BAR_DEV.MASK (R268). -/
  stage : Option Nat := none
deriving DecidableEq, Repr

/-- A record of a performed data atomic (R258): the key and the result. -/
structure AtomRec where
  dev : Nat
  slot : Nat
  tag : Nat
  result : W64
deriving DecidableEq, Repr

/-- Commons (R257-R259): the records of the local slots and of remote requesters (oldest first), the reservations of
the staff cores (hart, granule). -/
structure ComSt where
  recs : List (Nat × Nat × AtomRec) := []
  remote : List AtomRec := []
  resv : List (Nat × Nat) := []
deriving DecidableEq, Repr

/-- An event record (R418). -/
structure EvRec where
  code : Nat
  unit : Nat
  index : Nat
  count : Nat
  ts : Nat
  addr : Nat
  detail : Nat
deriving DecidableEq, Repr

/-- A record later events may merge into: the record, when it was made (ns since reset), its place in the event ring. -/
structure OpenEv where
  ev : EvRec
  first : Nat
  place : Option Nat
deriving DecidableEq, Repr

/-- A takeover under way (R403): the failed slot, the slot that takes over, the logical core, the capture timebase at
detection; `remapped` after step 3. -/
structure Takeover where
  bad : Nat
  good : Nat
  lc : Nat
  ts : Nat := 0
  remapped : Bool := false
  /-- Satchel words of the failed slot that failed their check (R404). -/
  words : List Nat := []
deriving DecidableEq, Repr

/-- A test request that waits (R413): kind, argument (the physical slot of a SLOT test), response tag; `passed` once a
rotation step for it has been skipped (R409). -/
structure TestReq where
  kind : Nat
  arg : Nat
  tag : Nat
  passed : Bool := false
deriving DecidableEq, Repr

/-- A record read from a recording (R421): KIND, SEQ, timebase, payload, address of the payload. -/
structure RecEnt where
  kind : Nat
  seq : Nat
  ts : Nat
  data : List Byte
  at_ : Nat
deriving DecidableEq, Repr

/-- A re-run (R422): the request's tag, the records not yet presented, the RECIPE records not yet used, whether the
re-run has ended. -/
structure MarioSt where
  tag : Nat
  left : List RecEnt
  recipes : List RecEnt
  ended : Bool := false
deriving DecidableEq, Repr

/-- Faults, spares, rotation, Recess, the event log and the recorder (R398-R422). -/
structure FltSt where
  rotS : Nat := 600
  /-- The first fault block has been accepted (R417). -/
  block : Bool := false
  /-- Event ring: base and log2 size. -/
  evRing : Option (Nat × Nat) := none
  evIdx : Nat := 0
  evPh : Bool := true
  evCount : Nat := 0
  evLost : Nat := 0
  held : List EvRec := []
  heldLost : Nat := 0
  recent : List OpenEv := []
  /-- Recorder (R421): enable, images, trigger, ring, position, SEQ, records left after a trigger, stopped. -/
  recEn : Bool := false
  recImages : Bool := false
  recTrig : Nat := 0
  recBase : Nat := 0
  recLen : Nat := 0
  recPost : Nat := 0
  recPos : Nat := 0
  recSeq : Nat := 0
  recLeft : Option Nat := none
  /-- Backed ranges of Commons: offset, length, stack address of the copy (R415, R416). -/
  backing : List (Nat × Nat × Nat) := []
  takeover : Option Takeover := none
  /-- Logical cores lost for good (R408). -/
  lost : List Nat := []
  /-- Rotation: the next logical core, whether a step is due, stopped for good (R409, R410). -/
  rotNext : Nat := 0
  rotDue : Bool := false
  rotOff : Bool := false
  /-- The logical core on which a task has completed since its step fell due: the step can run (R409). -/
  rotReady : Option Nat := none
  /-- Slots that failed their self-test for good (R42, R406, R410). -/
  scrapped : List Nat := []
  /-- Row maps the runtime keeps for the self-test's repair, tests waiting, the forced device test (R413, R414). -/
  tests : List TestReq := []
  devTest : Option TestReq := none
  forced : Bool := false
  /-- Marionette mode (R422). -/
  mario : Option MarioSt := none
  /-- Scrub positions and pending row replacement (R412). -/
  scrubCommons : Nat := 0
  scrubStack : Nat := 0
  rowRepl : List Nat := []
deriving DecidableEq, Repr

/-- The error messages of R424. -/
inductive ErrMsg where
  | cor | nonfatal | fatal
deriving DecidableEq, Repr

/-- The PCI Express function (R423-R432): Bus Master Enable, D3hot, MSI-X Enable and Function Mask, the MSI-X table
(word index to value; the control word of an entry not listed is 1, masked: PRESUMED, log 5), the pending bits, the
messages sent (vectors in order), log2 of BAR2's size; the trained link's width in lanes and rate in tenths of GT/s,
0 until it trains (R423); Device Control (PRESUMED reset 0x2810, log 104), the error bits of Device Status [3:0], the error
messages sent (R424). -/
structure PciSt where
  busMaster : Bool := false
  d3hot : Bool := false
  msixEn : Bool := false
  msixMask : Bool := false
  msixTab : Sparse W32 := []
  pba : BitVec 64 := 0#64
  msgs : List Nat := []
  bar2Log : Nat := 34
  linkWidth : Nat := 0
  linkRate : Nat := 0
  devCtl : BitVec 16 := 0x2810#16
  devStat : BitVec 4 := 0#4
  errMsgs : List ErrMsg := []
deriving DecidableEq, Repr

/-- The service rings (R433, R434): positions and phases, requests taken and not started, responses and notices that
wait for room in the response ring or for the function to master. -/
structure SvcSt where
  cmdIdx : Nat := 0
  cmdPh : Bool := false
  fetched : Nat := 0
  rspIdx : Nat := 0
  rspPh : Bool := false
  written : Nat := 0
  consumed : Nat := 0
  taken : List (List Byte) := []
  out : List (List Byte) := []
  notices : List (List Byte) := []
deriving DecidableEq, Repr

/-- A frame being received, or waiting at an ISP pipeline (R275, R282): its number among the stream's frames, stamp,
CSI-2 frame number, data type, port, FLAGS so far, pool buffer, parameter block, lines received (pixel codes), lines the pipeline has
taken, lines that came as packets (R275's copies are not among them). -/
structure CapFrame where
  fid : Nat
  ts : Nat
  no : Nat
  dt : Nat
  port : Nat := 0
  flags : BitVec 8 := 0#8
  buf : Nat
  block : List Byte := []
  lines : List (List Nat) := []
  done : Nat := 0
  got : Nat := 0
deriving DecidableEq, Repr

/-- A pool buffer in use (R276, R436): being filled, the number of its frame record, kept as a reference picture; format,
width and height of the picture in it. -/
structure BufSt where
  ix : Nat
  busy : Bool := true
  recNo : Option Nat := none
  isRef : Bool := false
  shape : Option (Nat × Nat × Nat) := none
deriving DecidableEq, Repr

/-- A bitstream entry taken (R284, R285): its 32 bytes, the timebase at its fetch, once delivered the header in force and
whether its data held poison (R399). -/
structure BsEntry where
  bytes : List Byte
  ts : Nat
  hdr : Option SeqHeader := none
  damaged : Bool := false
deriving DecidableEq, Repr

/-- A picture being decoded, or decoded and not yet output (R285): its number in decode order, stamp, PTS, buffer,
format, size, DECODE_NS, concealment, place in output order, the blocks whose samples failed their check in a line buffer
(R398). -/
structure PicSt where
  fid : Nat
  ts : Nat
  pts : Nat
  buf : Nat
  fmt : Nat
  w : Nat
  h : Nat
  ns : Nat := 0
  conceal : Bool := false
  late : Bool := false
  order : Nat := 0
  bad : List PixRect := []
deriving DecidableEq, Repr

/-- An open stream (R269, R284, R288, R308, R436). -/
structure StreamSt where
  kind : Nat
  loc : Bool
  recLog : Nat
  bsLog : Nat
  nbuf : Nat
  width : Nat
  height : Nat
  rate : Nat
  bufBytes : Nat
  pool : Nat
  recRing : Nat
  bsRing : Nat
  param : Nat
  stats : Nat
  engine : Nat := 255
  /-- Device time at the open (R287). -/
  opened : Nat := 0
  bufs : List BufSt := []
  recCount : Nat := 0
  fids : Nat := 0
  /-- Capture: the open frame, the last accepted parameter block, runs of bad and good triggers (R280). -/
  frame : Option CapFrame := none
  block : Option (List Byte) := none
  bad : Nat := 0
  good : Nat := 0
  /-- Decode: ring position, entries taken and not yet delivered, entries delivered, the header in force. -/
  bsIdx : Nat := 0
  bsPh : Bool := true
  bsCount : Nat := 0
  entries : List BsEntry := []
  queue : List BsEntry := []
  hdr : Option SeqHeader := none
  cur : Option PicSt := none
  pics : List PicSt := []
  /-- Pictures timed so far and their sum, then AVG (R308). -/
  avgN : Nat := 0
  avgSum : Nat := 0
  avg : Nat := 0
  /-- The tag of a STREAM_CLOSE that waits. -/
  closing : Option Nat := none
deriving DecidableEq, Repr

/-- An ISP pipeline (R282): frames whose end has been received, the stream it served last. -/
structure PipeSt where
  queue : List (Nat × CapFrame) := []
  last : Nat := 15
deriving DecidableEq, Repr

/-- An FSYNC output (R279, R280): the timebase at its last edge and the instant of its next one, where it is fixed;
whether the trigger window is open, the streams that had a frame start in it. -/
structure FsyncSt where
  edge : Option Nat := none
  due : Option Nat := none
  window : Bool := false
  hits : List Nat := []
deriving DecidableEq, Repr

/-- A picture an encoder has read (R437): its input entry, and whether damaged samples of it were concealed (R399). -/
structure EncJob where
  entry : List Byte
  conceal : Bool := false
deriving DecidableEq, Repr

/-- An open encode stream (R290, R437). -/
structure EncSt where
  format : Nat
  profile : Nat
  rc : Nat
  width : Nat
  height : Nat
  rate : Nat
  kbps : Nat
  gop : Nat
  qp : Nat
  inLog : Nat
  outLog : Nat
  outLen : Nat
  out : Nat
  palette : Nat
  inRing : Nat
  entryRing : Nat
  engine : Nat
  inIdx : Nat := 0
  inPh : Bool := true
  inCount : Nat := 0
  jobs : List EncJob := []
  outPos : Nat := 0
  entIdx : Nat := 0
  entPh : Bool := true
  entCount : Nat := 0
  closing : Option Nat := none
deriving DecidableEq, Repr

/-- A region of a recipe (R297). -/
structure ERegion where
  x : Nat
  y : Nat
  w : Nat
  h : Nat
  dx : Int
  dy : Int
  bright : Nat
  contrast : Nat
  a00 : Nat
  a01 : Nat
  a10 : Nat
  a11 : Nat
  flip : Bool
deriving DecidableEq, Repr

/-- A sample (R299, R303-R309): ID, where it comes from, its region; once its frame record has arrived, the frame; the number
of the group set it belongs to (0: none); `gone` where its frame was never recorded. -/
structure ESample where
  id : Nat
  stream : Nat
  region : Nat
  member : Nat := 255
  fid : Nat
  buf : Nat
  ts : Nat
  reg : ERegion
  ready : Bool := false
  addr : Nat := 0
  fmt : Nat := 0
  w : Nat := 0
  h : Nat := 0
  pitch : Nat := 0
  late : Bool := false
  carried : Bool := false
  partial_ : Bool := false
  conceal : Bool := false
  untrig : Bool := false
  set : Nat := 0
  gone : Bool := false
  /-- The batch and the slot it reserved last (R303, R421). -/
  place : Nat × Nat := (0, 0)
deriving DecidableEq, Repr

/-- Where a slot stands (R303, R304). -/
inductive ESlotSt where
  | reserved | converting | converted | absent
deriving DecidableEq, Repr

/-- A slot of a batch; `smp` is the sample it holds or last held. -/
structure ESlot where
  st : ESlotSt
  smp : Option ESample
  member : Nat := 255
  stale : Bool := false
deriving DecidableEq, Repr

/-- A batch under assembly (R303, R304): number, instant of its first reservation, slots reserved so far, closed to
further reservations, its budget has expired. -/
structure EBatch where
  num : Nat
  opened : Nat
  slots : List ESlot := []
  closed : Bool := false
  expired : Bool := false
deriving DecidableEq, Repr

/-- An assembler (R296, R299, R303-R306): its block, batches not yet emitted (rising numbers), ID counter, carried
samples, record ring position and count. -/
structure AsmSt where
  blk : List Byte := []
  next : Nat := 0
  batches : List EBatch := []
  ids : Nat := 0
  carried : List ESample := []
  recIdx : Nat := 0
  recPh : Bool := true
  recCount : Nat := 0
deriving DecidableEq, Repr

/-- A stream-table entry that was read and accepted (R295). -/
structure EBind where
  asm : Nat
  group : Option Nat
  member : Nat
  rlog : Nat
  maxAge : Nat
  recipe : Nat
  dflt : Nat
  idx : Nat := 0
  ph : Bool := true
  count : Nat := 0
deriving DecidableEq, Repr

/-- What Easel knows of a stream's entry (R295): accepted, or refused and which assembler it names. -/
inductive BindSt where
  | bound (b : EBind)
  | refused (asm : Nat)
deriving DecidableEq, Repr

/-- An open group set (R309): number, group, instant of its edge or first reservation, triggered, its slots, the members in it. -/
structure ESet where
  group : Nat
  key : Nat
  trig : Bool
  asm : Nat
  batch : Nat
  base : Nat
  n : Nat
  members : List Nat
  id : Nat := 0
  /-- The timebase at which it closes (R309). -/
  due : Nat := 0
deriving DecidableEq, Repr

/-- Easel (R295-R310): assemblers, entries read, the streams each enabled assembler has seen a record of since its enable
(stream, assembler), open sets and how many there have been, the assembler served last. -/
structure EaselSt where
  asms : Vector AsmSt 16 := Vector.replicate 16 {}
  binds : List (Nat × BindSt) := []
  seen : List (Nat × Nat) := []
  setNo : Nat := 0
  sets : List ESet := []
  last : Nat := 15
deriving DecidableEq, Repr

/-- How a tokenising job ended (R312): status, TRUNC, DICTERR, tokens written, bytes consumed. -/
structure TokRes where
  status : Byte
  trunc : Bool
  dicterr : Bool
  tokens : Nat
  used : Nat
deriving DecidableEq, Repr

/-- Primer (R311-R317): its block, ring positions, jobs taken, the job under way with its result; disabled with a job under
way, which ends the polling once it completes; enabled again while jobs taken before are not complete. -/
structure PrimSt where
  blk : List Byte := []
  jobIdx : Nat := 0
  jobPh : Bool := true
  jobCount : Nat := 0
  cplIdx : Nat := 0
  cplPh : Bool := true
  cplCount : Nat := 0
  jobs : List (List Byte) := []
  cur : Option (List Byte × TokRes) := none
  stopping : Bool := false
  again : Bool := false
deriving DecidableEq, Repr

/-- Capture, codecs, Easel and Primer. `engLast` is the over-submitting stream each decode engine served last (R287). `tbSlew` is the correction still to be slewed in ns and `tbFrac` the time since
its last ns (R277), `tbHold` the slew kept in holdover, `lastPps` the device time of the last accepted edge, `tb10m` whether TB_10M is locked, `vcHold` and
`portHold` register writes held until the next frame start (R275, R293). -/
structure MediaSt where
  streams : List (Nat × StreamSt) := []
  encs : List (Nat × EncSt) := []
  pipes : Vector PipeSt 2 := Vector.replicate 2 {}
  fsync : Vector FsyncSt 4 := Vector.replicate 4 {}
  tbSlew : Int := 0
  tbFrac : Nat := 0
  tbHold : Option Int := none
  lastPps : Option Nat := none
  tb10m : Bool := false
  engLast : Vector Nat 7 := Vector.replicate 7 0
  vcHold : List (Nat × W32) := []
  portHold : List (Nat × W32) := []
  easel : EaselSt := {}
  prim : PrimSt := {}
  /-- When the pipelines (0-1) and the codec engines (2-8) last worked: the 100 ms intervals since reset in which that work
  began and in which it was last seen (R294). -/
  busy : List (Nat × Nat × Nat) := []
deriving DecidableEq, Repr

/-- A write in a channel's write queue (R323): block address, byte mask, requester, class, cycle of acceptance, whether the
channel has been retrained for it (R336). -/
structure WEnt where
  blk : Nat
  mask : BitVec 64
  req : Nat
  cls : Nat
  at_ : Nat
  tried : Bool := false
deriving DecidableEq, Repr

/-- A read in a channel's read queue (R322, R324, R325): block address, requester, class, cycle of acceptance, the bytes
asked for with the data of every write accepted before it, whether the block was poisoned then, whether it waits for
queued writes, whether it has gone to the die, whether it ended a drain (R327), whether the channel has been retrained
for it (R335). -/
structure REnt where
  blk : Nat
  req : Nat
  cls : Nat
  at_ : Nat
  data : List Byte
  behind : Bool
  issued : Bool := false
  pz : Bool := false
  ends : Bool := false
  tried : Bool := false
deriving DecidableEq, Repr

/-- A bank (R326, R329, R331-R334): open row, earliest cycles for an activate, a precharge and a column command,
refreshes due and early, the tracker (row and count), throttled requesters with the cycle of their next activation,
rows under R334 with their activations. -/
structure BankSt where
  open_ : Option Nat := none
  nextAct : Nat := 0
  nextPre : Nat := 0
  nextCol : Nat := 0
  owed : Nat := 0
  early : Nat := 0
  tracker : List (Nat × Nat) := []
  throt : List (Nat × Nat) := []
  hot : List (Nat × Nat) := []
deriving DecidableEq, Repr

/-- A pseudo-channel: its cycles, banks by number, the latest activates, the cycle its bus is free, all-bank refreshes
due and early. -/
structure PcSt where
  cyc : Nat := 0
  banks : List (Nat × BankSt) := []
  acts : List Nat := []
  bus : Nat := 0
  owed : Nat := 0
  early : Nat := 0
  rot : Nat := 0
deriving DecidableEq, Repr

/-- A stack channel (R322-R338): queues, mode, whether a read has ended the drain (R327), writes sent within the last 40 ns, the read last delivered (requester,
block, data, poisoned), generator, soft repairs (pseudo-channel, bank, row), rows the runtime has still to repair, the
time a retraining has waited since; the arbiter cycle of the last acceptance, whether the present retraining is one of
R335, the rows last refreshed as neighbours (pseudo-channel, bank, row; a spare in its row's place), the on-die
corrections of the last 24 h (pseudo-channel, bank, row, time, count). -/
structure ChanSt where
  wq : List WEnt := []
  rq : List REnt := []
  drain : Bool := false
  cut : Bool := false
  pc0 : PcSt := {}
  pc1 : PcSt := {}
  sent : List WEnt := []
  last : Option (Nat × Nat × List Byte × Bool) := none
  gen : BitVec 32 := 0#32
  soft : List (Nat × Nat × Nat) := []
  todo : List (Nat × Nat × Nat) := []
  defer : Option Nat := none
  took : Option Nat := none
  inPlace : Bool := false
  nbr : List (Nat × Nat × Nat) := []
  fixed : List (Nat × Nat × Nat × Nat × Nat) := []
deriving DecidableEq, Repr

/-- The stack controller: its channels; the bytes held in the real-time ports' buffers, of a codec's in the output half;
those of a capture port's that wait for the stack; the bytes missing from the reference half of a codec's (R328). -/
structure StackSt where
  chans : Vector ChanSt 16 := Vector.replicate 16 {}
  rt : Sparse Nat := []
  rtByp : Sparse Nat := []
  rtRef : Sparse Nat := []
deriving DecidableEq, Repr

/-- A packet being received on a queue (R355): its header, the data bytes so far; `drop` while it is discarded. -/
structure OpenPkt where
  queue : Nat
  hdr : Packet
  data : List Byte
  drop : Bool
deriving DecidableEq, Repr

/-- What a link-control flit says (R350, R351): the count of the last good flit, asking for a replay after it, or
acknowledging up to it and returning credits of queues 0-4. How a flit carries it is not given. -/
inductive LinkCtl where
  | nak (good : Nat)
  | ack (good : Nat) (credits : List Nat)
deriving DecidableEq, Repr

/-- One Kwaos port (R348-R354): packets waiting for credits (queue, packet), flits launched on the wire, the replay
buffer (flit number, queue, flit), flit counts, credits of queues 0-4, the packets open at the receiver, its buffers in use,
the credits it has not returned yet, the good flits since its last acknowledgement and the last link-control flit it has
sent, lane errors of the present 1 ms window, the mapped spare. -/
structure LinkPort where
  wait : List (Nat × Packet) := []
  wire : List Flit := []
  replay : List (Nat × Nat × Flit) := []
  tx : Nat := 0
  rx : Nat := 0
  awaitReplay : Bool := false
  credits : List Nat := [256, 256, 256, 256, 16]
  rxOpen : List OpenPkt := []
  rxBuf : List Nat := [0, 0, 0, 0, 0]
  rxFree : List Nat := [0, 0, 0, 0, 0]
  unacked : Nat := 0
  ctl : Option LinkCtl := none
  window : List Nat := [0, 0, 0, 0]
  winMs : Nat := 0
  spareUsed : Bool := false
  acked : Nat := 0
deriving DecidableEq, Repr

/-- A packet in transit that waits at its output port: it keeps `flits` buffers of queue `inq` at the port it came in by
(R351). -/
structure Passing where
  out : Nat
  queue : Nat
  pkt : Packet
  inp : Nat
  inq : Nat
  flits : Nat
deriving DecidableEq, Repr

/-- The links, the mailbox, the next transaction tag; DIM and DATELINE in force at each port (bits 1 and 0), which follow the
registers only while routing is off (R354). -/
structure LinkSt where
  ports : Vector LinkPort 4 := Vector.replicate 4 {}
  mbox : List Packet := []
  nextTag : Nat := 0
  /-- Requesters (device, UNIT) whose last FIRST request was refused here (R358). -/
  refused : List (Nat × Nat) := []
  dims : List Nat := [0, 0, 0, 0]
  passing : List Passing := []
deriving DecidableEq, Repr

/-- The management chain (R341-R346): the strap, the outgoing frame (0 while none is sent), whether device 0 has sent
its first TOKEN, whether a token or FULL has come back. -/
structure ChainSt where
  head : Bool := false
  frame : BitVec 32 := 0#32
  sending : Bool := false
  sent : Nat := 0
  started : Bool := false
  returned : Bool := false
deriving DecidableEq, Repr

/-- A DVFS step (R376, R377): target point, phase 1 slew up, 2 window, 3 relock, whether the relock is forced. -/
structure DvfsSt where
  target : Nat
  phase : Nat
  forced : Bool := false
deriving DecidableEq, Repr

/-- The power manager (R370-R395): commanded setpoint in mV, at first the regulator's boot voltage of 0.70 V (R467), the lowest setpoint the present slew comes from, margins
applied to the setpoints, consecutive daily measurements above 14% slack, the step under way, ms with the cap's skip at
15, time of the last grant write, energy not yet a whole mJ (1/16 mJ), regulator telemetry (mV, mA), the report card as
stored and when, half-positions left over by a tick. -/
structure PwrSt where
  setpoint : Nat := 700
  slewing : Bool := false
  oldSp : Nat := 700
  /-- The core rail at the comparators of R378, in 10 uV: the last voltage read or seen (log 92). -/
  rail : Int := 70000
  /-- The core regulator answers no PMBus transaction and keeps its boot voltage (R467). -/
  mute : Bool := false
  /-- PWR_CAP.EFF before the CAP writes of a cycle, with that cycle's time (R395). -/
  capWas : Option (Nat × Nat) := none
  /-- A lease has expired and the next 1 ms tick is still to come (R385). -/
  lapse : Bool := false
  /-- The move to point 1 that R393 asks for waits for the step under way. -/
  toOne : Bool := false
  /-- The core PLL, and the Commons PLL, is being replaced (R400). -/
  pllOff : Bool := false
  commonsOff : Bool := false
  applied : List Nat := [0, 0, 0, 0]
  daily : List Nat := [0, 0, 0, 0]
  step : Option DvfsSt := none
  cap15 : Nat := 0
  leaseAt : Nat := 0
  mjFrac : Nat := 0
  vout : Nat := 0
  iout : Nat := 0
  rcStored : W32 := 0#32
  rcAt : Option Nat := none
  posHalf : Nat := 0
deriving DecidableEq, Repr

/-- Why the device stands still: held in reset, stopped by a thermal trip, or in the manufacturing mode of TEST_MODE (R389,
R449, R464). -/
inductive StopKind where
  | reset | tripped | testMode
deriving DecidableEq, Repr

/-- A FLASH_WRITE under way (R435): slot, whether it becomes preferred, the image, the request's tag. -/
structure FlashJob where
  slot : Nat
  prefer : Bool
  image : List Byte
  tag : Nat
deriving DecidableEq, Repr

/-- What the runtime reports on the UART (R467). -/
inductive UartReport where
  | regulatorMute
deriving DecidableEq, Repr

/-- Boot, trust and the settings store's use (R441-R458): the running image's header, the loader's code, the components
placed (runtime, Timetable firmware, Proctor services), the images read from a recovery write, the measurement log with
the number of items, ACC and LOGFULL, the debug challenge in force, the in-service operating point, when each settings
write of the last 24 h was made, the FLASH_WRITE under way, what the runtime has reported on its console. -/
structure BootSt where
  released : Bool := false
  head : List Byte := []
  loader : List Byte := []
  comps : List (List Byte) := []
  mlog : List (List Byte) := []
  items : Nat := 0
  acc : List Byte := List.replicate 32 0#8
  logFull : Bool := false
  challenge : Option (List Byte) := none
  point : Nat := 0
  writes : List Nat := []
  flash : Option FlashJob := none
  uart : List UartReport := []
deriving DecidableEq, Repr

/-- The exceptions of a staff core that the spec names (R36, R44, R398, R399). -/
inductive StaffExc where
  | loadAccess | storeAccess | machineError
deriving DecidableEq, Repr

/-- What the block knows of a staff core: the exception it last took with its address, and how often the runtime has
restarted a service after a machine error (R398). -/
structure StaffSt where
  exc : Option (StaffExc × Nat) := none
  restarts : Nat := 0
deriving DecidableEq, Repr

/-- What the last read of a register or through a BAR answered (R13, R43, R428): its bytes, and the EP bit. The model's
own field: it shows a read's result and nothing reads it. -/
structure ReadSt where
  data : List Byte := []
  ep : Bool := false
deriving DecidableEq, Repr

/-- Everything the device holds but its arbiters and the queue of waiting commands. -/
structure Dev where
  /-- Held in reset, or tripped: nothing but a release or the supplies' removal acts. -/
  stop : Option StopKind := none
  /-- ns since device reset. -/
  now : Nat := 0
  /-- The model's own counter: which use of a free value comes next (log 9). -/
  free : Nat := 0
  /-- The capture timebase in ns (R277). -/
  tb : Nat := 0
  fuses : Fuses := {}
  /-- The register space: offset from 0x000E_0000_0000 to value, where it differs from the reset value. -/
  regs : Sparse W32 := []
  /-- Stack, Commons, and Satchel and instruction memory of each PHYSICAL slot at the place R29 gives logical core
  numbers; `slotBase` maps between them. -/
  mem : Memory := {}
  /-- Poisoned stack blocks and Commons words by address (R399). -/
  poison : List Nat := []
  hostMem : Sparse Byte := []
  /-- The settings store; a byte not listed is 0xFF (log 4). -/
  flash : Sparse Byte := []
  /-- Mirrors of each logical core's instruction memory and CORE range (R401). -/
  imMirror : Sparse Byte := []
  coreImg : Sparse W32 := []
  cores : Vector CoreSt 7 := Vector.replicate 7 {}
  /-- Planes on their way to a slot over the weight chain (R203). -/
  chainFly : List (Nat × Plane) := []
  /-- Arrays waiting for a ramp grant, in the order of R155: the time of the request (ns), slot and array. -/
  rampReq : List (Nat × Nat × Nat) := []
  tt : TTSt := {}
  bar : BarSt := {}
  com : ComSt := {}
  lnk : LinkSt := {}
  chn : ChainSt := {}
  med : MediaSt := {}
  stk : StackSt := {}
  pwr : PwrSt := {}
  flt : FltSt := {}
  pci : PciSt := {}
  svc : SvcSt := {}
  boot : BootSt := {}
  staff : Vector StaffSt 9 := Vector.replicate 9 {}
  rd : ReadSt := {}
  /-- The straps as the last RESET_N or PERST_N release sampled them (R464). -/
  straps : Straps := {}
deriving DecidableEq, Repr

/-- A transfer an arbiter decides on (R260-R264): requester, class, beats, beats already moved (the progress count),
the time of its first presentation, the cycle it was withdrawn in. -/
structure ArbReq where
  req : Nat
  cls : Nat
  beats : Nat
  write : Bool := false
  moved : Nat := 0
  age : Nat := 0
  gone : Option Nat := none
deriving DecidableEq, Repr

/-- What an arbiter sees of the block around it in a cycle: whether a Recess window is open (R260), whether the write queue
and the read queue of its stack channel are full (R323, R325), which real-time ports have panic raised (R328). -/
structure ArbView where
  up : Bool := false
  wfull : Bool := false
  rfull : Bool := false
  panic : List Nat := []
deriving DecidableEq, Repr

/-- One arbiter (R261, R262, R264): the hall pass held, the bench, the requests presented and not on the bench, the
mode in force, what it saw in the cycle before. -/
structure Arb where
  holder : Option ArbReq := none
  bench : List ArbReq := []
  stall : List ArbReq := []
  clock : Nat := 0
  h4 : Bool := false
  seen : ArbView := {}
deriving DecidableEq, Repr

/-- The whole state: the device, its 84 arbiters (64 Commons banks, 16 stack ports, 4 Kwaos outputs), and the
commands waiting, first in, first out. -/
structure State where
  dev : Dev
  arbs : Vector Arb 84
  pending : List Instr
deriving DecidableEq, Repr

/-- The device right after reset (R125: slots 0-5 idle, slot 6 the understudy). -/
def Dev.reset : Dev :=
  { cores := (((((((Vector.replicate 7 {}).set 0 { keySlot := 0 }).set 1 { keySlot := 1 }).set 2 { keySlot := 2 }).set
      3 { keySlot := 3 }).set 4 { keySlot := 4 }).set 5 { keySlot := 5 }).set 6 { mode := .standby, keySlot := 6 } }

/-- The machine right after reset: every register at the value the spec states, or at the one the log names. -/
def State.reset : State :=
  { dev := Dev.reset, arbs := Vector.replicate 84 {}, pending := [] }

end Sys2Proof.Machine
end

