-- ==== Sys2Proof/Machine/Ops.lean ====
section
/-! DEFINITION. The named operations over registers, memory and core slots: every meaning reads and writes the state
through these. -/

namespace Sys2Proof.Machine

/-! ## Registers -/

/-- The slots that pass fuse test, ascending (R41). -/
def goodSlots (f : Fuses) : List Nat :=
  (upto 7).filter (fun p => match f.badSlot with | some b => p != b.val | none => true)

/-- SYS_CORE_MAP at reset (R41, R42). -/
def coreMapReset (f : Fuses) : Nat :=
  let g := goodSlots f
  (((upto 6).map (fun k => (g.getD k 7) * 2 ^ (3 * k))).foldl (· + ·) 0) + (g.getD 6 7) * 2 ^ 18

/-- The reset values of MEM_MAP(i) (R321). -/
def memMapReset : List Nat :=
  [0x4DE6, 0x5207, 0x5628, 0x5A49, 0x6EEA, 0x61EB, 0x660C, 0x6A2D, 0x724E]

/-- The reset value of a register's instance: the table's number, or what the fuses say. -/
def regReset (f : Fuses) (r : Reg) (idx : List Nat) : W32 :=
  let i := idx.getD 0 0
  match r with
  | .sysId => BitVec.ofNat 32 (0x48360000 + f.grade.toNat * 256 + f.stepping.toNat)
  | .sysCoreMap => BitVec.ofNat 32 (coreMapReset f)
  | .coreArrRowmapA => f.rowmapA.getD i 0#32
  | .coreArrColmapA => f.colmapA.getD i 0#32
  | .coreArrRowmapB => f.rowmapB.getD i 0#32
  | .coreArrColmapB => f.colmapB.getD i 0#32
  | .coreArrSpfuse => f.spfuse.getD i 0#32
  | .memMap => BitVec.ofNat 32 (memMapReset.getD i 0)
  | .memChRepair =>
    let n := (f.hardRepair.filter (fun x => x.1 == i)).length
    BitVec.ofNat 32 (n * 256 + (64 - n))
  | .pwrCap => if f.grade = 2#8 then 0x2808004B#32 else 0x4B08004B#32
  | .secState => BitVec.ofNat 32 (b2n f.owned * 2 ^ 31 + b2n f.vdbg * 2 ^ 30 + f.rollback % 128)
  | _ => r.reset

/-- The stored value of a register. -/
def Dev.rg (d : Dev) (r : Reg) (idx : List Nat) : W32 :=
  spGet (regReset d.fuses r idx) d.regs (regOff r idx)

/-- Store a register's value. -/
def Dev.setRg (d : Dev) (r : Reg) (idx : List Nat) (v : W32) : Dev :=
  { d with regs := spSet (regReset d.fuses r idx) d.regs (regOff r idx) v }

/-- A field of a register. -/
def Dev.fld (d : Dev) (r : Reg) (idx : List Nat) (hi lo : Nat) : Nat := bits (d.rg r idx).toNat hi lo

/-- A one-bit field. -/
def Dev.flag (d : Dev) (r : Reg) (idx : List Nat) (i : Nat) : Bool := bit (d.rg r idx).toNat i

/-- Set a field from the hardware side. -/
def Dev.setFld (d : Dev) (r : Reg) (idx : List Nat) (hi lo v : Nat) : Dev :=
  d.setRg r idx (BitVec.ofNat 32 (setBits (d.rg r idx).toNat hi lo v))

/-- Add to a counter field that stops at its largest value. -/
def Dev.incSat (d : Dev) (r : Reg) (idx : List Nat) (hi lo n : Nat) : Dev :=
  d.setFld r idx hi lo (min (d.fld r idx hi lo + n) (2 ^ (hi + 1 - lo) - 1))

/-- Add to a counter field that wraps. -/
def Dev.incMod (d : Dev) (r : Reg) (idx : List Nat) (hi lo n : Nat) : Dev :=
  d.setFld r idx hi lo ((d.fld r idx hi lo + n) % 2 ^ (hi + 1 - lo))

/-- SYS_LOCK.LOCK (R40). -/
def Dev.locked (d : Dev) : Bool := d.flag .sysLock [] 0

/-- The bits `hi` to `lo` set. -/
def fieldMask (hi lo : Nat) : W32 := BitVec.ofNat 32 (2 ^ (hi + 1) - 2 ^ lo)

/-- What a write leaves in one field (R13, R14). -/
def mergeField (lock : Bool) (new : W32) (old : W32) : Nat × Nat × Access → W32
  | (hi, lo, a) =>
    let m := fieldMask hi lo
    match a with
    | .rw => (old &&& ~~~m) ||| (new &&& m)
    | .rwl => if lock then old else (old &&& ~~~m) ||| (new &&& m)
    | .w1c => old &&& ~~~(new &&& m)
    | .w1s => old ||| (new &&& m)
    | .ro => old
    | .wo => old

/-- What a write leaves in a register: each field by its access type, reserved bits kept (R13, R16). -/
def mergeWrite (lock : Bool) (fields : List (Nat × Nat × Access)) (old new : W32) : W32 :=
  fields.foldl (mergeField lock new) old

/-- Store a register by the access types of its fields, with no further effect. -/
def Dev.plainWrite (d : Dev) (r : Reg) (idx : List Nat) (v : W32) : Dev :=
  d.setRg r idx (mergeWrite d.locked r.fields (d.rg r idx) v)

/-! ## Core slots and the core map -/

/-- The physical slot of logical core `k` (R41). -/
def Dev.slotOf (d : Dev) (k : Nat) : Nat := d.fld .sysCoreMap [] (3 * k + 2) (3 * k)

/-- The slot of the understudy, 7 for none (R42). -/
def Dev.spare (d : Dev) : Nat := d.fld .sysCoreMap [] 20 18

/-- The logical core a slot maps, 15 for none (R125). -/
def Dev.logicalOf (d : Dev) (p : Nat) : Nat := ((upto 6).find? (fun k => d.slotOf k == p)).getD 15

/-- The slot's state. -/
def Dev.core (d : Dev) (p : Fin 7) : CoreSt := d.cores[p]

/-- Replace a slot's state. -/
def Dev.setCore (d : Dev) (p : Fin 7) (c : CoreSt) : Dev := { d with cores := d.cores.set p c }

/-- Change a slot's state. -/
def Dev.modCore (d : Dev) (p : Fin 7) (f : CoreSt → CoreSt) : Dev := d.setCore p (f (d.core p))

/-- A slot number as an index, where there is such a slot. -/
def finSlot (p : Nat) : Option (Fin 7) := if h : p < 7 then some ⟨p, h⟩ else none

/-- Change slot `p` where there is one. -/
def Dev.modSlot (d : Dev) (p : Nat) (f : CoreSt → CoreSt) : Dev :=
  match finSlot p with
  | some q => d.modCore q f
  | none => d

/-- The state of slot `p`; the initial state for a number that names no slot. -/
def Dev.slot (d : Dev) (p : Nat) : CoreSt :=
  match finSlot p with
  | some q => d.core q
  | none => {}

/-! ## Memory -/

/-- The event that left the byte undefined, where one did and nothing has written it since (R33, R406, R414, R449). -/
def undefAt : List (Nat × Nat × Nat) → Nat → Option Nat
  | [], _ => none
  | (lo, hi, n) :: r, a => if lo ≤ a ∧ a < hi then some n else undefAt r a

/-- What an unlisted byte reads as: 0 (DESIGN CHOICE, log 7), a free value where the spec calls it undefined. -/
def Memory.unlisted (m : Memory) (a : Nat) : Byte :=
  match undefAt m.undef a with
  | some n => Config.undefByte n a
  | none => 0#8

/-- Read one byte. -/
def Memory.rd (m : Memory) (a : Nat) : Byte :=
  match undefAt m.undef a with
  | some n => Config.undefByte n a
  | none => spGet 0#8 m.cells a

/-- Take one address out of the undefined ranges. -/
def cutUndef : List (Nat × Nat × Nat) → Nat → List (Nat × Nat × Nat)
  | [], _ => []
  | (lo, hi, n) :: r, a =>
    if lo ≤ a ∧ a < hi then
      (if lo < a then [(lo, a, n)] else []) ++ (if a + 1 < hi then [(a + 1, hi, n)] else []) ++ cutUndef r a
    else (lo, hi, n) :: cutUndef r a

/-- Write one byte. -/
def Memory.wr (m : Memory) (a : Nat) (v : Byte) : Memory :=
  { cells := spSet 0#8 m.cells a v, undef := cutUndef m.undef a }

/-- Read `n` bytes from `a` up. -/
def Memory.rdN (m : Memory) (a : Nat) : Nat → List Byte
  | 0 => []
  | n + 1 => m.rd a :: Memory.rdN m (a + 1) n

/-- Write bytes from `a` up. -/
def Memory.wrN (m : Memory) (a : Nat) : List Byte → Memory
  | [] => m
  | b :: r => Memory.wrN (m.wr a b) (a + 1) r

/-- The bytes of a range become undefined: event `n`. -/
def Memory.mkUndef (m : Memory) (lo hi n : Nat) : Memory :=
  { cells := m.cells.filter (fun e => !(decide (lo ≤ e.1 ∧ e.1 < hi))), undef := (lo, hi, n) :: m.undef }

/-- The canonical form: addresses strictly rising, no entry equal to what an unlisted address reads as, none inside
an undefined range. -/
def Memory.wf (m : Memory) : Bool :=
  spWf 0#8 m.cells && m.cells.all (fun e => (undefAt m.undef e.1).isNone)

/-- Sparse byte spaces with their own unlisted value: host memory and the settings store. -/
def rdCells (dflt : Byte) (m : Sparse Byte) (a : Nat) : Nat → List Byte
  | 0 => []
  | n + 1 => spGet dflt m a :: rdCells dflt m (a + 1) n
def wrCells (dflt : Byte) (m : Sparse Byte) (a : Nat) : List Byte → Sparse Byte
  | [] => m
  | b :: r => wrCells dflt (spSet dflt m a b) (a + 1) r

def stackEnd : Nat := 0x400000000
def runtimeBase : Nat := 0x3F0000000
def commonsBase : Nat := 0x800000000
def commonsSize : Nat := 0x1000000
def windowBase : Nat := 0x810000000
def windowSize : Nat := 0x100000
def coreBase : Nat := 0x900000000
def coreStep : Nat := 0x1000000
def satchelSize : Nat := 0x800000
def imemSize : Nat := 0x40000
def regBase : Nat := 0xE00000000
def regSize : Nat := 0x10000000
def proctorBase : Nat := 0xF00000000
def proctorSize : Nat := 0x1000000

/-- The regions of the device address map (R29). -/
inductive Region where
  | stack | commons | window | satchel (k : Nat) | imem (k : Nat) | regs | proctor
deriving DecidableEq, Repr

/-- The region of a device physical address, none where it is unmapped (R29, R30). -/
def region (a : Nat) : Option Region :=
  if a < stackEnd then some .stack
  else if commonsBase ≤ a ∧ a < commonsBase + commonsSize then some .commons
  else if windowBase ≤ a ∧ a < windowBase + windowSize then some .window
  else if coreBase ≤ a ∧ a < coreBase + 6 * coreStep then
    let o := (a - coreBase) % coreStep
    let k := (a - coreBase) / coreStep
    if o < satchelSize then some (.satchel k)
    else if o < satchelSize + imemSize then some (.imem k) else none
  else if regBase ≤ a ∧ a < regBase + regSize then some .regs
  else if proctorBase ≤ a ∧ a < proctorBase + proctorSize then some .proctor
  else none

/-- Where slot `p` keeps its Satchel in `mem`. -/
def satBase (p : Nat) : Nat := coreBase + p * coreStep

/-- Where slot `p` keeps its instruction memory in `mem`. -/
def imBase (p : Nat) : Nat := satBase p + satchelSize

/-- Stack accesses are served once MEM_GCTL.EN is 1 (R339). -/
def Dev.stackOn (d : Dev) : Bool := d.flag .memGctl [] 31

/-- `n` bytes from `a` lie wholly within one region that an initiator other than a staff core or Proctor reaches:
the stack below the runtime region, or Commons (R35, R339, R448). -/
def Dev.reach (d : Dev) (a n : Nat) : Bool :=
  (d.stackOn && decide (a + n ≤ runtimeBase)) ||
  decide (commonsBase ≤ a ∧ a + n ≤ commonsBase + commonsSize)

/-- The same with the runtime region (staff cores and Proctor, R448). -/
def Dev.reachStaff (d : Dev) (a n : Nat) : Bool :=
  (d.stackOn && decide (a + n ≤ stackEnd)) ||
  decide (commonsBase ≤ a ∧ a + n ≤ commonsBase + commonsSize)

/-- The poison unit an address lies in: its 64-byte stack block or its 4-byte Commons word (R399). -/
def poisonUnit (a : Nat) : Nat := if a < stackEnd then a / 64 * 64 else a / 4 * 4

/-- Whether a byte is poisoned. -/
def Dev.poisoned (d : Dev) (a : Nat) : Bool := d.poison.contains (poisonUnit a)

/-- Whether any byte of a range is poisoned. -/
def Dev.poisonedN (d : Dev) (a n : Nat) : Bool :=
  d.poison.any (fun u => decide (u < a + n) && decide (a < u + (if u < stackEnd then 64 else 4)))

/-- Poison that a write of `n` bytes at `a` leaves: a unit it covers whole is cleared (R336, R399). -/
def clearPoison (ps : List Nat) (a n : Nat) : List Nat :=
  ps.filter (fun u => !(decide (a ≤ u) && decide (u + (if u < stackEnd then 64 else 4) ≤ a + n)))

/-- Reservations that a write leaves: those of granules it touches are lost (R259). -/
def dropResv (rs : List (Nat × Nat)) (a n : Nat) : List (Nat × Nat) :=
  rs.filter (fun e => !(decide (e.2 < a + n) && decide (a < e.2 + 64)))

/-- A plain write to the stack or Commons: bytes stored, poison cleared where whole units are covered, reservations
of the granules lost. -/
def Dev.store (d : Dev) (a : Nat) (bs : List Byte) : Dev :=
  { d with
    mem := d.mem.wrN a bs
    poison := clearPoison d.poison a bs.length
    com := { d.com with resv := dropResv d.com.resv a bs.length } }

/-- Read bytes of the stack or Commons. -/
def Dev.load (d : Dev) (a n : Nat) : List Byte := d.mem.rdN a n

/-- Read a little-endian number. -/
def Dev.loadNat (d : Dev) (a n : Nat) : Nat := leNat (d.load a n)

/-- Read and write a slot's own Satchel by byte offset. -/
def Dev.satRd (d : Dev) (p off n : Nat) : List Byte := d.mem.rdN (satBase p + off) n
def Dev.satWr (d : Dev) (p off : Nat) (bs : List Byte) : Dev := { d with mem := d.mem.wrN (satBase p + off) bs }

/-- Write instruction memory of logical core `k`, and its mirror (R401). -/
def Dev.imWr (d : Dev) (k off : Nat) (bs : List Byte) : Dev :=
  { d with mem := d.mem.wrN (imBase (d.slotOf k) + off) bs
           imMirror := wrCells 0#8 d.imMirror (k * imemSize + off) bs }

/-- The next use of a free value. -/
def Dev.nextFree (d : Dev) : Dev := { d with free := d.free + 1 }

/-- A forced relock holds every array (R377). -/
def Dev.arraysHeld (d : Dev) : Bool := d.pwr.step.any (·.forced)

/-- A Recess window is open: 10 us from every whole ms after reset (R411). -/
def Dev.recess (d : Dev) : Bool := decide (d.now % 1000000 < 10000)

/-- A range of memory becomes undefined. -/
def Dev.undefine (d : Dev) (lo hi : Nat) : Dev :=
  { d with mem := d.mem.mkUndef lo hi d.free, free := d.free + 1 }

/-- An access by an initiator other than Proctor is counted where it falls in the Proctor region (R36, R460). -/
def Dev.viol (d : Dev) (a : Nat) : Dev :=
  if proctorBase ≤ a ∧ a < proctorBase + proctorSize then d.incSat .secState [] 23 16 1 else d

/-- A refused descriptor is one access: it counts where any address it names lies in the Proctor region (R36). -/
def Dev.violAny (d : Dev) (as : List Nat) : Dev :=
  match as.find? (fun a => decide (proctorBase ≤ a ∧ a < proctorBase + proctorSize)) with
  | some a => d.viol a
  | none => d

/-! ## Registers of a core -/

/-- Scalar register `i`; s0 reads 0 (R94). -/
def CoreSt.s (c : CoreSt) (i : Nat) : W64 := if i = 0 then 0#64 else spGet 0#64 c.sregs i
/-- Write a scalar register; a write to s0 is discarded (R94). -/
def CoreSt.setS (c : CoreSt) (i : Nat) (v : W64) : CoreSt :=
  if i = 0 then c else { c with sregs := spSet 0#64 c.sregs i v }

/-- Vector register `i`. -/
def CoreSt.v (c : CoreSt) (i : Nat) : W1024 := spGet 0#1024 c.vregs i
def CoreSt.setV (c : CoreSt) (i : Nat) (x : W1024) : CoreSt := { c with vregs := spSet 0#1024 c.vregs i x }

/-- Mask register `i`; m0 reads all ones (R94). -/
def CoreSt.m (c : CoreSt) (i : Nat) : W128 := if i = 0 then BitVec.allOnes 128 else spGet 0#128 c.mregs i
/-- Write a mask register; a write to m0 is discarded (R94). -/
def CoreSt.setM (c : CoreSt) (i : Nat) (x : W128) : CoreSt :=
  if i = 0 then c else { c with mregs := spSet 0#128 c.mregs i x }

/-- A tally row's component: 0 sum, 1 sum of squares, 2 maximum (R94, R101). -/
def CoreSt.tal (c : CoreSt) (t comp row : Nat) : W32 := spGet 0#32 c.tally (t * 384 + comp * 128 + row)
def CoreSt.setTal (c : CoreSt) (t comp row : Nat) (x : W32) : CoreSt :=
  { c with tally := spSet 0#32 c.tally (t * 384 + comp * 128 + row) x }

/-- Flag `i`. -/
def CoreSt.f (c : CoreSt) (i : Nat) : Bool := c.flags.getLsbD i
def CoreSt.setF (c : CoreSt) (i : Nat) (b : Bool) : CoreSt :=
  { c with flags := if b then c.flags ||| (1#64 <<< i) else c.flags &&& ~~~(1#64 <<< i) }
def CoreSt.raiseF (c : CoreSt) : Option Nat → CoreSt
  | some i => c.setF i true
  | none => c

/-- Add numeric flags, sticky for the task (R78). -/
def CoreSt.addNf (c : CoreSt) (f : NumFlags) : CoreSt := { c with nflags := c.nflags ||| f }

/-- One of the two arrays. -/
def CoreSt.arr (c : CoreSt) (i : Nat) : ArrSt := if i = 0 then c.arrA else c.arrB
def CoreSt.setArr (c : CoreSt) (i : Nat) (a : ArrSt) : CoreSt :=
  if i = 0 then { c with arrA := a } else { c with arrB := a }
def CoreSt.modArr (c : CoreSt) (i : Nat) (f : ArrSt → ArrSt) : CoreSt := c.setArr i (f (c.arr i))

/-- One of the three walkers' lists: 0 and 1 read, 2 write. -/
def CoreSt.wk (c : CoreSt) (w : Nat) : List Xfer := if w = 0 then c.wk0 else if w = 1 then c.wk1 else c.wk2
def CoreSt.setWk (c : CoreSt) (w : Nat) (l : List Xfer) : CoreSt :=
  if w = 0 then { c with wk0 := l } else if w = 1 then { c with wk1 := l } else { c with wk2 := l }

/-- The core runs a task (R81): bundles issue in this state, and in a re-run. -/
def CoreSt.active (c : CoreSt) : Bool := decide (c.mode = .running) || decide (c.mode = .rerun)

/-- The core's task is being aborted: what still runs in it finishes without writing (R123). -/
def CoreSt.aborting (c : CoreSt) : Bool := decide (c.mode = .aborting)

/-! ## Rotation and the tile watchdogs -/

/-- A standby understudy is there (R42, R409), and rotation is on or a SLOT test waits for it (R413). -/
def Dev.rotates (d : Dev) : Bool :=
  decide (d.spare < 7) && !d.flt.rotOff && (decide (0 < d.flt.rotS) || d.flt.tests.any (fun t => t.kind == 1)) &&
    d.flt.takeover.isNone

/-- The logical core whose slot a waiting SLOT test names, the oldest that no skip has passed over (R413). -/
def Dev.testCore (d : Dev) : Option Nat :=
  (d.flt.tests.filter (fun t => t.kind == 1 && !t.passed && decide (d.logicalOf t.arg < 6))).head?.map (fun t => d.logicalOf t.arg)

/-- The logical core of the next rotation step: a SLOT test's, else the next in turn (R409, R413). -/
def Dev.rotCore (d : Dev) : Nat := d.testCore.getD d.flt.rotNext

/-- A step that is due can run on core `k`, with the understudy in standby (R409). -/
def Dev.rotRuns (d : Dev) (k : Nat) : Bool :=
  d.flt.rotDue && d.rotates && k == d.rotCore && decide ((d.slot d.spare).mode = .standby)

/-- A rotation step pauses dispatch to its core: from the completion that lets it run until it has run (R409). -/
def Dev.rotPaused (d : Dev) : Bool := d.flt.rotReady.any d.rotRuns

/-- Whether tile watchdogs are suspended: a takeover or a rotation step is under way (R405, R409). -/
def Dev.wdSuspended (d : Dev) : Bool := d.flt.takeover.isSome || d.rotPaused

/-! ## Outcomes -/

/-- A command whose effect is on the device alone: everything but the arbiters and the queue. A device held in reset or
stopped by a thermal trip does nothing (R389, R449). -/
def onDev (s : State) (d : Dev) : Host.Outcome State Fault Refusal :=
  if s.dev.stop.isSome then .next s else .next { s with dev := d }

/-- A command whose effect is on the arbiters alone. -/
def onArbs (s : State) (a : Vector Arb 84) : Host.Outcome State Fault Refusal :=
  if s.dev.stop.isSome then .next s else .next { s with arbs := a }

end Sys2Proof.Machine
end

