-- ==== Sys2Proof/Machine/Events.lean ====
section
/-! DEFINITION. The event log (R417, R418), the recorder (R421) and MSI-X signalling (R430, R432): where the device
tells the outside what happened. -/

namespace Sys2Proof.Machine

/-! ## Status codes (R419) -/

def stOk : Byte := 0x00#8
def stParityReplayed : Byte := 0x01#8
def stTileReplayed : Byte := 0x02#8
def stCoreTakenOver : Byte := 0x03#8
def stClockSwitched : Byte := 0x04#8
def stWalkerFault : Byte := 0x10#8
def stDecodeBounds : Byte := 0x12#8
def stEmptyOutput : Byte := 0x13#8
def stCoreException : Byte := 0x14#8
def stCommandInvalid : Byte := 0x15#8
def stPoisoned : Byte := 0x16#8
def stCoreLost : Byte := 0x17#8
def stWatchdog : Byte := 0x20#8
def stAccOverflow : Byte := 0x21#8
def stStaleDropped : Byte := 0x30#8
def stLateSample : Byte := 0x31#8
def stGroupPartial : Byte := 0x32#8
def stDegenerate : Byte := 0x40#8
def stBrace : Byte := 0x50#8
def stLeaseExpired : Byte := 0x51#8
def stBusy : Byte := 0x60#8
def stForcedAbort : Byte := 0x61#8
def stLaneSpared : Byte := 0x70#8
def stLinkDown : Byte := 0x71#8
def stBeyondRoster : Byte := 0x7F#8

/-! ## Event log -/

def oneMs : Nat := 1000000

/-- The 32 bytes of an event record (R418). -/
def evBytes (phase : Bool) (e : EvRec) : List Byte :=
  [0x01#8, BitVec.ofNat 8 (b2n phase), BitVec.ofNat 8 e.code, BitVec.ofNat 8 e.unit] ++ leBytes 2 e.index ++
    leBytes 2 (min e.count 65535) ++ leBytes 8 e.ts ++ leBytes 8 e.addr ++ leBytes 4 e.detail ++ leBytes 4 0

/-- Write a record to the configured ring: discarded and counted while it is full; the next one carries the count of
those lost in DETAIL. Answers where it went. -/
def Dev.evWrite (d : Dev) (e : EvRec) : Dev × Option Nat :=
  match d.flt.evRing with
  | none => (d, none)
  | some (base, lg) =>
    if 2 ^ lg ≤ d.flt.evCount - d.loadNat (base + 8) 8 then
      ({ d with flt := { d.flt with evLost := d.flt.evLost + 1 } }, none)
    else
      let a := base + 64 + 32 * d.flt.evIdx
      let e := if d.flt.evLost = 0 then e else { e with detail := d.flt.evLost }
      let n := (d.flt.evIdx + 1) % 2 ^ lg
      let d := (d.store a (evBytes d.flt.evPh e)).store base (leBytes 8 (d.flt.evCount + 1))
      ({ d with flt := { d.flt with
          evIdx := n, evPh := if n = 0 then !d.flt.evPh else d.flt.evPh, evCount := d.flt.evCount + 1, evLost := 0 } },
       some a)

/-- Make a new record: in the ring, or held in the runtime region while no ring was ever configured, up to 64, the
oldest discarded (R417). -/
def Dev.evNew (d : Dev) (e : EvRec) : Dev :=
  if d.flt.block || d.flt.evRing.isSome then
    let (d, pl) := d.evWrite e
    { d with flt := { d.flt with recent := ⟨e, d.now, pl⟩ :: d.flt.recent } }
  else
    let full := decide (64 ≤ d.flt.held.length)
    { d with flt := { d.flt with
        held := (if full then d.flt.held.drop 1 else d.flt.held) ++ [e]
        heldLost := d.flt.heldLost + b2n full
        recent := ⟨e, d.now, none⟩ :: d.flt.recent } }

/-- An event detected at timebase `ts` (R418): merged into the record of the same CODE, UNIT and INDEX made within the
last ms, else a new one. The COUNT of a merged record is updated where the record lies (DESIGN CHOICE, log 20). -/
def Dev.eventAt (d : Dev) (ts : Nat) (code : Byte) (unit index addr detail : Nat) : Dev :=
  let live := d.flt.recent.filter (fun o => decide (d.now ≤ o.first + oneMs))
  let same (o : OpenEv) : Bool := o.ev.code == code.toNat && o.ev.unit == unit && o.ev.index == index
  let d := { d with flt := { d.flt with recent := live } }
  match live.find? same with
  | some o =>
    let e := { o.ev with count := min 65535 (o.ev.count + 1) }
    let d := { d with flt := { d.flt with
      recent := live.map (fun x => if same x then { x with ev := e } else x)
      held := d.flt.held.map (fun x => if x = o.ev then e else x) } }
    match o.place with
    | some a => d.store (a + 6) (leBytes 2 e.count)
    | none => d
  | none => d.evNew ⟨code.toNat, unit, index, 1, ts, addr, detail⟩

/-! ## Recorder (R421) -/

/-- Whether the recorder takes records now: enabled, its ring on, and not stopped after a trigger. -/
def FltSt.recording (f : FltSt) : Bool := f.recEn && f.recLeft != some 0

/-- Append a record, or stop once POST records have followed the trigger; a record that does not fit before the ring's
end starts at the base behind a PAD. -/
def Dev.record (d : Dev) (kind : Nat) (payload : List Byte) : Dev :=
  if !d.flt.recording then d
  else
    let len := 16 + payload.length
    let hdr (k seq n : Nat) : List Byte := leBytes 1 k ++ leBytes 1 0 ++ leBytes 2 (n / 16) ++ leBytes 4 seq ++ leBytes 8 d.tb
    let left := d.flt.recLen - d.flt.recPos
    let pad := decide (left < len)
    let d := if pad && decide (16 ≤ left) then
        d.store (d.flt.recBase + d.flt.recPos) (hdr 0 d.flt.recSeq left ++ List.replicate 0 0#8) else d
    let pos := if pad then 0 else d.flt.recPos
    let seq := if pad then d.flt.recSeq + 1 else d.flt.recSeq
    let d := d.store (d.flt.recBase + pos) (hdr kind (seq % 2 ^ 32) len ++ payload)
    { d with flt := { d.flt with
        recPos := if pos + len = d.flt.recLen then 0 else pos + len
        recSeq := (seq + 1) % 2 ^ 32
        recLeft := d.flt.recLeft.map (· - 1) } }

/-- The trigger's condition occurs: `kind` 1 an aborting task status, 2 an event record. -/
def Dev.trigger (d : Dev) (kind : Nat) : Dev :=
  if d.flt.recEn && d.flt.recTrig == kind && d.flt.recLeft.isNone then
    { d with flt := { d.flt with recLeft := some d.flt.recPost } }
  else d

/-- An event with the recorder's trigger on event records: detected at timebase `ts`, or now. -/
def Dev.logTs (d : Dev) (ts : Nat) (code : Byte) (unit index addr detail : Nat) : Dev :=
  (d.eventAt ts code unit index addr detail).trigger 2
def Dev.log (d : Dev) (code : Byte) (unit index addr detail : Nat) : Dev := d.logTs d.tb code unit index addr detail

/-! ## Upstream requests and MSI-X -/

/-- The function may issue upstream requests (R430). -/
def Dev.master (d : Dev) : Bool := d.pci.busMaster && !d.pci.d3hot

/-- A vector's control word; masked at reset. -/
def PciSt.vecMasked (p : PciSt) (v : Nat) : Bool := (spGet 1#32 p.msixTab (4 * v + 3)).getLsbD 0

/-- Send every pending message that may go (R432). -/
def Dev.msixSend (d : Dev) : Dev :=
  if d.pci.msixEn && !d.pci.msixMask && d.master then
    let go := (upto 64).filter (fun v => d.pci.pba.getLsbD v && !d.pci.vecMasked v)
    { d with pci := { d.pci with
        pba := go.foldl (fun b v => b &&& ~~~(1#64 <<< v)) d.pci.pba
        msgs := d.pci.msgs ++ go } }
  else d

/-- A signalling event on a vector: a message at once, or the PBA bit (R430, R432). -/
def Dev.msix (d : Dev) (v : Nat) : Dev :=
  { d with pci := { d.pci with pba := d.pci.pba ||| (1#64 <<< v) } }.msixSend

end Sys2Proof.Machine
end

