-- ==== Sys2Proof/Machine/Frames.lean ====
section
/-! DEFINITION. Pulse skipping and stretching of the core-slot clocks (R370-R373, R375). -/

namespace Sys2Proof.Machine

/-- Position `p` of a frame is skipped at skip ratio s/16 (R371). -/
def skipped (s p : Nat) : Bool := decide (p * s / 16 < (p + 1) * s / 16)

/-- The sources of R372 that belong to the whole device, but for brace. -/
def Dev.skipWide (d : Dev) : Nat :=
  max (max (d.fld .pwrSkip [] 7 4) (d.fld .pwrSkip [] 11 8)) (max (d.fld .pwrSkip [] 3 0) (d.fld .pwrSkip [] 21 20))

/-- The largest source of slot `p` but brace (R372). -/
def Dev.skipOthers (d : Dev) (p : Fin 7) : Nat := max d.skipWide (d.fld .pwrSlotFloor [] (4 * p.val + 3) (4 * p.val))

/-- A frame boundary (R372): position 0, the sources' present values in force. -/
def Dev.boundary (d : Dev) (p : Fin 7) : Dev :=
  let o := d.skipOthers p
  d.modCore p (fun c => { c with pos := 0, skip := max o (d.fld .pwrSkip [] 15 12), skipOther := o })

/-- One position passes. -/
def Dev.passPos (d : Dev) (p : Fin 7) : Dev :=
  let n := (d.core p).pos + 1
  if 16 ≤ n then d.boundary p else d.modCore p (fun c => { c with pos := n })

/-- Skipped positions pass. -/
def passSkipped : Nat → Dev → Fin 7 → Dev
  | 0, d, _ => d
  | k + 1, d, p => if skipped (d.core p).skip (d.core p).pos then passSkipped k (d.passPos p) p else d

/-- The next delivered position passes: one pulse. A stretched one completes and counts; the next is stretched again
while a detector still trips (R373, R396). -/
def Dev.deliverPulse (d : Dev) (p : Fin 7) : Dev :=
  let d := passSkipped 16 d p
  let d := if (d.core p).stretch = 0 then d else d.incSat .pwrStretch [] 31 0 1
  (d.modCore p (fun c => { c with stretch := b2n c.droop })).passPos p

end Sys2Proof.Machine
end

