-- ==== Sys2Proof/Machine/Bundle.lean ====
section
/-! DEFINITION. Issuing a bundle (R90, R116-R119), its exceptions (R122), its stalls (R118, R129), the delay slot
(R114) and the end of a task by an exception (R123). Each slot's operation says as an `Act` what it reads, what it
writes, why it stalls, what it raises and what it does; `issue` puts a bundle together. -/

namespace Sys2Proof.Machine

/-- Exception causes (R122). -/
inductive Cause where
  | illegalOpcode | illegalOperand | bundleConflict | satchelRange | misaligned | atomicRange | atomicLimit
  | descLimit | pcRange | trap (code : Nat)
deriving DecidableEq, Repr

/-- The code of a cause in CORE_EXC.CAUSE (R122). -/
def Cause.code : Cause → Nat
  | .illegalOpcode => 1 | .illegalOperand => 2 | .bundleConflict => 3 | .satchelRange => 4 | .misaligned => 5
  | .atomicRange => 6 | .atomicLimit => 7 | .descLimit => 8 | .pcRange => 9 | .trap _ => 10

/-- CORE_EXC.TCODE (R127). -/
def Cause.tcode : Cause → Nat
  | .trap c => c
  | _ => 0

/-- Why a slot holds its bundle (R116, R129): `wait` counts in CORE_STALL_WAIT (with the flag of a WAITF, R238),
`issue` in CORE_STALL_ISSUE. -/
inductive Hold where
  | go
  | wait (flag : Option Nat)
  | issue
  /-- A BARRIER that has not been released: it arrives once nothing else holds the bundle (R252). -/
  | arrive
deriving DecidableEq, Repr

/-- What one slot of a bundle does: scalar, vector and mask registers read and written, the latency of its result
(R121), the Satchel bytes an L slot reaches (address and length, R106), the address an atomic names, its exception, its stall, whether it may not
stand in a delay slot, where control goes after the delay slot, what it does before the other slots (the clear of a WAITF
or FCLR, R115), with them (from the state at issue), after the pc moved on, and while a BARRIER holds it. -/
structure Act where
  sR : List Nat := []
  sW : List Nat := []
  vR : List Nat := []
  vW : List Nat := []
  mR : List Nat := []
  mW : List Nat := []
  lat : Nat := 1
  sat : Option (Nat × Nat) := none
  aim : Option Nat := none
  exc : Option Cause := none
  hold : Hold := .go
  noDelay : Bool := false
  branch : Option Nat := none
  pre : CoreSt → CoreSt := id
  eff : Dev → Dev → Dev := fun _ d => d
  post : Dev → Dev := id
  arrive : Dev → Dev := id

/-- The meaning of a slot word: its act at a slot of the device. -/
abbrev Action := Dev → Fin 7 → Act

/-- A slot that raises a cause. -/
def raises (c : Cause) : Act := { exc := some c }

/-- The act where the operands are as the slot's format demands, else ILLEGAL_OPERAND (R93). -/
def guardOp (ok : Bool) (a : Act) : Act :=
  if ok then a
  else { sR := a.sR, sW := a.sW, vR := a.vR, vW := a.vW, mR := a.mR, mW := a.mW, exc := some .illegalOperand }

/-- The act of an all-zero slot (R93). -/
def actNop : Action := fun _ _ => {}

/-- Scalar registers with a write pending (R118): divisions and data atomics in flight, and latencies that still run. -/
def CoreSt.pendS (c : CoreSt) : List Nat :=
  (c.div0.toList.map (·.dest) ++ c.div1.toList.map (·.dest) ++ c.atomics.map (·.dest) ++
    c.pend.filterMap (fun e => match e.1 with | .s n => some n | _ => none)).filter (· != 0)

/-- Vector registers with a write pending (R118). -/
def CoreSt.pendV (c : CoreSt) : List Nat := c.pend.filterMap (fun e => match e.1 with | .v n => some n | _ => none)

/-- Mask registers with a write pending (R118). -/
def CoreSt.pendM (c : CoreSt) : List Nat :=
  (c.pend.filterMap (fun e => match e.1 with | .m n => some n | _ => none)).filter (· != 0)

/-- R118: the act touches a register with a write pending. -/
def CoreSt.blocks (c : CoreSt) (a : Act) : Bool :=
  (a.sR ++ a.sW).any (c.pendS.contains ·) || (a.vR ++ a.vW).any (c.pendV.contains ·) ||
    (a.mR ++ a.mW).any (c.pendM.contains ·)

/-- The registers an act writes; a write to s0 or m0 is none (R94). -/
def Act.writes (a : Act) : List RegRef :=
  (a.sW.filter (· != 0)).map .s ++ a.vW.map .v ++ (a.mW.filter (· != 0)).map .m

/-- Results of latency `lat` are under way to the registers: none issues a dependent bundle before (R118, R121). -/
def CoreSt.addPend (c : CoreSt) (rs : List RegRef) (lat : Nat) : CoreSt :=
  if lat ≤ 1 then c else { c with pend := c.pend ++ rs.map (fun r => (r, lat - 1)) }

/-- A core cycle of the latencies that run. -/
def passPend (l : List (RegRef × Nat)) : List (RegRef × Nat) :=
  l.filterMap (fun e => if e.2 ≤ 1 then none else some (e.1, e.2 - 1))

/-! ## Satchel banks (R106) -/

/-- The banks that `n` bytes from `a` lie in. -/
def banksOf (a n : Nat) : List Nat := (upto ((n + a % 64 + 63) / 64)).map (fun i => (a / 64 + i) % 32)

/-- Bytes of a weight plane (R130). -/
def planeBytes (fmt : Nat) : Nat := if fmt = 6 || fmt = 7 then 8192 else 16384

/-- Bytes of one activation vector (R131). -/
def vecBytes (fmt : Nat) : Nat := if fmt = 10 || fmt = 11 then 256 else 128

/-- Lines of the scale stream a plane load reads beside its plane (R66, R133). -/
def LoadOp.scaleLines (o : LoadOp) : Nat :=
  if 8 ≤ o.fmt ∧ o.fmt ≤ 11 then (if 10 ≤ o.fmt then 256 else 128) / (32 * 2 ^ o.gsize) + 2 else 0

/-- The banks that spans of Satchel bytes lie in. -/
def spanBanks (l : List (Nat × Nat)) : List Nat := l.flatMap (fun r => banksOf r.1 (r.2 - r.1))

/-- The banks a plane load with its scale stream uses in core cycle `now`: line `i` in the `i`-th cycle after its start (R109,
R121, R133; DEDUCED, log 78). -/
def LoadOp.banks (o : LoadOp) (now : Nat) : List Nat :=
  let n := planeBytes o.fmt / 128
  if o.chain then []
  else
    (if now - o.t0 < 128 then banksOf (o.addr + n * (now - o.t0)) n else []) ++
      (if now - o.t0 < o.scaleLines then banksOf (o.saddr + 128 * (now - o.t0)) 128 else [])

/-- The banks a stream uses in core cycle `now`: its prologue's parameter vectors in its first cycle, a vector in the cycle
that it enters the array (R131, R170; DEDUCED, log 78). -/
def RunJob.banks (j : RunJob) (now : Nat) : List Nat :=
  let k := now - j.t0
  (if k = 0 then spanBanks j.vecs else []) ++
    (if j.lead ≤ k ∧ (k - j.lead) % j.pitch = 0 ∧ (k - j.lead) / j.pitch < j.op.count then
      banksOf (j.op.addr + 128 * j.op.stride * ((k - j.lead) / j.pitch)) (vecBytes j.op.fmt)
    else [])

/-- The banks of the residual rows an epilogue reads in core cycle `now` (R164, R166). -/
def EpiJob.reads (j : EpiJob) (now : Nat) : List Nat :=
  if now - j.t0 < j.op.count then j.resid.flatMap (fun r => banksOf (r.1 + r.2.1 * (now - j.t0)) r.2.2) else []

/-- The banks an epilogue uses in core cycle `now`: its vectors and records in its first cycle, a row with its residual rows in
each (R109, R121, R166; DEDUCED, log 78). -/
def EpiJob.banks (j : EpiJob) (now : Nat) : List Nat :=
  (if now - j.t0 = 0 then spanBanks j.vecs else []) ++
    (if now - j.t0 < j.op.count then banksOf (j.op.addr + 128 * j.op.stride * (now - j.t0)) j.width else []) ++ j.reads now

/-- The banks an array's plane load and its streams use in core cycle `now`. No vector enters a held array (R377). -/
def ArrSt.feed (a : ArrSt) (now : Nat) (held : Bool) : List Nat :=
  a.loading.toList.flatMap (·.banks now) ++ (if held then [] else a.runs.flatMap (·.banks now))

/-- A walker transfer of the core is under way. -/
def CoreSt.walking (c : CoreSt) : Bool := (c.wk0 ++ c.wk1 ++ c.wk2).any (·.started)

/-- A walker of slot `p` takes bank `b` in this core cycle (R106): a free value. -/
def Dev.walkerTakes (d : Dev) (p : Fin 7) (b : Nat) : Bool :=
  (d.core p).walking && Config.walkerBank d.free p.val (d.core p).totCyc b

/-- R166: a RESID read of array A's epilogue meets a bank busy with an array's stream or plane load, or a walker; one of array
B's also with A's epilogue, which goes first (DEDUCED, log 78). The epilogue stalls for the cycle. -/
def CoreSt.epiStalls (c : CoreSt) (held : Bool) (walk : Nat → Bool) : Bool × Bool :=
  let feed := c.arrA.feed c.totCyc held ++ c.arrB.feed c.totCyc held
  let meets (a : ArrSt) (more : List Nat) := (a.epis.flatMap (·.reads c.totCyc)).any (fun b => (feed ++ more).contains b || walk b)
  let x := meets c.arrA []
  (x, meets c.arrB (if x then [] else c.arrA.epis.flatMap (·.banks c.totCyc)))

/-- The banks that the arrays of slot `p` use in this core cycle: their plane loads, their streams and the epilogues that do not
stall (R106, R166). -/
def Dev.arrayBanks (d : Dev) (p : Fin 7) : List Nat :=
  let c := d.core p
  let st := c.epiStalls d.arraysHeld (d.walkerTakes p)
  c.arrA.feed c.totCyc d.arraysHeld ++ c.arrB.feed c.totCyc d.arraysHeld ++
    (if st.1 then [] else c.arrA.epis.flatMap (·.banks c.totCyc)) ++ (if st.2 then [] else c.arrB.epis.flatMap (·.banks c.totCyc))

/-- The banks of each L slot of a bundle. -/
def satBanks (acts : List (Nat × Act)) : List (List Nat) := acts.filterMap (fun e => e.2.sat.map (fun x => banksOf x.1 x.2))

/-- Both L slots want one bank. -/
def pairMeets : List (List Nat) → Bool
  | [] => false
  | x :: r => r.any (fun y => x.any (y.contains ·)) || pairMeets r

/-- R106: an L slot finds a bank busy with the other L slot (for one core cycle), an array or a walker. -/
def Dev.bankBusy (d : Dev) (p : Fin 7) (acts : List (Nat × Act)) : Bool :=
  let bs := satBanks acts
  (!(d.core p).bankRetry && pairMeets bs) || bs.flatten.any (fun b => (d.arrayBanks p).contains b || d.walkerTakes p b)

/-- R119: the act writes a register that an earlier slot of the bundle writes; s0 and m0 do not count (R94). -/
def clash (a : Act) (earlier : List Act) : Bool :=
  earlier.any (fun b =>
    (a.sW.filter (· != 0)).any (b.sW.contains ·) || a.vW.any (b.vW.contains ·) ||
    (a.mW.filter (· != 0)).any (b.mW.contains ·))

/-- The first exception of a bundle in slot order: a slot's own cause, then a register clash (R119, R122). Of two causes of
one slot the spec ranks range over alignment alone; DESIGN CHOICE (log 79): an operation forbidden in a delay slot (R114)
goes before the slot's own cause, and that before a register clash; ILLEGAL_OPERAND before the other own causes. -/
def firstExc (inDelay : Bool) : List (Nat × Act) → List Act → Option (Nat × Cause)
  | [], _ => none
  | (i, a) :: r, seen =>
    if inDelay && a.noDelay then some (i, .bundleConflict)
    else
      match a.exc with
      | some c => some (i, c)
      | none => if clash a seen then some (i, .bundleConflict) else firstExc inDelay r (a :: seen)

/-- How the bundle is held: a control wait counts as a wait, anything else as lost to issue (DEDUCED, log 16). The wait of
the control slot, with its flag, goes before that of slot X (R238). -/
def firstHold (d : Dev) (p : Fin 7) (acts : List (Nat × Act)) : Hold :=
  match acts.reverse.find? (fun e => match e.2.hold with | .wait _ => true | _ => false) with
  | some e => e.2.hold
  | none =>
    if acts.any (fun e => decide (e.2.hold = .issue) || (d.core p).blocks e.2) || d.bankBusy p acts then .issue
    else if acts.any (fun e => decide (e.2.hold = .arrive)) then .arrive else .go

/-- Every matrix-slot operation and every atomic of the core has completed (R83, R89). -/
def CoreSt.quiet (c : CoreSt) : Bool :=
  let q (a : ArrSt) := a.queue.isEmpty && a.loading.isNone && a.runs.isEmpty && a.epis.isEmpty
  q c.arrA && q c.arrB && c.atomics.isEmpty

/-- An MRUN at the head of the queue waits for the array's ramp (R152). -/
def ArrSt.rampWaits (a : ArrSt) : Bool :=
  match a.queue with
  | .run _ :: _ => decide (a.pwr ≠ .on)
  | _ => false

/-- Core cycles from an MRUN's start until the last of its vectors has entered its array (R131, R170). -/
def RunJob.span (j : RunJob) : Nat := j.lead + j.pitch * (j.op.count - 1) + 1

/-- Vectors of an MRUN have still to enter its array (R131). -/
def RunJob.streams (j : RunJob) (now : Nat) : Bool := decide (now - j.t0 < j.span)

/-- A core cycle of an array: its idle count; a held array's streams and a stalled epilogue stand (R152, R166, R377). -/
def ArrSt.tick (a : ArrSt) (held : Bool) (now : Nat) (stalls : Bool := false) : ArrSt :=
  { a with runs := if held then a.runs.map (fun j => if j.streams now then { j with t0 := j.t0 + 1 } else j) else a.runs
           epis := if stalls then a.epis.map (fun j => { j with t0 := j.t0 + 1 }) else a.epis
           idle := if a.runs.isEmpty && !a.queue.any (fun o => match o with | .run _ => true | _ => false) then a.idle + 1 else 0 }

/-- A core cycle of a slot: its counts, the latencies that run, its arrays (R10, R95, R121, R128). CYCLES counts on while a
re-run reloads; the tile watchdog does not. -/
def CoreSt.cycle (c : CoreSt) (susp held : Bool) (walk : Nat → Bool) : CoreSt :=
  let st := c.epiStalls held walk
  { c with totCyc := c.totCyc + 1
           cyc := if c.active then c.cyc + 1 else c.cyc
           tileCyc := if c.active && !c.reloading && !susp then c.tileCyc + 1 else c.tileCyc
           pend := passPend c.pend
           arrA := c.arrA.tick held c.totCyc st.1
           arrB := c.arrB.tick held c.totCyc st.2 }

/-- One core cycle of slot `p` passes: a delivered pulse (R10, R152, R371). -/
def Dev.coreCycle (d : Dev) (p : Fin 7) : Dev :=
  let d := d.deliverPulse p
  let d := if (d.core p).arrA.rampWaits || (d.core p).arrB.rampWaits then d.incSat .coreArrRampWait [p.val] 31 0 1 else d
  d.modCore p (·.cycle d.wdSuspended d.arraysHeld (d.walkerTakes p))

/-- The counter of CORE_HALO_CTL that a WAITF on flag `f` counts in (R238). -/
def Dev.haloCount (d : Dev) (p : Fin 7) (f : Nat) : Dev :=
  let i := [p.val]
  if d.flag .coreHaloCtl i 31 then
    if d.fld .coreHaloCtl i 5 0 = f then d.incSat .coreHaloRdyUp i 31 0 1
    else if d.fld .coreHaloCtl i 11 6 = f then d.incSat .coreHaloRdyDn i 31 0 1
    else if d.fld .coreHaloCtl i 17 12 = f then d.incSat .coreHaloSpcUp i 31 0 1
    else if d.fld .coreHaloCtl i 23 18 = f then d.incSat .coreHaloSpcDn i 31 0 1
    else d
  else d

/-- A cycle in which the bundle did not issue (R116, R129). -/
def Dev.stall (d : Dev) (p : Fin 7) : Hold → Dev
  | .go => d
  | .arrive => d.incSat .coreStallWait [p.val] 31 0 1
  | .issue => d.incSat .coreStallIssue [p.val] 31 0 1
  | .wait f =>
    let d := d.incSat .coreStallWait [p.val] 31 0 1
    match f with
    | some f => d.haloCount p f
    | none => d

/-- An array in which nothing is queued or runs. -/
def ArrSt.still (a : ArrSt) : ArrSt := { a with queue := [], loading := none, runs := [], epis := [], waitsGrant := false }

/-- What an aborted task's arrays keep (R123): operations not started are discarded; a running one goes on and finishes without
writing. A chain MLOAD that no plane has reached has nothing to finish: the planes pass its core by (R204), so it is
discarded too (DEDUCED, log 80). -/
def ArrSt.abort (a : ArrSt) : ArrSt :=
  { a with queue := [], loading := a.loading.filter (fun o => !o.chain || o.got.isSome), waitsGrant := false }

/-- R123 steps 1-5 with the given aborting status: the first detected status stands (R420); unreleased writes are
discarded, atomics in flight complete with their results discarded. An arrival of the task at a barrier is withdrawn
(DESIGN CHOICE, log 21), and so are its outstanding AWATCHes, of which the steps say nothing (DESIGN CHOICE, log 80). -/
def Dev.endTask (d : Dev) (p : Fin 7) (status : Byte) : Dev :=
  let d : Dev := { d with bar := { d.bar with arr := d.bar.arr.filter (fun a => a.slot != p.val) }
                          rampReq := d.rampReq.filter (fun r => r.2.1 != p.val) }
  d.modCore p (fun c =>
    { c with mode := .aborting
             ended := true
             delay := none
             reloading := false
             abort := some (c.abort.getD (if c.carryBad then stPoisoned else status))
             arrA := c.arrA.abort
             arrB := c.arrB.abort
             div0 := none
             div1 := none
             atomics := c.atomics.map (fun a => { a with dest := 0 })
             watches := []
             wk2 := c.wk2.filter (·.released) })

/-- A walker fault's further step (R199): transfers that have not started are discarded in every walker. -/
def Dev.dropUnstarted (d : Dev) (p : Fin 7) : Dev :=
  d.modCore p (fun c =>
    { c with wk0 := c.wk0.filter (·.started)
             wk1 := c.wk1.filter (·.started)
             wk2 := c.wk2.filter (fun x => x.started || x.released) })

/-- R123: an exception of slot `i` with a cause ends the task and is recorded in CORE_EXC (R127). -/
def Dev.except (d : Dev) (p : Fin 7) (pc i : Nat) (c : Cause) : Dev :=
  (d.setRg .coreExc [p.val] (BitVec.ofNat 32 (pc * 2 ^ 20 + c.tcode * 2 ^ 11 + i * 2 ^ 8 + c.code))).endTask p
    stCoreException

/-- The address that the atomic of slot `i` names, where its range is the cause (R111). -/
def aimOf (acts : List (Nat × Act)) (i : Nat) : Cause → Nat
  | .atomicRange => ((acts.find? (fun e => e.1 == i)).bind (·.2.aim)).getD 0
  | _ => 0

/-- A bundle raises an exception; an atomic that names the Proctor region counts as an access there (R36). -/
def Dev.raise (d : Dev) (p : Fin 7) (pc : Nat) (acts : List (Nat × Act)) (i : Nat) (c : Cause) : Dev :=
  (d.except p pc i c).viol (aimOf acts i c)

/-- Whether slot `p` issues bundles now: a task runs, is not being reloaded, has not ended, and the slot is clocked. -/
def CoreSt.issues (c : CoreSt) : Bool :=
  c.active && !c.reloading && !c.ended && !c.stopped && !c.frozen

/-- Put the slot acts in order, at most one per slot. -/
def sortActs : List (Nat × Act) → List (Nat × Act)
  | [] => []
  | x :: r =>
    let rec ins (x : Nat × Act) : List (Nat × Act) → List (Nat × Act)
      | [] => [x]
      | y :: ys => if x.1 < y.1 then x :: y :: ys else if x.1 = y.1 then x :: ys else y :: ins x ys
    ins x (sortActs r)

/-- Where control goes after the bundle at `pc`: the target of an earlier branch whose delay slot this was, else the
next bundle; and the delay slot a branch in this bundle opens (R114). -/
def nextPc (c : CoreSt) (acts : List (Nat × Act)) : Nat × Option Nat :=
  let br := (acts.filterMap (fun e => e.2.branch)).head?
  match c.delay with
  | some t => (t, br)
  | none => (c.pc + 1, br)

/-- The bundle takes effect (R116, R117): every slot from the state `snap` at issue, then the pc (behind an END too: log 111),
then what follows it, in slot order and not after one of them has ended the task (R199, R205). -/
def Dev.runBundle (snap d : Dev) (p : Fin 7) (acts : List (Nat × Act)) : Dev :=
  let c := snap.core p
  let d1 := d.modCore p (fun c => acts.foldl (fun c e => (e.2.pre c).addPend e.2.writes e.2.lat) c)
  let d2 := acts.foldl (fun x e => e.2.eff snap x) d1
  let (n, br) := nextPc c acts
  let d3 := d2.modCore p (fun c => { c with pc := n % 4096, delay := br, bankRetry := false })
  let d4 := acts.foldl (fun x e => if (x.core p).ended then x else e.2.post x) d3
  if n < 4096 || (d4.core p).ended then d4
  else (d4.modCore p (fun c => { c with pc := 4095 })).except p 4095 7 .pcRange

/-- One core cycle of a slot with the given bundle: it stalls, raises an exception, or takes effect (R116, R122). A bundle
that must stall and also holds an exception raises it once nothing holds it any more (DESIGN CHOICE, log 79). -/
def Dev.issue (d : Dev) (p : Fin 7) (acts : List (Nat × Act)) : Dev :=
  let c := d.core p
  if !c.issues then d
  else
    let d0 := d.coreCycle p
    match firstHold d p acts with
    | .go =>
      match firstExc c.delay.isSome acts [] with
      | some (i, cause) => d0.raise p c.pc acts i cause
      | none => d.runBundle d0 p acts
    | .arrive =>
      match firstExc c.delay.isSome acts [] with
      | some (i, cause) => d0.raise p c.pc acts i cause
      | none => (acts.foldl (fun x e => e.2.arrive x) d0).stall p .arrive
    | h => (d0.stall p h).modCore p (fun c => { c with bankRetry := c.bankRetry || pairMeets (satBanks acts) })

end Sys2Proof.Machine
end

