-- ==== Sys2Proof/Machine/Packets.lean ====
section
/-! DEFINITION. Kwaos packets and flits (R348, R349, R355-R357) and the sending side of the links: routing (R362,
R363), credits and the replay buffer (R350, R351). -/

namespace Sys2Proof.Machine

/-- Packet kinds (R357). -/
def kRead : Nat := 0x01
def kWrite : Nat := 0x02
def kAtomic : Nat := 0x03
def kBarArrive : Nat := 0x04
def kMgmt : Nat := 0x10
def kRdata : Nat := 0x81
def kWack : Nat := 0x82
def kAresult : Nat := 0x83
def kBarRelease : Nat := 0x84
def kError : Nat := 0x8F

/-- The class of a kind: 0 request, 1 response, 2 management (R357). -/
def kindClass (k : Nat) : Nat := if k = kMgmt then 2 else if 0x81 ≤ k then 1 else 0

/-- Data bytes a packet of a kind carries (R356, R357). -/
def kindData (k len : Nat) : Nat :=
  if k = kWrite || k = kMgmt || k = kRdata then 64 * len else if k = kAtomic || k = kAresult then 32 else 0

/-- The parity of the low `n` bits. -/
def parity (n x : Nat) : Bool := ((upto n).filter (bit x)).length % 2 == 1

/-- A flit with its word parity and sideband (R349). -/
def mkFlit (data : Nat) (fkind queue : Nat) (last : Bool) : Flit :=
  let s := fkind * 64 + queue * 8 + b2n last * 4
  { data := BitVec.ofNat 256 data
    par := BitVec.ofNat 8 (packLanesP ((upto 8).map (fun i => b2n (parity 32 (data >>> (32 * i))))))
    side := BitVec.ofNat 8 (s + b2n (parity 8 s)) }
where
  packLanesP (l : List Nat) : Nat := l.foldr (fun x acc => acc * 2 + x) 0

/-- A packet's header flit as a number (R356). -/
def headerBits (p : Packet) : Nat :=
  p.addr.toNat + p.kind.toNat * 2 ^ 56 + p.src.toNat * 2 ^ 64 + p.unit.toNat * 2 ^ 72 + p.tag.toNat * 2 ^ 80 +
    p.len.toNat * 2 ^ 96 + p.stat.toNat * 2 ^ 104 + p.flags.toNat * 2 ^ 112 + p.aux.toNat * 2 ^ 120 +
    p.mask.toNat * 2 ^ 128 + p.lasta.toNat * 2 ^ 192

/-- The header of a packet from a header flit's bits; data to follow. -/
def headerOf (x : Nat) : Packet :=
  { addr := BitVec.ofNat 56 x, kind := BitVec.ofNat 8 (x >>> 56), src := BitVec.ofNat 8 (x >>> 64)
    unit := BitVec.ofNat 8 (x >>> 72), tag := BitVec.ofNat 16 (x >>> 80), len := BitVec.ofNat 8 (x >>> 96)
    stat := BitVec.ofNat 8 (x >>> 104), flags := BitVec.ofNat 8 (x >>> 112), aux := BitVec.ofNat 8 (x >>> 120)
    mask := BitVec.ofNat 64 (x >>> 128), lasta := BitVec.ofNat 64 (x >>> 192), data := [] }

/-- 32-byte pieces of a packet's data. -/
def chunks32 : Nat → List Byte → List (List Byte)
  | 0, _ => []
  | _, [] => []
  | k + 1, bs => bs.take 32 :: chunks32 k (bs.drop 32)

/-- The flits of a packet on a queue (R355). -/
def packetFlits (queue : Nat) (p : Packet) : List Flit :=
  let cs := chunks32 9 p.data
  mkFlit (headerBits p) 1 queue cs.isEmpty ::
    (cs.zip (upto cs.length)).map (fun e => mkFlit (leNat e.1) 2 queue (e.2 + 1 == cs.length))

/-- A packet with the fields most kinds leave at 0. -/
def mkPacket (addr kind src unit tag : Nat) : Packet :=
  { addr := BitVec.ofNat 56 addr, kind := BitVec.ofNat 8 kind, src := BitVec.ofNat 8 src, unit := BitVec.ofNat 8 unit
    tag := BitVec.ofNat 16 tag, len := 0#8, stat := 0#8, flags := 0#8, aux := 0#8, mask := 0#64, lasta := 0#64
    data := [] }

/-- The device's ID, where it holds one (R347). -/
def Dev.ownId (d : Dev) : Option Nat :=
  let st := d.fld .chnStat [] 31 29
  if st = 1 ∨ st = 2 then some (d.fld .chnStat [] 7 0) else none

/-- A port number as an index. -/
def finPort (k : Nat) : Option (Fin 4) := if h : k < 4 then some ⟨k, h⟩ else none

/-- A port's state. -/
def Dev.port (d : Dev) (k : Fin 4) : LinkPort := d.lnk.ports[k]
def Dev.setPort (d : Dev) (k : Fin 4) (x : LinkPort) : Dev := { d with lnk := { d.lnk with ports := d.lnk.ports.set k x } }

/-- The receiver frees buffers (queue, how many): their credits go back in one link-control flit, with the good flits up to
now acknowledged (R350, R351; at once: DESIGN CHOICE, log 29). -/
def LinkPort.unbufferAll (x : LinkPort) (l : List (Nat × Nat)) : LinkPort :=
  { x with rxBuf := l.foldl (fun b e => modAt b e.1 (· - e.2)) x.rxBuf, unacked := 0
           ctl := some (.ack x.rx (l.foldl (fun b e => modAt b e.1 (· + e.2)) x.rxFree)), rxFree := [0, 0, 0, 0, 0] }

/-- The receiver frees `n` buffers of queue `q`. -/
def LinkPort.unbuffer (x : LinkPort) (q n : Nat) : LinkPort := x.unbufferAll [(q, n)]

/-- Packets in transit that no longer wait free their buffers at the ports they came in by, those of one port together (R351). -/
def Dev.freePassing (d : Dev) : Dev :=
  let waits (e : Passing) : Bool := ((d.lnk.ports.toList.getD e.out {}).wait.contains (e.queue, e.pkt))
  let gone := d.lnk.passing.filter (fun e => !waits e)
  ([0, 1, 2, 3] : List (Fin 4)).foldl (fun (d : Dev) k =>
      let l := gone.filter (fun e => e.inp == k.val)
      if l.isEmpty then d else d.setPort k ((d.port k).unbufferAll (l.map (fun e => (e.inq, e.flits)))))
    { d with lnk := { d.lnk with passing := d.lnk.passing.filter waits } }

/-- A port starts afresh: what waited at it is gone, and so are the buffers packets in transit held there. -/
def Dev.freshPort (d : Dev) (k : Fin 4) (x : LinkPort) : Dev :=
  (({ d with lnk := { d.lnk with passing := d.lnk.passing.filter (fun e => e.inp != k.val) } } : Dev).setPort k x).freePassing

/-- A packet goes out: its flits on the wire and in the replay buffer, each against a credit (R350, R351). -/
def LinkPort.put (x : LinkPort) (q : Nat) (p : Packet) : LinkPort :=
  let fl := packetFlits q p
  { x with
    wire := x.wire ++ fl
    replay := x.replay ++ (fl.zip (upto fl.length)).map (fun e => ((x.tx + 1 + e.2) % 2 ^ 16, q, e.1))
    tx := (x.tx + fl.length) % 2 ^ 16
    credits := modAt x.credits q (· - fl.length) }

/-- Every flit of a packet has a credit, and the replay buffer has room for them. -/
def LinkPort.takes (x : LinkPort) (q : Nat) (p : Packet) : Bool :=
  let n := (packetFlits q p).length
  decide (n ≤ x.credits.getD q 0 ∧ x.replay.length + n ≤ 512)

/-- Send waiting packets while credits and the replay buffer last (R350, R351). A packet that must wait holds those of its
own queue alone (R367): `held` lists the queues it holds. -/
def launchFrom (x : LinkPort) (held : List Nat) : List (Nat × Packet) → LinkPort
  | [] => x
  | (q, p) :: r =>
    if !held.contains q && x.takes q p then launchFrom (x.put q p) held r
    else launchFrom { x with wait := x.wait ++ [(q, p)] } (q :: held) r

def launch (x : LinkPort) : LinkPort := launchFrom { x with wait := [] } [] x.wait

/-- Put a packet on a port's queue; a port that is not up discards and counts it (R354), and so does one that cannot send a
management packet at once, since management traffic is never held (R359; DESIGN CHOICE, log 96). -/
def Dev.toPort (d : Dev) (k : Fin 4) (queue : Nat) (p : Packet) : Dev :=
  let st := d.fld .lnkStat [k.val] 31 29
  let x := d.port k
  if st = 2 ∨ st = 3 then
    if kindClass p.kind.toNat = 2 then
      if st = 2 ∧ x.takes queue p then d.setPort k (x.put queue p) else d.incSat .lnkErr [k.val] 23 16 1
    else
      let x := { x with wait := x.wait ++ [(queue, p)] }
      (d.setPort k (if st = 2 then launch x else x)).freePassing
  else d.incSat .lnkErr [k.val] 23 16 1

/-- The queue of a class and VC (R349); with CLASSES = 1 every packet, a management packet too, takes the request queues
(R365). -/
def Dev.queueOf (d : Dev) (cls vc : Nat) : Nat :=
  if d.flag .lnkFabCtl [] 30 then vc else if cls = 2 then 4 else 2 * cls + vc

/-- The output port of a route entry, `none` where it is invalid (R363). -/
def Dev.routeOf (d : Dev) (t : Nat) : Option Nat :=
  if t < 192 ∧ d.flag .lnkRoute [t] 31 ∧ d.fld .lnkRoute [t] 2 0 ≤ 4 then some (d.fld .lnkRoute [t] 2 0) else none

/-- DIM and DATELINE in force follow the registers (R354). -/
def Dev.dimsNow (d : Dev) : Dev :=
  { d with lnk := { d.lnk with dims := (upto 4).map (fun k => d.fld .lnkCtl [k] 29 28) } }

/-- The VC of a packet through port `k`: from `inp` (arrival port and its VC), or leaving its source (R362). -/
def Dev.vcFor (d : Dev) (k : Nat) (inp : Option (Nat × Nat)) : Nat :=
  let dim (k : Nat) : Nat := d.lnk.dims.getD k 0
  let v :=
    match inp with
    | none => 0
    | some (i, v) => if bit (dim i) 1 != bit (dim k) 1 then 0 else v
  if bit (dim k) 0 then 1 else v

/-- The route to device `t` stays here: PORT 4, local (R365). -/
def Dev.routedHere (d : Dev) (t : Nat) : Bool := d.ownId.isSome && d.flag .lnkFabCtl [] 31 && d.routeOf t == some 4

/-- Send a packet to device `t` as its source: nothing is sent where the device has no ID, EN is 0 or the entry is
invalid (R347, R363). -/
def Dev.sendPkt (d : Dev) (t : Nat) (p : Packet) : Dev :=
  if d.ownId.isNone || !d.flag .lnkFabCtl [] 31 then d
  else
    match d.routeOf t with
    | some k =>
      match finPort k with
      | some f => d.toPort f (d.queueOf (kindClass p.kind.toNat) (d.vcFor k none)) p
      | none => d
    | none => d

/-- The next transaction tag. -/
def Dev.takeTag (d : Dev) : Dev × Nat :=
  ({ d with lnk := { d.lnk with nextTag := (d.lnk.nextTag + 1) % 2 ^ 16 } }, d.lnk.nextTag)

end Sys2Proof.Machine
end

