-- ==== Sys2Proof/Machine/Barriers.lean ====
section
/-! DEFINITION. Barriers and dismissal (R252-R255, R364): who takes part, when all have arrived, the tree of system
barriers, the hold of a dismissal. -/

namespace Sys2Proof.Machine

/-- TT_BAR_DEV.MASK as it is in effect. -/
def Dev.barMask (d : Dev) : Nat := d.fld .ttBarDev [] 5 0

/-- The task entry at a table index. -/
def Dev.entry (d : Dev) (i : Nat) : Option TEntry := (d.tt.entries.find? (fun e => e.1 == i)).map (·.2)

/-- The logical cores of the instances of the task at an entry (R247). -/
def TEntry.instances (e : TEntry) : List Nat := e.live ++ e.ends.map (·.core)

/-- An arrival that waits for its barrier to release: one already released or held by a dismissal counts no more. -/
def BarArr.waits (a : BarArr) : Bool := !a.released && !a.held

/-- Slot `p` has an arrival at a barrier. -/
def Dev.arrivedAt (d : Dev) (level id p : Nat) : Bool :=
  d.bar.arr.any (fun a => a.level == level && a.id == id && a.slot == p && a.waits)

/-- Every core of MASK has arrived at a device or system barrier; with an empty MASK there is none to wait for. -/
def Dev.localArrived (d : Dev) (level id : Nat) : Bool :=
  (upto 6).all (fun k => !bit d.barMask k || d.arrivedAt level id (d.slotOf k))

/-- Every instance of an entry's task has arrived at a core barrier. -/
def Dev.instancesArrived (d : Dev) (entry id : Nat) : Bool :=
  match d.entry entry with
  | some e => e.instances.all (fun k => d.bar.arr.any (fun a => a.level == 0 && a.id == id && a.entry == entry && a.slot == d.slotOf k && a.waits))
  | none => false

/-- The roster holds one device (R253). -/
def Dev.oneDevice (d : Dev) : Bool := d.ownId.isSome && d.fld .chnStat [] 15 8 == 1

/-- The ports that lead to barrier children; a one-device system has none (R253). -/
def Dev.childPorts (d : Dev) : List Nat :=
  if d.oneDevice then [] else (upto 4).filter (fun k => bit (d.fld .lnkFabCtl [] 3 0) k)

/-- This device is the root of the barrier tree. -/
def Dev.barRoot (d : Dev) : Bool := d.oneDevice || d.fld .lnkFabCtl [] 10 8 == 4

/-- Everything below this device has arrived at a system barrier (R364); a device with neither participants nor children
waits for none. -/
def Dev.subtreeArrived (d : Dev) (id : Nat) : Bool :=
  d.ownId.isSome && (decide (d.barMask ≠ 0) || !d.childPorts.isEmpty) && d.localArrived 2 id && d.childPorts.all (fun k => d.bar.child.contains (id, k))

/-- Send a barrier packet to a neighbour: LEVEL and ID in TAG (R364). -/
def Dev.sendBar (d : Dev) (port kind id : Nat) : Dev :=
  match finPort port with
  | some k =>
    if d.flag .lnkFabCtl [] 31 then
      d.toPort k (d.queueOf (kindClass kind) (d.vcFor port none)) (mkPacket 0 kind (d.ownId.getD 0) 0 (2048 + id))
    else d
  | none => d

/-- Combine (R364): once everything below has arrived, a device that is not the root sends BAR_ARRIVE to its parent. -/
def Dev.combine (d : Dev) (id : Nat) : Dev :=
  let par := d.fld .lnkFabCtl [] 10 8
  if d.subtreeArrived id && !d.barRoot && decide (par < 4) && !d.bar.sentUp.contains id then
    let d : Dev := { d with bar := { d.bar with sentUp := id :: d.bar.sentUp } }
    d.sendBar par kBarArrive id
  else d

/-- Slot `p` arrives at a barrier; a slot that waits under its first arrival does not arrive again (R255). -/
def Dev.arrive (d : Dev) (p : Fin 7) (level id : Nat) : Dev :=
  if d.bar.arr.any (fun a => a.slot == p.val && a.level == level && a.id == id) then d
  else
    let d : Dev := { d with bar := { d.bar with
      arr := d.bar.arr ++ [{ level := level, id := id, slot := p.val, entry := (d.core p).entry }] } }
    if level = 2 then d.combine id else d

/-- Let the arrivals of a barrier pass: those that `f` accepts. -/
def Dev.letPass (d : Dev) (f : BarArr → Bool) : Dev :=
  { d with bar := { d.bar with arr := d.bar.arr.map (fun a => if f a then { a with released := true } else a) } }

/-- A system barrier is released at this device (R254, R364): down every child port, and here at once or after the
hold of a dismissal. -/
def Dev.sysRelease (d : Dev) (id : Nat) : Dev :=
  let d := d.childPorts.foldl (fun d k => d.sendBar k kBarRelease id) d
  let d : Dev := { d with bar := { d.bar with
    child := d.bar.child.filter (fun c => c.1 != id), sentUp := d.bar.sentUp.filter (· != id) } }
  if d.flag .ttBarDev [] 31 && decide (d.ownId.getD 0 % 16 ≠ 0) then
    { d with bar := { d.bar with
      hold := d.bar.hold ++ [id]
      arr := d.bar.arr.map (fun a => if a.level == 2 && a.id == id && a.waits then { a with held := true } else a) } }
  else d.letPass (fun a => a.level == 2 && a.id == id)

/-- BARRIER_RELEASE (R252-R254): a core barrier of slot `p`'s task, the device barrier, or the system barrier at the
root, once every participant has arrived. -/
def Dev.barrierRelease (d : Dev) (level id : Nat) (p : Fin 7) : Dev :=
  if level = 0 then
    let e := (d.core p).entry
    if d.instancesArrived e id then d.letPass (fun a => a.level == 0 && a.id == id && a.entry == e) else d
  else if level = 1 then
    if d.localArrived 1 id then d.letPass (fun a => a.level == 1 && a.id == id) else d
  else if d.barRoot && d.subtreeArrived id then d.sysRelease id
  else d

/-- DISMISS_HOLD_EXPIRE (R254): the oldest held release takes effect. -/
def Dev.dismissHold (d : Dev) : Dev :=
  match d.bar.hold with
  | [] => d
  | id :: r =>
    let d : Dev := { d with bar := { d.bar with hold := r } }
    d.letPass (fun a => a.level == 2 && a.id == id && a.held)

/-- A device or system barrier has arrivals pending (R268). -/
def Dev.barPending (d : Dev) : Bool :=
  d.bar.arr.any (fun a => decide (1 ≤ a.level) && !a.released) || !d.bar.child.isEmpty

/-- BARRIER_MASK_APPLY (R268): a written MASK takes effect once no device or system barrier has arrivals pending. -/
def Dev.barMaskApply (d : Dev) : Dev :=
  match d.bar.stage with
  | none => d
  | some m =>
    if d.barPending then d
    else
      let d : Dev := { d with bar := { d.bar with stage := none } }
      d.setFld .ttBarDev [] 5 0 m

end Sys2Proof.Machine
end

