-- ==== Sys2Proof/Machine/Chains.lean ====
section
/-! DEFINITION. Chain descriptors and function tables (R158-R163, R171), the prologue (R168-R170, R178), the epilogue
(R164-R167) and the row tallies (R172-R174, R177). -/

namespace Sys2Proof.Machine

/-! ## Elements -/

/-- Lanes packed into a vector, lane 0 lowest. -/
def packLanes (w : Nat) (l : List Nat) : Nat := l.foldr (fun x acc => acc * 2 ^ w + x % 2 ^ w) 0

/-- FP32 elements of little-endian bytes. -/
def f32s : List Byte → List W32
  | a :: b :: c :: e :: r => BitVec.ofNat 32 (leNat [a, b, c, e]) :: f32s r
  | _ => []

/-- Element `n` of an accumulator row (R137). -/
def accEl (x : AccRow) (n : Nat) : W32 := BitVec.ofNat 32 (x.toNat >>> (32 * n))

/-- A row of 128 elements. -/
def accRow (l : List W32) : AccRow := BitVec.ofNat 4096 (packLanes 32 (l.map (·.toNat)))

/-- Signed value of an INT32 element. -/
def i32 (x : W32) : Int := x.toInt

/-- The FP32 value of a long accumulator of two halves, in units of 2^-12 (R71, R138). -/
def longF32 (hi lo : W32) : W32 := f32OfInt (sgn 64 (hiLo hi lo)) (-12)

/-! ## Descriptors -/

/-- A chain descriptor (R159, R160). -/
structure Chd where
  v : Bool
  dir : Bool
  path : Bool
  tstart : Bool
  fmt : Nat
  ncol : Nat
  relu : Nat
  ops : List Nat
  args : List Nat
  cap : Nat
  zp : Nat
  prm : List W32

/-- Descriptor `i` (1-15) of a slot. -/
def chd (d : Dev) (p i : Nat) : Chd :=
  let ix := [p, i - 1]
  let ctl := (d.rg .coreChdCtl ix).toNat
  let ops := (d.rg .coreChdOps ix).toNat
  let args := (d.rg .coreChdArgs ix).toNat
  let out := (d.rg .coreChdOut ix).toNat
  { v := bit ctl 31, dir := bit ctl 30, path := bit ctl 29, tstart := bit ctl 28
    fmt := bits ctl 27 24, ncol := bits ctl 23 17, relu := bits ctl 16 15
    ops := (upto 6).map (fun j => bits ops (4 * j + 3) (4 * j))
    args := (upto 6).map (fun j => bits args (4 * j + 3) (4 * j))
    cap := bits out 15 8, zp := bits out 7 0
    prm := (upto 12).map (fun j => d.rg .coreChdP [p, i - 1, j]) }

/-- The steps before the first END: opcode and argument (R162). -/
def Chd.steps (c : Chd) : List (Nat × Nat) := (c.ops.zip c.args).takeWhile (fun e => e.1 != 0)

/-- Parameter word `a`. -/
def Chd.p (c : Chd) (a : Nat) : W32 := c.prm.getD a 0#32

/-- The address bits of a parameter word (R162). -/
def addrWord (w : W32) : Nat := bits w.toNat 22 0

/-- The tallies a descriptor's steps update (R172). -/
def Chd.tallies (c : Chd) : List Nat := (c.steps.filter (fun e => e.1 = 9 || e.1 = 10)).map (·.2)

/-- The tallies a prologue's NORM steps read (R174, R178). -/
def Chd.normTallies (c : Chd) : List Nat :=
  (c.steps.filter (fun e => e.1 = 11)).map (fun e => bits (c.p (e.2 + 2)).toNat 30 28)

/-- The tallies an MRUN's prologue reads. -/
def RunOp.normTallies (d : Dev) (p : Nat) (o : RunOp) : List Nat :=
  if o.chain = 0 then [] else (chd d p o.chain).normTallies

/-- Tallies that an M-slot operation of the slot updates (R173). -/
def EpiOp.tallies (d : Dev) (p : Nat) (o : EpiOp) : List Nat :=
  if o.chain = 0 then [] else (chd d p o.chain).tallies

/-- The MEPIs queued or running in an array. -/
def ArrSt.epiOps (a : ArrSt) : List EpiOp :=
  a.queue.filterMap (fun o => match o with | .epi e => some e | _ => none) ++ a.epis.map (·.op)

/-- A queued or running MEPI updates tally `t` (R118, R173). -/
def tallyBusy (d : Dev) (p : Fin 7) (t : Nat) : Bool :=
  let c := d.core p
  (c.arrA.epiOps ++ c.arrB.epiOps).any (fun o => (o.tallies d p.val).contains t)

/-- Bytes of 128 residual elements of a format (R161, R164). -/
def residBytes (f : EFmt) : Nat := 16 * f.bits

/-- Elements of an activation vector by FMT (R131). -/
def vecLen (fmt : Nat) : Nat := if fmt = 6 || fmt = 7 then 64 else if fmt = 10 || fmt = 11 then 256 else 128

/-- The checks of an address word: reserved bits (`keep` are assigned by the step), then the range, then the
alignment of what it reaches (R132, R162, R163). -/
def addrCheck (w : W32) (len keep : Nat) : Option Cause :=
  let hi := w.toNat / 2 ^ 23 * 2 ^ 23
  if hi - (hi &&& keep) ≠ 0 then some .illegalOperand
  else if satchelSize < addrWord w + len then some .satchelRange
  else if addrWord w % 128 ≠ 0 then some .misaligned
  else none

/-- The first cause of a list of checks. -/
def firstCause (l : List (Option Cause)) : Option Cause := (l.filterMap id).head?

/-- The cause that a set of checks of one slot raises: an illegal operand before a range, a range before an alignment (R122,
R163). -/
def worstCause (l : List (Option Cause)) : Option Cause :=
  if l.contains (some .illegalOperand) then some .illegalOperand
  else if l.contains (some .satchelRange) then some .satchelRange else firstCause l

/-- The illegal-operand checks of one step (R161-R163). -/
def stepOk (d : Dev) (p : Nat) (c : Chd) (j : Nat) (e : Nat × Nat) : Bool :=
  let (op, a) := e
  let legal := if c.dir then [1, 2, 3, 4, 5, 7, 8, 11] else if c.path then [10] else [1, 2, 3, 4, 5, 6, 7, 8, 9, 10]
  let words := if op = 6 then 3 else if op = 11 then 4 else if [1, 2, 3, 4, 7, 8].contains op then 1 else 0
  legal.contains op && (op != 10 || j + 1 == c.steps.length) && decide (words = 0 ∨ a + words ≤ 12) &&
  (!(op = 9 || op = 10) || decide (a ≤ 7)) &&
  (op != 5 || (decide (a ≤ 3) && bit (d.rg .coreFtabTctl [p, a]).toNat 31)) &&
  (op != 11 ||
    (let w := (c.p (a + 2)).toNat
     decide (1 ≤ bits w 24 0 ∧ bits w 24 0 ≤ 2 ^ 24) && bits w 27 25 == 0)) &&
  (op != 6 ||
    (let w := (c.p (a + 1)).toNat
     match efmtOf (bits (c.p a).toNat 27 24) with
     | some f => bits w 31 24 == 0 && bits w 15 12 == 0 && (f.zpOk || bits w 23 16 == 0)
     | none => false))

/-- The addresses one step uses (R162-R164, R178). -/
def stepAddr (c : Chd) (nel count : Nat) (e : Nat × Nat) : List (Option Cause) :=
  let (op, a) := e
  if op = 1 || op = 3 then [addrCheck (c.p a) (4 * nel) 0]
  else if op = 6 then
    match efmtOf (bits (c.p a).toNat 27 24) with
    | some f => [addrCheck (c.p a) (128 * (bits (c.p (a + 1)).toNat 11 0) * (count - 1) + residBytes f) 0x0F000000]
    | none => []
  else if op = 11 && bit (c.p (a + 2)).toNat 31 then
    [addrCheck (c.p a) (4 * nel) 0, addrCheck (c.p (a + 1)) (4 * nel) 0]
  else []

/-- Staging bytes of one step (R167). -/
def stepStaging (c : Chd) (e : Nat × Nat) : Nat :=
  let (op, a) := e
  if op = 1 || op = 3 then 512
  else if op = 9 || op = 10 then 1536
  else if op = 6 then
    match efmtOf (bits (c.p a).toNat 27 24) with
    | some f => 32 * residBytes f
    | none => 0
  else 0

/-- Every check of R163 for a descriptor that an MRUN (`run` has its FMT and MODE) or an MEPI (`run` is none) of
`count` rows names; `tag` is the plane's for an MEPI. R162 says that each step at or after the first END holds argument 0,
R163 names the opcode alone: a non-zero argument there raises ILLEGAL_OPERAND too (DESIGN CHOICE, log 100). -/
def chainCheck (d : Dev) (p i : Nat) (run : Option (Nat × Nat)) (tag : Tag) (count : Nat) : Option Cause :=
  if i = 0 then none
  else
    let c := chd d p i
    let after := (c.ops.zip c.args).drop c.steps.length
    let fmt := efmtOf c.fmt
    let nel := match run with | some (f, _) => vecLen f | none => 128
    let common := c.v && c.dir == run.isSome && fmt.isSome && after.all (fun e => e.1 == 0 && e.2 == 0) &&
      (c.steps.zip (upto 6)).all (fun e => stepOk d p c e.2 e.1) &&
      !(c.dir && c.path) && decide (c.relu < 3) && (c.path || c.relu == 0) &&
      (c.zp == 0 || (fmt.map EFmt.zpOk).getD false) &&
      !(c.fmt == 2 && c.relu == 2 && (decide (sgn 8 c.cap < -8) || decide (7 < sgn 8 c.cap)))
    let own :=
      match run with
      | some (f, m) =>
        (if f = 6 || f = 7 then c.fmt == 5 || c.fmt == 6 else [0, 1, 3, 4].contains c.fmt) && m != 5 && f != 12
      | none =>
        decide (16384 + (if c.path then 1024 else 0) + (c.steps.map (stepStaging c)).foldl (· + ·) 0 ≤ 65536) &&
        (!c.path || (decide (c.fmt < 3) && tag != .float && tag != .grouped && bits (c.p 1).toNat 31 6 == 0))
    if !(common && own) then some .illegalOperand
    else
      worstCause ((if c.path then [addrCheck (c.p 0) 1024 0] else []) ++
        (c.steps.map (stepAddr c nel count)).foldl (· ++ ·) [])

/-! ## Steps -/

/-- R171: function table `f` of a slot evaluated at v. An exact t - s of 0 is taken as +0 where t is -0 (DESIGN CHOICE, log 101).
The step flags NAN where v or its result is a NaN (`nanFlag`); a t that
becomes a NaN from another v, which R171 sends to HI or v, sets no flag by itself, though R78 names every arithmetic step
(DESIGN CHOICE, log 101). -/
def ftab (d : Dev) (p f : Nat) (v : W32) : W32 :=
  let ix := [p, f]
  let wid (x : Nat) : W32 := f32Of (fpDec fp16 (x % 2 ^ 16))
  let edge := (d.rg .coreFtabEdge ix).toNat
  let ctl := (d.rg .coreFtabTctl ix).toNat
  if f32IsNan v then f32Nan
  else
    let t := f32Mul (f32Sub v (d.rg .coreFtabX0 ix)) (d.rg .coreFtabInvw ix)
    if f32Lt t 0#32 then (if bit ctl 0 then v else wid (bits edge 15 0))
    else if f32IsNan t || !f32Lt t 0x42800000#32 then (if bit ctl 1 then v else wid (bits edge 31 16))
    else
      match f32Dec t with
      | .fin _ m e =>
        let s := if 0 ≤ e then m * 2 ^ e.toNat else m / 2 ^ (-e).toNat
        let u := f32Of (fvAdd (f32Dec t) (fvOfInt (-(s : Int))))
        let c01 := (d.rg .coreFtabCoef [p, f, s, 0]).toNat
        let c23 := (d.rg .coreFtabCoef [p, f, s, 1]).toNat
        let c0 := wid (bits c01 15 0)
        let c1 := wid (bits c01 31 16)
        let c2 := wid (bits c23 15 0)
        let c3 := wid (bits c23 31 16)
        f32Add c0 (f32Mul u (f32Add c1 (f32Mul u (f32Add c2 (f32Mul u c3)))))
      | _ => f32Nan

/-- MAXS and MINS (R162): NaN if v is NaN, P[a] if P[a] is NaN, -0 below +0. -/
def maxS (v x : W32) : W32 := if f32IsNan v then f32Nan else if f32IsNan x then x else f32Max2 v x
def minS (v x : W32) : W32 := if f32IsNan v then f32Nan else if f32IsNan x then x else f32Min v x

/-- A vec of FP32 values in the slot's Satchel (R162). -/
def vecAt (d : Dev) (p : Nat) (w : W32) (n : Nat) : List W32 := f32s (d.satRd p (addrWord w) (4 * n))

/-- MEAN and ISTD of a tally row (R177, R178). -/
def rowMean (c : CoreSt) (t row n : Nat) : W32 := f32Div (c.tal t 0 row) (f32OfInt n 0)
def rowVar (c : CoreSt) (t row n : Nat) : W32 :=
  let m := rowMean c t row n
  let v := f32Sub (f32Div (c.tal t 1 row) (f32OfInt n 0)) (f32Mul m m)
  if f32Lt v 0#32 then 0#32 else v
def rowIstd (c : CoreSt) (t row n : Nat) (eps : W32) : W32 := f32Rsqrt (f32Add (rowVar c t row n) eps)

/-- One step but RESID and the tallies, over a whole vector or row; `row` is the tally row NORM reads. -/
def stepVec (d : Dev) (p : Fin 7) (c : Chd) (row : Nat) (e : Nat × Nat) (vs : List W32) : List W32 :=
  let (op, a) := e
  let n := vs.length
  match op with
  | 1 => List.zipWith f32Add vs (vecAt d p.val (c.p a) n)
  | 2 => vs.map (fun v => f32Add v (c.p a))
  | 3 => List.zipWith f32Mul vs (vecAt d p.val (c.p a) n)
  | 4 => vs.map (fun v => f32Mul v (c.p a))
  | 5 => vs.map (ftab d p.val a)
  | 7 => vs.map (fun v => maxS v (c.p a))
  | 8 => vs.map (fun v => minS v (c.p a))
  | 11 =>
    let w := (c.p (a + 2)).toNat
    let t := bits w 30 28
    let m := rowMean (d.core p) t row (bits w 24 0)
    let istd := rowIstd (d.core p) t row (bits w 24 0) (c.p (a + 3))
    let ys := vs.map (fun v => f32Mul (f32Sub v m) istd)
    if bit w 31 then
      List.zipWith f32Add (List.zipWith f32Mul ys (vecAt d p.val (c.p a) n)) (vecAt d p.val (c.p (a + 1)) n)
    else ys
  | _ => vs

/-- NAN where one of the lanes that count is a NaN (R78, R164, R169). -/
def nanFlag (live : List Bool) (vs : List W32) : NumFlags :=
  flagIf ((live.zip vs).any (fun e => e.1 && f32IsNan e.2)) nfNan

/-! ## Prologue -/

/-- The activation format of an MRUN's FMT (R108). -/
def actFmt (fmt : Nat) : EFmt :=
  if fmt = 0 || fmt = 8 || fmt = 10 then .int8
  else if fmt = 2 || fmt = 4 then .e4 else if fmt = 3 || fmt = 5 then .e5
  else if fmt = 6 then .f16 else if fmt = 7 then .b16 else .uint8

/-- The mask bit that governs lane `k` of a vector (R146). -/
def laneBit (fmt k : Nat) : Nat := if fmt = 10 || fmt = 11 then k / 2 else k

/-- Which lanes of a vector are unmasked. -/
def liveLanes (fmt : Nat) (m : W128) : List Bool := (upto (vecLen fmt)).map (fun k => m.getLsbD (laneBit fmt k))

/-- One vector through a prologue (R168): operand codes and flags. -/
def prologue (d : Dev) (p : Fin 7) (o : RunOp) (i : Nat) (xs : List Nat) : List Nat × NumFlags :=
  if o.chain = 0 then (xs, 0#8)
  else
    let c := chd d p.val o.chain
    let f := (efmtOf c.fmt).getD .int8
    let live := liveLanes o.fmt o.mask
    let zp := f.code c.zp
    let v0 : List W32 := xs.map (fun x => if f.isInt then f32OfInt (f.code x - zp) 0 else f32Of (f.dec x))
    let row := (o.first + i) % 128
    let (vs, fl) := c.steps.foldl (fun (acc : List W32 × NumFlags) e =>
      let ws := stepVec d p c row e acc.1
      (ws, acc.2 ||| nanFlag live ws)) (v0, 0#8)
    let t := actFmt o.fmt
    let rs := vs.map (fun v => t.enc (if t = .uint8 then o.azp else 0) (f32Dec v))
    (rs.map (·.1), (live.zip rs).foldl (fun acc e => if e.1 then acc ||| e.2.2 else acc) fl)

/-! ## Tallies -/

/-- Add neighbours (R101's tree). -/
def pairUp : List W32 → List W32
  | a :: b :: r => f32Add a b :: pairUp r
  | l => l

/-- The tree sum of 2^k lanes (R101, R172). -/
def treeSum : Nat → List W32 → W32
  | 0, l => l.headD 0#32
  | k + 1, l => treeSum k (pairUp l)

/-- Update a tally row from the values of columns 0 to NCOLM1 (R172). -/
def tallyRow (c : CoreSt) (start : Bool) (t row : Nat) (vs : List W32) : CoreSt :=
  let wide := vs ++ List.replicate (128 - vs.length) 0#32
  let ps := treeSum 7 wide
  let pq := treeSum 7 (vs.map (fun v => f32Mul v v) ++ List.replicate (128 - vs.length) 0#32)
  let pm := match vs with | [] => 0#32 | v :: r => r.foldl f32Max2 (if f32IsNan v then f32Nan else v)
  let s := if start then ps else f32Add (c.tal t 0 row) ps
  let q := if start then pq else f32Add (c.tal t 1 row) pq
  let m := if start then pm else f32Max2 (c.tal t 2 row) pm
  (((c.setTal t 0 row s).setTal t 1 row q).setTal t 2 row m).addNf
    (flagIf ([ps, pq, pm, s, q, m].any f32IsNan) nfNan)

/-! ## Epilogue -/

/-- Pack narrowed elements into bytes; a last odd INT4 element's upper nibble is 0 (R50, R166). -/
def packEls (f : EFmt) (l : List Nat) : List Byte :=
  leBytes ((l.length * f.bits + 7) / 8) (packLanes f.bits l)

/-- Element `n` of packed bytes. -/
def elAt (f : EFmt) (bs : Nat) (n : Nat) : Nat := (bs >>> (f.bits * n)) % 2 ^ f.bits

/-- Residual row `i` decoded and scaled (R164). -/
def residRow (d : Dev) (p : Nat) (c : Chd) (a i : Nat) : List W32 :=
  let f := (efmtOf (bits (c.p a).toNat 27 24)).getD .int8
  let w := (c.p (a + 1)).toNat
  let bs := leNat (d.satRd p (addrWord (c.p a) + 128 * bits w 11 0 * i) (residBytes f))
  let zp := f.code (bits w 23 16)
  (upto 128).map (fun n =>
    let x := elAt f bs n
    f32Mul (if f.isInt then f32OfInt (f.code x - (if f.zpOk then zp else 0)) 0 else f32Of (f.dec x)) (c.p (a + 2)))

/-- Entry values of a row by the plane's tag (R164). -/
def entryRow (j : EpiJob) (r : Nat) : List W32 :=
  let lo := spGet 0#4096 j.lo r
  let hi := spGet 0#4096 j.hi r
  (upto 128).map (fun n =>
    match j.op.tag with
    | .none => 0#32
    | .integer => f32OfInt (i32 (accEl lo n)) 0
    | .float => accEl lo n
    | .grouped => f32Mul (longF32 (accEl hi n) (accEl lo n)) (f32Of (fpDec fp16 (bits j.latch.toNat (16 * n + 15) (16 * n)))))

/-- The row an MEPI with CHAIN = 0 writes (R166). -/
def rawRow (j : EpiJob) (r : Nat) : List W32 :=
  match j.op.tag with
  | .integer => (upto 128).map (accEl (spGet 0#4096 j.lo r))
  | _ => entryRow j r

/-- NAN where the product with a class scale is a NaN (R78, R164): among the live columns. -/
def entryNan (j : EpiJob) (live : List Bool) (vs : List W32) : NumFlags :=
  if j.op.tag = .grouped then nanFlag live vs else 0#8

/-- One output row of an MEPI: row `i` of the operation, written and tallied (R164-R166, R172). Its vectors, records and
residual row are read here, after the earlier rows have been written (DESIGN CHOICE, log 82). -/
def epiRow (p : Fin 7) (j : EpiJob) (d : Dev) (i : Nat) : Dev :=
  let r := j.op.first + i
  let out := j.op.addr + 128 * j.op.stride * i
  if j.op.chain = 0 then
    (d.satWr p.val out (packEls .f32 ((rawRow j r).map (·.toNat)))).modCore p
      (·.addNf (entryNan j (List.replicate 128 true) (rawRow j r)))
  else
    let c := chd d p.val j.op.chain
    let f := (efmtOf c.fmt).getD .int8
    let n := c.ncol + 1
    let live := List.replicate n true
    let zp := f.code c.zp
    if c.path then
      let recs := leNat (d.satRd p.val (addrWord (c.p 0)) 1024)
      let lo := spGet 0#4096 j.lo r
      let cs := (upto n).map (fun k =>
        let acc := if j.op.tag = .integer then i32 (accEl lo k) else 0
        intEpilogue acc (sgn 32 (recs >>> (64 * k))) (sgn 32 (recs >>> (64 * k + 32))) (bits (c.p 1).toNat 5 0)
          zp f.lo f.hi c.relu (if f = .uint8 then (c.cap : Int) else sgn 8 c.cap))
      let d := d.satWr p.val out (packEls f (cs.map (fun e => unsgn f.bits e.1)))
      let d := d.modCore p (·.addNf (cs.foldl (fun a e => a ||| e.2) 0#8))
      c.tallies.foldl (fun d t => d.modCore p (fun k => tallyRow k c.tstart t r (cs.map (fun e => f32OfInt (e.1 - zp) 0)))) d
    else
      let (d, vs) := c.steps.foldl (fun (acc : Dev × List W32) e =>
        let (d, vs) := acc
        if e.1 = 9 then (d.modCore p (fun k => tallyRow k c.tstart e.2 r (vs.take n)), vs)
        else if e.1 = 10 then (d, vs)
        else
          let ws := if e.1 = 6 then List.zipWith f32Add vs (residRow d p.val c e.2 i) else stepVec d p c r e vs
          (d.modCore p (·.addNf (nanFlag live ws)), ws))
        (d.modCore p (·.addNf (entryNan j live (entryRow j r))), entryRow j r)
      let rs := (vs.take n).map (fun v => f.enc zp (f32Dec v))
      let d := d.satWr p.val out (packEls f (rs.map (·.1)))
      let d := d.modCore p (·.addNf (rs.foldl (fun a e => a ||| e.2) 0#8))
      (c.steps.filter (fun e => e.1 = 10)).foldl (fun d e =>
        d.modCore p (fun k => tallyRow k c.tstart e.2 r
          (rs.map (fun x => if f.isInt then f32OfInt (f.code x.1 - zp) 0 else f32Of (f.dec x.1))))) d

/-- All rows of an MEPI in order (R164). -/
def epilogue (p : Fin 7) (j : EpiJob) (d : Dev) : Dev := (upto j.op.count).foldl (epiRow p j) d

end Sys2Proof.Machine
end

