-- ==== Sys2Proof/Machine/Scalar.lean ====
section
/-! DEFINITION. The scalar slots (R95, R97): one act per opcode. -/

namespace Sys2Proof.Machine

/-- A scalar register field in range (R92). -/
def sReg (x : BitVec 6) : Bool := decide (x.toNat < 32)

/-- The immediate, sign-extended (R97). -/
def sx (f : SFields) : W64 := f.imm.signExtend 64

/-- A register form: sD := op sA sB, bits [37:0] zero, its result after `lat` core cycles (R121). -/
def aluR (op : W64 → W64 → W64) (f : SFields) (lat : Nat := 1) : Action := fun _ p =>
  guardOp (sReg f.d && sReg f.a && sReg f.b && f.imm == 0#38)
    { sR := [f.a.toNat, f.b.toNat], sW := [f.d.toNat], lat := lat
      eff := fun s0 d => d.modCore p (·.setS f.d.toNat (op ((s0.core p).s f.a.toNat) ((s0.core p).s f.b.toNat))) }

/-- An immediate form: sD := op sA imm, the second source unused. -/
def aluI (op : W64 → W64 → W64) (f : SFields) : Action := fun _ p =>
  guardOp (sReg f.d && sReg f.a && f.b == 0#6)
    { sR := [f.a.toNat], sW := [f.d.toNat]
      eff := fun s0 d => d.modCore p (·.setS f.d.toNat (op ((s0.core p).s f.a.toNat) (sx f))) }

/-- A shift by imm[5:0]; imm[37:6] = 0. -/
def aluSh (op : W64 → Nat → W64) (f : SFields) : Action := fun _ p =>
  guardOp (sReg f.d && sReg f.a && f.b == 0#6 && decide (f.imm.toNat < 64))
    { sR := [f.a.toNat], sW := [f.d.toNat]
      eff := fun s0 d => d.modCore p (·.setS f.d.toNat (op ((s0.core p).s f.a.toNat) f.imm.toNat)) }

/-- One where the condition holds (SLT and its kin). -/
def bool64 (b : Bool) : W64 := if b then 1#64 else 0#64

def mulhS (a b : W64) : W64 := BitVec.ofInt 64 ((a.toInt * b.toInt) / 2 ^ 64)

/-- Quotients and remainder with the results of division by zero (R97). -/
def divS (a b : W64) : W64 := if b = 0#64 then BitVec.allOnes 64 else a.sdiv b
def divU (a b : W64) : W64 := if b = 0#64 then BitVec.allOnes 64 else a / b
def remU (a b : W64) : W64 := if b = 0#64 then a else a % b

def actAdd (f : SFields) : Action := aluR (· + ·) f
def actSub (f : SFields) : Action := aluR (· - ·) f
def actAnd (f : SFields) : Action := aluR (· &&& ·) f
def actOr (f : SFields) : Action := aluR (· ||| ·) f
def actXor (f : SFields) : Action := aluR (· ^^^ ·) f
def actSll (f : SFields) : Action := aluR (fun a b => a <<< (b.toNat % 64)) f
def actSrl (f : SFields) : Action := aluR (fun a b => a >>> (b.toNat % 64)) f
def actSra (f : SFields) : Action := aluR (fun a b => a.sshiftRight (b.toNat % 64)) f
def actSlt (f : SFields) : Action := aluR (fun a b => bool64 (a.slt b)) f
def actSltu (f : SFields) : Action := aluR (fun a b => bool64 (a.ult b)) f
def actMul (f : SFields) : Action := aluR (· * ·) f 3
def actMulh (f : SFields) : Action := aluR mulhS f 3
def actMin (f : SFields) : Action := aluR (fun a b => if a.slt b then a else b) f
def actMax (f : SFields) : Action := aluR (fun a b => if a.slt b then b else a) f
def actAddi (f : SFields) : Action := aluI (· + ·) f
def actAndi (f : SFields) : Action := aluI (· &&& ·) f
def actOri (f : SFields) : Action := aluI (· ||| ·) f
def actXori (f : SFields) : Action := aluI (· ^^^ ·) f
def actSlli (f : SFields) : Action := aluSh (fun a n => a <<< n) f
def actSrli (f : SFields) : Action := aluSh (fun a n => a >>> n) f
def actSrai (f : SFields) : Action := aluSh (fun a n => a.sshiftRight n) f
def actSlti (f : SFields) : Action := aluI (fun a b => bool64 (a.slt b)) f

/-- LUI: imm times 2^26, modulo 2^64. -/
def actLui (f : SFields) : Action := fun _ p =>
  guardOp (sReg f.d && f.a == 0#6 && f.b == 0#6)
    { sW := [f.d.toNat]
      eff := fun _ d => d.modCore p (·.setS f.d.toNat ((sx f) <<< 26)) }

/-- A division in the divider of its slot: the result is written when it completes (R118, R121). -/
def actDivide (op : W64 → W64 → W64) (second : Bool) (f : SFields) : Action := fun d p =>
  let c := d.core p
  guardOp (sReg f.d && sReg f.a && sReg f.b && f.imm == 0#38)
    { sR := [f.a.toNat, f.b.toNat], sW := [f.d.toNat]
      hold := if (if second then c.div1 else c.div0).isSome then .issue else .go
      eff := fun s0 d =>
        let x : DivOp := ⟨f.d.toNat, op ((s0.core p).s f.a.toNat) ((s0.core p).s f.b.toNat)⟩
        d.modCore p (fun c => if second then { c with div1 := some x } else { c with div0 := some x }) }

def actDiv (second : Bool) (f : SFields) : Action := actDivide divS second f
def actDivu (second : Bool) (f : SFields) : Action := actDivide divU second f
def actRemu (second : Bool) (f : SFields) : Action := actDivide remU second f

/-- The special state GETS reads (R95). -/
def special (d : Dev) (p : Fin 7) (i : Nat) : Option W64 :=
  let c := d.core p
  match i with
  | 0 => some (BitVec.ofNat 64 (d.logicalOf p.val))
  | 1 => some (BitVec.ofNat 64 c.entry)
  | 2 => some (BitVec.ofNat 64 c.jobId)
  | 3 => some (BitVec.ofNat 64 c.cyc)
  | 4 => some (BitVec.ofNat 64 c.tiles)
  | 5 => some (c.padv.zeroExtend 64)
  | 6 => some (c.azp.zeroExtend 64)
  | 7 => some (c.nflags.zeroExtend 64)
  | _ => none

/-- GETS (R95): a reserved index raises ILLEGAL_OPERAND. -/
def actGets (f : SFields) : Action := fun _ p =>
  guardOp (sReg f.d && f.a == 0#6 && f.b == 0#6 && decide (f.imm.toNat < 8))
    { sW := [f.d.toNat]
      eff := fun s0 x => x.modCore p (·.setS f.d.toNat ((special s0 p f.imm.toNat).getD 0#64)) }

/-- SETS (R95): PADV and AZP alone; a reserved or RO index, or reserved bits set, raise ILLEGAL_OPERAND. -/
def actSets (f : SFields) : Action := fun d p =>
  let v := (d.core p).s f.a.toNat
  guardOp (sReg f.a && f.d == 0#6 && f.b == 0#6 &&
      ((f.imm == 5#38 && decide (v.toNat < 2 ^ 32)) || (f.imm == 6#38 && decide (v.toNat < 2 ^ 8))))
    { sR := [f.a.toNat]
      eff := fun _ x => x.modCore p (fun c =>
        if f.imm == 5#38 then { c with padv := v.truncate 32 } else { c with azp := v.truncate 8 }) }

/-- Lane width of a vector type (R99). -/
def laneW (t : Nat) : Nat := if t ≤ 3 then 8 else if t ≤ 5 then 16 else 32

/-- Lane count of a vector type (R99). -/
def laneN (t : Nat) : Nat := 1024 / laneW t

/-- Lane `i` of width `w`, as a number (R94). -/
def lane (w : Nat) (x : W1024) (i : Nat) : Nat := (x.toNat >>> (w * i)) % 2 ^ w

/-- MOVV (R97): a lane, sign-extended for INT8 and INT32. -/
def actMovv (f : SFields) : Action := fun _ p =>
  let i := bits f.imm.toNat 6 0
  let t := bits f.imm.toNat 10 8
  guardOp (sReg f.d && sReg f.a && f.b == 0#6 && decide (f.imm.toNat < 2 ^ 11) && !bit f.imm.toNat 7 &&
      decide (i < laneN t))
    { sW := [f.d.toNat], vR := [f.a.toNat], lat := 3
      eff := fun s0 d =>
        let x := lane (laneW t) ((s0.core p).v f.a.toNat) i
        d.modCore p (·.setS f.d.toNat
          (if t = 0 || t = 6 then BitVec.ofInt 64 (sgn (laneW t) x) else BitVec.ofNat 64 x)) }

end Sys2Proof.Machine
end

