-- ==== Sys2Proof/Machine/Vector.lean ====
section
/-! DEFINITION. The vector slot (R98-R104, R177): one act per opcode. -/

namespace Sys2Proof.Machine

/-! ## Types and lanes -/

/-- Range of an integer lane type: INT8, UINT8, INT32 (R99). -/
def tyInt (t : Nat) : Bool := t == 0 || t == 1 || t == 6

/-- A lane's value as an integer. -/
def tyVal (t x : Nat) : Int := if t = 1 then (x : Int) else sgn (laneW t) x

/-- Saturate to the lane type (R19, R100). -/
def tySat (t : Nat) (x : Int) : Int :=
  if t = 1 then clampI x 0 255 else clampI x (-(2 : Int) ^ (laneW t - 1)) ((2 : Int) ^ (laneW t - 1) - 1)

/-- The element format of a lane type, none for INT32 (R99). -/
def tyFmt : Nat → Option EFmt
  | 0 => some .int8 | 1 => some .uint8 | 2 => some .e4 | 3 => some .e5 | 4 => some .f16 | 5 => some .b16
  | 7 => some .f32 | _ => none

/-- The exact value of a lane (R102). -/
def tyDec (t x : Nat) : FV :=
  match tyFmt t with
  | some f => f.dec x
  | none => fvOfInt (sgn 32 x)

/-- Convert an exact value to a lane type with zero point 0 (R102). -/
def tyEnc (t : Nat) (v : FV) : Nat × NumFlags :=
  match tyFmt t with
  | some f => f.enc 0 v
  | none =>
    let (c, fl) := intNarrow 0 (-2147483648) 2147483647 (-2147483648) 2147483647 v
    (unsgn 32 c, fl)

/-- A vector of lanes given by a function. -/
def ofLanes (w n : Nat) (g : Nat → Nat) : W1024 := BitVec.ofNat 1024 (packLanes w ((upto n).map g))

/-- The OR of the flags the unmasked lanes raise. -/
def laneFlags (n : Nat) (m : W128) (g : Nat → NumFlags) : NumFlags :=
  (upto n).foldl (fun acc i => if m.getLsbD i then acc ||| g i else acc) 0#8

/-- Write the unmasked lanes of vector register `vd` from `g`, which answers a lane's code and flags (R100). -/
def CoreSt.putLanes (c : CoreSt) (vd w n : Nat) (m : W128) (g : Nat → Nat × NumFlags) : CoreSt :=
  let old := c.v vd
  (c.setV vd (ofLanes w n (fun i => if m.getLsbD i then (g i).1 else lane w old i))).addNf
    (laneFlags n m (fun i => (g i).2))

/-- An FP32 result with its NAN flag (R100). -/
def f32Res (x : W32) : Nat × NumFlags := (x.toNat, flagIf (f32IsNan x) nfNan)

/-! ## Operands -/

/-- A vector register field in range (R92). -/
def vReg (x : BitVec 6) : Bool := decide (x.toNat < 32)
def evenReg (x : BitVec 6) : Bool := vReg x && x.toNat % 2 == 0
def mReg (x : BitVec 6) : Bool := decide (x.toNat < 16)

/-- The second source of a lane-wise opcode: a lane of vB, or the low bits of sB (R98). -/
def src2 (c : CoreSt) (f : VFields) (w i : Nat) : Nat :=
  if f.sb then (c.s f.vb.toNat).toNat % 2 ^ w else lane w (c.v f.vb.toNat) i

/-- The scalar register the slot reads. -/
def vSR (f : VFields) : List Nat := if f.sb then [f.vb.toNat] else []

/-- Arithmetic opcodes take INT8, UINT8, INT32 and FP32 (R99). -/
def tyArith (f : VFields) : Bool := tyInt f.type.toNat || f.type.toNat == 7

/-- The mask the slot names. -/
def CoreSt.pm (c : CoreSt) (f : VFields) : W128 := c.m f.mask.toNat

/-- The vector registers a lane-wise opcode of two sources reads. -/
def vVR (f : VFields) : List Nat := f.va.toNat :: (if f.sb then [] else [f.vb.toNat])

/-- The latency of an opcode that is slower on FP32 lanes (R121). -/
def latV (f : VFields) (int : Nat) : Nat := if f.type = 7#3 then 4 else int

/-- A lane-wise opcode of two sources writing vD: `g` has the codes of the two lanes. -/
def lanewise (f : VFields) (ok : Bool) (lat : Nat) (g : Nat → Nat → Nat × NumFlags) : Action := fun _ p =>
  let w := laneW f.type.toNat
  guardOp (vReg f.vd && vReg f.va && vReg f.vb && f.vc == 0#6 && ok)
    { sR := vSR f, vR := vVR f, vW := [f.vd.toNat], mR := [f.mask.toNat], lat := lat
      eff := fun s0 d =>
        let c0 := s0.core p
        d.modCore p (·.putLanes f.vd.toNat w (laneN f.type.toNat) (c0.pm f)
          (fun i => g (lane w (c0.v f.va.toNat) i) (src2 c0 f w i))) }

/-- IMM as the arithmetic opcodes take it: bit 0 for integer types alone (R100). -/
def immSat (f : VFields) : Bool := f.imm == 0#24 || (f.imm == 1#24 && tyInt f.type.toNat)

/-- An integer result, wrapped or saturated by IMM[0] (R100). -/
def intRes (f : VFields) (x : Int) : Nat × NumFlags :=
  let t := f.type.toNat
  (unsgn (laneW t) (if f.imm == 1#24 then tySat t x else x), 0#8)

/-- VADD, VSUB, VMUL (R100, R101). -/
def arith (f : VFields) (lat : Nat) (i : Int → Int → Int) (g : W32 → W32 → W32) : Action :=
  lanewise f (tyArith f && immSat f) (latV f lat) (fun x y =>
    let t := f.type.toNat
    if t = 7 then f32Res (g (BitVec.ofNat 32 x) (BitVec.ofNat 32 y)) else intRes f (i (tyVal t x) (tyVal t y)))

def actVadd (f : VFields) : Action := arith f 2 (· + ·) f32Add
def actVsub (f : VFields) : Action := arith f 2 (· - ·) f32Sub
def actVmul (f : VFields) : Action := arith f 3 (· * ·) f32Mul

/-- VFMA: FP32, one rounding (R101). -/
def actVfma (f : VFields) : Action := fun _ p =>
  guardOp (vReg f.vd && vReg f.va && vReg f.vb && vReg f.vc && f.type == 7#3 && f.imm == 0#24)
    { sR := vSR f, vR := f.vc.toNat :: vVR f, vW := [f.vd.toNat], mR := [f.mask.toNat], lat := 4
      eff := fun s0 d =>
        let c0 := s0.core p
        d.modCore p (·.putLanes f.vd.toNat 32 32 (c0.pm f) (fun i =>
          f32Res (f32Fma (BitVec.ofNat 32 (lane 32 (c0.v f.va.toNat) i)) (BitVec.ofNat 32 (src2 c0 f 32 i))
            (BitVec.ofNat 32 (lane 32 (c0.v f.vc.toNat) i))))) }

/-- VMIN and VMAX: NaN if either input is one; -0 below +0 (DEDUCED, log 17). -/
def minMax (f : VFields) (i : Int → Int → Int) (g : W32 → W32 → W32) : Action :=
  lanewise f (tyArith f && f.imm == 0#24) (latV f 2) (fun x y =>
    let t := f.type.toNat
    if t = 7 then f32Res (g (BitVec.ofNat 32 x) (BitVec.ofNat 32 y))
    else (unsgn (laneW t) (i (tyVal t x) (tyVal t y)), 0#8))

def actVmin (f : VFields) : Action := minMax f min f32Min
def actVmax (f : VFields) : Action := minMax f max f32Max2

/-- Bitwise opcodes: every type. -/
def bitwise (f : VFields) (g : Nat → Nat → Nat) : Action := lanewise f (f.imm == 0#24) 2 (fun x y => (g x y, 0#8))

def actVand (f : VFields) : Action := bitwise f (· &&& ·)
def actVor (f : VFields) : Action := bitwise f (· ||| ·)
def actVxor (f : VFields) : Action := bitwise f (· ^^^ ·)

/-- The shifts: integer types, by IMM[4:0] (R101). -/
def shiftV (f : VFields) (g : Nat → Nat → Nat → Nat) : Action := fun _ p =>
  let t := f.type.toNat
  guardOp (vReg f.vd && vReg f.va && f.vb == 0#6 && !f.sb && f.vc == 0#6 && tyInt t && decide (f.imm.toNat < 32))
    { vR := [f.va.toNat], vW := [f.vd.toNat], mR := [f.mask.toNat], lat := 2
      eff := fun s0 d =>
        let c0 := s0.core p
        d.modCore p (·.putLanes f.vd.toNat (laneW t) (laneN t) (c0.pm f)
          (fun i => (g t (lane (laneW t) (c0.v f.va.toNat) i) f.imm.toNat, 0#8))) }

def actVshl (f : VFields) : Action := shiftV f (fun t x n => (x * 2 ^ n) % 2 ^ laneW t)
def actVshr (f : VFields) : Action := shiftV f (fun t x n => unsgn (laneW t) (tyVal t x / 2 ^ n))

/-- The compares: mD bit i is 1 where lane i is unmasked and the compare holds, else 0 (R101). -/
def compareV (f : VFields) (i : Int → Int → Bool) (g : W32 → W32 → Bool) : Action := fun _ p =>
  let t := f.type.toNat
  let w := laneW t
  guardOp (mReg f.vd && vReg f.va && vReg f.vb && f.vc == 0#6 && tyArith f && f.imm == 0#24)
    { sR := vSR f, vR := vVR f, mR := [f.mask.toNat], mW := [f.vd.toNat], lat := latV f 2
      eff := fun s0 d =>
        let c0 := s0.core p
        let cmp (k : Nat) : Bool :=
          let x := lane w (c0.v f.va.toNat) k
          let y := src2 c0 f w k
          (c0.pm f).getLsbD k &&
            (if t = 7 then g (BitVec.ofNat 32 x) (BitVec.ofNat 32 y) else i (tyVal t x) (tyVal t y))
        d.modCore p (·.setM f.vd.toNat
          (BitVec.ofNat 128 (packLanes 1 ((upto (laneN t)).map (fun k => b2n (cmp k)))))) }

def actVcmplt (f : VFields) : Action := compareV f (fun a b => decide (a < b)) f32Lt
def actVcmpeq (f : VFields) : Action := compareV f (fun a b => decide (a = b)) f32Eq

/-- VSEL: every lane is written, from vA where its MASK bit is 1, else from vB (R101). -/
def actVsel (f : VFields) : Action := fun _ p =>
  let w := laneW f.type.toNat
  guardOp (vReg f.vd && vReg f.va && vReg f.vb && f.vc == 0#6 && f.imm == 0#24)
    { sR := vSR f, vR := vVR f, vW := [f.vd.toNat], mR := [f.mask.toNat], lat := 2
      eff := fun s0 d =>
        let c0 := s0.core p
        d.modCore p (·.setV f.vd.toNat (ofLanes w (laneN f.type.toNat) (fun i =>
          if (c0.pm f).getLsbD i then lane w (c0.v f.va.toNat) i else src2 c0 f w i))) }

/-- VBCAST: SB must be 1 (R101). -/
def actVbcast (f : VFields) : Action := fun _ p =>
  let w := laneW f.type.toNat
  guardOp (vReg f.vd && f.va == 0#6 && vReg f.vb && f.sb && f.vc == 0#6 && f.imm == 0#24)
    { sR := vSR f, vW := [f.vd.toNat], mR := [f.mask.toNat], lat := 2
      eff := fun s0 d =>
        let c0 := s0.core p
        d.modCore p (·.putLanes f.vd.toNat w (laneN f.type.toNat) (c0.pm f) (fun i => (src2 c0 f w i, 0#8))) }

/-- VCVT between lane counts (R102). -/
def actVcvt (f : VFields) : Action := fun _ p =>
  let ts := f.type.toNat
  let td := bits f.imm.toNat 2 0
  let q := bits f.imm.toNat 4 3
  let ns := laneN ts
  let nd := laneN td
  let qmax := if nd = ns then 0 else if nd < ns then ns / nd - 1 else nd / ns - 1
  guardOp (vReg f.vd && vReg f.va && f.vb == 0#6 && !f.sb && f.vc == 0#6 && decide (f.imm.toNat < 32) &&
      decide (q ≤ qmax))
    { vR := [f.va.toNat], vW := [f.vd.toNat], mR := [f.mask.toNat], lat := 3
      eff := fun s0 d =>
        let c0 := s0.core p
        let old := c0.v f.vd.toNat
        let src (i : Nat) := lane (laneW ts) (c0.v f.va.toNat) i
        let cv (i : Nat) := tyEnc td (tyDec ts (src i))
        d.modCore p (·.putLanes f.vd.toNat (laneW td) nd (c0.pm f) (fun i =>
          if nd ≤ ns then cv (nd * q + i)
          else if ns * q ≤ i ∧ i < ns * q + ns then cv (i - ns * q) else (lane (laneW td) old i, 0#8))) }

/-- Reduce a list of FP32 lanes in the tree of R101. -/
def treeF32 (g : W32 → W32 → W32) : Nat → List W32 → W32
  | 0, l => l.headD 0#32
  | k + 1, l =>
    let rec pairs : List W32 → List W32
      | a :: b :: r => g a b :: pairs r
      | l => l
    treeF32 g k (pairs l)

/-- VRED (R101): every source lane takes part; lane 0 takes the result, the others 0. -/
def actVred (f : VFields) : Action := fun _ p =>
  let t := f.type.toNat
  let w := laneW t
  let sel := f.imm.toNat
  guardOp (vReg f.vd && vReg f.va && f.vb == 0#6 && !f.sb && f.vc == 0#6 && tyArith f && decide (sel < 3))
    { vR := [f.va.toNat], vW := [f.vd.toNat], mR := [f.mask.toNat], lat := 7
      eff := fun s0 d =>
        let c0 := s0.core p
        let xs := (upto (laneN t)).map (lane w (c0.v f.va.toNat))
        let res : Nat × NumFlags :=
          if t = 7 then
            f32Res (treeF32 (if sel = 0 then f32Add else if sel = 1 then f32Max2 else f32Min) 5
              (xs.map (BitVec.ofNat 32)))
          else
            let vs := xs.map (tyVal t)
            let r := vs.tail.foldl (if sel = 0 then (· + ·) else if sel = 1 then max else min) (vs.headD 0)
            (unsgn w r, 0#8)
        d.modCore p (·.putLanes f.vd.toNat w (laneN t) (c0.pm f) (fun i => if i = 0 then res else (0, 0#8))) }

/-- VGATHER: lane indices taken modulo the lane count (R101). -/
def actVgather (f : VFields) : Action := fun _ p =>
  let w := laneW f.type.toNat
  let n := laneN f.type.toNat
  guardOp (vReg f.vd && vReg f.va && vReg f.vb && f.vc == 0#6 && f.imm == 0#24)
    { sR := vSR f, vR := vVR f, vW := [f.vd.toNat], mR := [f.mask.toNat], lat := 4
      eff := fun s0 d =>
        let c0 := s0.core p
        d.modCore p (·.putLanes f.vd.toNat w n (c0.pm f) (fun i =>
          (lane w (c0.v f.va.toNat) (src2 c0 f w i % n), 0#8))) }

/-! ## Mask opcodes -/

/-- MGEN: signed compare of i with sB (R101). -/
def actMgen (f : VFields) : Action := fun _ p =>
  guardOp (mReg f.vd && f.va == 0#6 && vReg f.vb && f.sb && f.mask == 0#4 && f.type == 0#3 && f.vc == 0#6 &&
      f.imm == 0#24)
    { sR := vSR f, mW := [f.vd.toNat], lat := 2
      eff := fun s0 d =>
        let n := ((s0.core p).s f.vb.toNat).toInt
        d.modCore p (·.setM f.vd.toNat (BitVec.ofNat 128 (2 ^ (clampI n 0 128).toNat - 1))) }

/-- The whole-mask logic (R101). -/
def maskLogic (f : VFields) (g : W128 → W128 → W128) : Action := fun _ p =>
  guardOp (mReg f.vd && mReg f.va && mReg f.vb && !f.sb && f.mask == 0#4 && f.type == 0#3 && f.vc == 0#6 &&
      f.imm == 0#24)
    { mR := [f.va.toNat, f.vb.toNat], mW := [f.vd.toNat], lat := 2
      eff := fun s0 d =>
        d.modCore p (·.setM f.vd.toNat (g ((s0.core p).m f.va.toNat) ((s0.core p).m f.vb.toNat))) }

def actMand (f : VFields) : Action := maskLogic f (· &&& ·)
def actMor (f : VFields) : Action := maskLogic f (· ||| ·)
def actMandn (f : VFields) : Action := maskLogic f (fun a b => a &&& ~~~b)

/-! ## Range finding and quantisation -/

/-- QRINIT: +infinity and -infinity in every unmasked lane (R101). -/
def actQrinit (f : VFields) : Action := fun _ p =>
  guardOp (evenReg f.vd && f.va == 0#6 && f.vb == 0#6 && !f.sb && f.vc == 0#6 && f.type == 7#3 && f.imm == 0#24)
    { vW := [f.vd.toNat, f.vd.toNat + 1], mR := [f.mask.toNat], lat := 2
      eff := fun s0 d =>
        let m := (s0.core p).pm f
        d.modCore p (fun c =>
          (c.putLanes f.vd.toNat 32 32 m (fun _ => (0x7F800000, 0#8))).putLanes (f.vd.toNat + 1) 32 32 m
            (fun _ => (0xFF800000, 0#8))) }

/-- QRACC: each unmasked finite lane enters the range; NaN and infinite lanes raise NAN and FOVF (R101, R103). -/
def actQracc (f : VFields) : Action := fun _ p =>
  guardOp (evenReg f.vd && vReg f.va && f.vb == 0#6 && !f.sb && f.vc == 0#6 && f.type == 7#3 && f.imm == 0#24)
    { vR := [f.va.toNat], vW := [f.vd.toNat, f.vd.toNat + 1], mR := [f.mask.toNat], lat := 2
      eff := fun s0 d =>
        let c0 := s0.core p
        let m := c0.pm f
        let x (i : Nat) : W32 := BitVec.ofNat 32 (lane 32 (c0.v f.va.toNat) i)
        let acc (r : Nat) (g : W32 → W32 → W32) (i : Nat) : Nat × NumFlags :=
          let old : W32 := BitVec.ofNat 32 (lane 32 (c0.v r) i)
          if f32IsNan (x i) then (old.toNat, nfNan)
          else if f32IsInf (x i) then (old.toNat, nfFovf)
          else f32Res (g old (x i))
        d.modCore p (fun c =>
          (c.putLanes f.vd.toNat 32 32 m (acc f.vd.toNat f32Min)).putLanes (f.vd.toNat + 1) 32 32 m
            (acc (f.vd.toNat + 1) f32Max2)) }

/-- QRANGE: ranges and zero points of the unmasked lanes, and the D bits (R75, R103). -/
def actQrange (f : VFields) : Action := fun _ p =>
  let md := f.imm.toNat
  guardOp (evenReg f.vd && evenReg f.va && f.vb == 0#6 && !f.sb && f.vc == 0#6 && f.type == 7#3 && decide (md < 16))
    { vR := [f.va.toNat, f.va.toNat + 1], vW := [f.vd.toNat, f.vd.toNat + 1], mR := [f.mask.toNat], mW := [md], lat := 6
      eff := fun s0 d =>
        let c0 := s0.core p
        let m := c0.pm f
        let res (i : Nat) := qrange (BitVec.ofNat 32 (lane 32 (c0.v f.va.toNat) i))
          (BitVec.ofNat 32 (lane 32 (c0.v (f.va.toNat + 1)) i))
        let dbit (i : Nat) : Bool := if m.getLsbD i then (res i).2.2.1 else (c0.m md).getLsbD i
        d.modCore p (fun c =>
          ((c.putLanes f.vd.toNat 32 32 m (fun i => ((res i).1.toNat, (res i).2.2.2))).putLanes (f.vd.toNat + 1) 32 32 m
            (fun i => (unsgn 32 (res i).2.1, 0#8))).setM md
            (BitVec.ofNat 128 (packLanes 1 ((upto 32).map (fun i => b2n (dbit i)))))) }

/-- IMM with only the selector [4:3]. -/
def immQ (f : VFields) : Bool := decide (f.imm.toNat < 32) && bits f.imm.toNat 2 0 == 0

/-- VQUANT: 32 FP32 lanes to UINT8 lanes 32q to 32q + 31 (R104). -/
def actVquant (f : VFields) : Action := fun _ p =>
  let q := bits f.imm.toNat 4 3
  guardOp (vReg f.vd && vReg f.va && evenReg f.vb && !f.sb && f.vc == 0#6 && f.type == 7#3 && immQ f)
    { vR := [f.va.toNat, f.vb.toNat, f.vb.toNat + 1], vW := [f.vd.toNat], mR := [f.mask.toNat], lat := 3
      eff := fun s0 d =>
        let c0 := s0.core p
        let old := c0.v f.vd.toNat
        d.modCore p (·.putLanes f.vd.toNat 8 128 (c0.pm f) (fun i =>
          if i / 32 = q then
            let j := i % 32
            let r := quantise (BitVec.ofNat 32 (lane 32 (c0.v f.va.toNat) j))
              (BitVec.ofNat 32 (lane 32 (c0.v f.vb.toNat) j)) (sgn 32 (lane 32 (c0.v (f.vb.toNat + 1)) j))
            (r.1.toNat, r.2)
          else (lane 8 old i, 0#8))) }

/-- VDEQ: UINT8 lanes 32q to 32q + 31 to 32 FP32 lanes (R104). -/
def actVdeq (f : VFields) : Action := fun _ p =>
  let q := bits f.imm.toNat 4 3
  guardOp (vReg f.vd && vReg f.va && evenReg f.vb && !f.sb && f.vc == 0#6 && f.type == 7#3 && immQ f)
    { vR := [f.va.toNat, f.vb.toNat, f.vb.toNat + 1], vW := [f.vd.toNat], mR := [f.mask.toNat], lat := 3
      eff := fun s0 d =>
        let c0 := s0.core p
        d.modCore p (·.putLanes f.vd.toNat 32 32 (c0.pm f) (fun j =>
          f32Res (dequantise (lane 8 (c0.v f.va.toNat) (32 * q + j)) (BitVec.ofNat 32 (lane 32 (c0.v f.vb.toNat) j))
            (sgn 32 (lane 32 (c0.v (f.vb.toNat + 1)) j))))) }

/-! ## Accumulators and tallies -/

/-- The planes an M-slot operation of an array targets (R109, R138): 0 the first, 1 the second of the array. -/
def MOp.targets : MOp → List Nat
  | .load _ => []
  | .swap _ _ => []
  | .run o => if o.pair then [0, 1] else [o.plane % 2]
  | .epi o => if o.tag = .grouped then [0, 1] else [o.plane % 2]
  | .clr pl pair _ _ => if pair then [0, 1] else [pl % 2]

/-- The ready bit of accumulator plane `pl` (R109). -/
def planeReady (c : CoreSt) (pl : Nat) : Bool :=
  let a := c.arr (pl / 2)
  !((a.queue.any (fun o => o.targets.contains (pl % 2))) ||
    a.runs.any (fun j => (MOp.run j.op).targets.contains (pl % 2)) ||
    a.epis.any (fun j => (MOp.epi j.op).targets.contains (pl % 2)))

/-- The tag of plane `pl` (R137). -/
def planeTag (c : CoreSt) (pl : Nat) : Tag :=
  let a := c.arr (pl / 2)
  if pl % 2 = 0 then a.tag0 else a.tag1

/-- Row `r` of plane `pl`. -/
def planeRow (c : CoreSt) (pl r : Nat) : AccRow :=
  let a := c.arr (pl / 2)
  spGet 0#4096 (if pl % 2 = 0 then a.acc0 else a.acc1) r

/-- VRDACC: 32 elements of a plane's row; a grouped pair in FP32 (R71, R101, R138; log 18). -/
def actVrdacc (f : VFields) : Action := fun d p =>
  let pl := f.va.toNat
  let row := bits f.imm.toNat 6 0
  let q := bits f.imm.toNat 8 7
  guardOp (vReg f.vd && decide (pl < 4) && f.vb == 0#6 && !f.sb && f.vc == 0#6 && f.type == 7#3 &&
      decide (f.imm.toNat < 512))
    { vW := [f.vd.toNat], mR := [f.mask.toNat], lat := 4
      hold := if planeReady (d.core p) pl then .go else .issue
      eff := fun s0 d =>
        let c0 := s0.core p
        d.modCore p (·.putLanes f.vd.toNat 32 32 (c0.pm f) (fun j =>
          let n := 32 * q + j
          (match planeTag c0 pl with
           | .grouped => (longF32 (accEl (planeRow c0 (pl / 2 * 2 + 1) row) n) (accEl (planeRow c0 (pl / 2 * 2) row) n)).toNat
           | _ => (accEl (planeRow c0 pl row) n).toNat, 0#8))) }

/-- VRDTAL: 32 rows of a tally component (R101, R118). -/
def actVrdtal (f : VFields) : Action := fun d p =>
  let comp := bits f.imm.toNat 1 0
  let q := bits f.imm.toNat 3 2
  guardOp (vReg f.vd && decide (f.va.toNat < 8) && f.vb == 0#6 && !f.sb && f.vc == 0#6 && f.type == 7#3 &&
      decide (f.imm.toNat < 16) && decide (comp < 3))
    { vW := [f.vd.toNat], mR := [f.mask.toNat], lat := 4
      hold := if tallyBusy d p f.va.toNat then .issue else .go
      eff := fun s0 d =>
        let c0 := s0.core p
        d.modCore p (·.putLanes f.vd.toNat 32 32 (c0.pm f)
          (fun j => ((c0.tal f.va.toNat comp (32 * q + j)).toNat, 0#8))) }

/-- The row-statistic functions of FINISH (R177). -/
def finishFn (c : CoreSt) (fn t row n : Nat) (eps : W32) : W32 :=
  if fn = 0 then rowMean c t row n
  else if fn = 1 then rowVar c t row n
  else if fn = 2 then rowIstd c t row n eps
  else if fn = 3 then f32Div 0x3F800000#32 (c.tal t 0 row)
  else c.tal t 2 row

/-- FINISH (R177): N from sB, 1 to 2^24. -/
def actFinish (f : VFields) : Action := fun d p =>
  let im := f.imm.toNat
  let n := ((d.core p).s f.vb.toNat).toNat
  let a : Act :=
    { sR := [f.vb.toNat], vW := [f.vd.toNat], mR := [f.mask.toNat], lat := 12
      hold := if tallyBusy d p f.va.toNat then .issue else .go
      eff := fun s0 d =>
        let c0 := s0.core p
        d.modCore p (·.putLanes f.vd.toNat 32 32 (c0.pm f) (fun j =>
          f32Res (finishFn c0 (bits im 2 0) f.va.toNat (32 * bits im 4 3 + j) n (f32Of (fpDec fp16 (bits im 23 8)))))) }
  guardOp (vReg f.vd && decide (f.va.toNat < 8) && vReg f.vb && f.sb && f.vc == 0#6 && f.type == 7#3 &&
      decide (bits im 2 0 ≤ 4) && bits im 7 5 == 0 && decide (1 ≤ n ∧ n ≤ 2 ^ 24)) a

end Sys2Proof.Machine
end

