-- ==== Sys2Proof/Machine/LoadStore.lean ====
section
/-! DEFINITION. The load and store slots (R105, R119, R120): LD, ST and LDW on the core's own Satchel. -/

namespace Sys2Proof.Machine

/-- The byte offset into the Satchel: the unsigned 64-bit sum sA + OFF (R105). -/
def lAddr (c : CoreSt) (f : LFields) : Nat := (c.s f.sa.toNat + f.off.signExtend 64).toNat

/-- The mask bit of byte `i` by the granularity (R105). -/
def lMask (c : CoreSt) (f : LFields) (i : Nat) : Bool := (c.m f.mask.toNat).getLsbD (i / 2 ^ f.gran.toNat)

/-- The checks of a load or store: operands, then the range, then the alignment (R105, R122; that a wrong operand goes before
both is a DESIGN CHOICE, log 79). -/
def lCheck (c : CoreSt) (f : LFields) (align : Nat) : Option Cause :=
  if !(vReg f.vd && sReg f.sa && f.r1 == 0#6 && f.r2 == 0#8 && f.gran != 3#2) then some .illegalOperand
  else if satchelSize ≤ lAddr c f then some .satchelRange
  else if lAddr c f % align ≠ 0 then some .misaligned
  else none

/-- A vector register from bytes, the masked elements keeping theirs. -/
def mergeBytes (old : W1024) (bs : List Byte) (keep : Nat → Bool) : W1024 :=
  BitVec.ofNat 1024 (packLanes 8 ((bs.zip (upto 128)).map (fun e =>
    if keep e.2 then e.1.toNat else lane 8 old e.2)))

/-- Write the bytes whose mask bit is 1. -/
def wrMasked (m : Memory) (a : Nat) (keep : Nat → Bool) : Nat → List Byte → Memory
  | _, [] => m
  | i, b :: r => wrMasked (if keep i then m.wr (a + i) b else m) a keep (i + 1) r

/-- The Satchel bytes an L slot reaches, where it raises nothing (R106). -/
def lSat (c : CoreSt) (f : LFields) (n : Nat) : Option (Nat × Nat) :=
  if (lCheck c f n).isNone then some (lAddr c f, n) else none

/-- LD: 128 bytes into vD. -/
def actLd (f : LFields) : Action := fun d p =>
  { sR := [f.sa.toNat], vW := [f.vd.toNat], mR := [f.mask.toNat], lat := 4, exc := lCheck (d.core p) f 128
    sat := lSat (d.core p) f 128
    eff := fun s0 d =>
      let c0 := s0.core p
      let bs := s0.satRd p.val (lAddr c0 f) 128
      d.modCore p (fun c => c.setV f.vd.toNat (mergeBytes (c.v f.vd.toNat) bs (lMask c0 f))) }

/-- LDW: one word into all 32 word lanes. -/
def actLdw (f : LFields) : Action := fun d p =>
  { sR := [f.sa.toNat], vW := [f.vd.toNat], mR := [f.mask.toNat], lat := 4, exc := lCheck (d.core p) f 4
    sat := lSat (d.core p) f 4
    eff := fun s0 d =>
      let c0 := s0.core p
      let w := s0.satRd p.val (lAddr c0 f) 4
      let bs := (List.replicate 32 w).flatten
      d.modCore p (fun c => c.setV f.vd.toNat (mergeBytes (c.v f.vd.toNat) bs (lMask c0 f))) }

/-- ST: 128 bytes of the source register; in one bundle the later slot's bytes prevail (R119). -/
def actSt (f : LFields) : Action := fun d p =>
  { sR := [f.sa.toNat], vR := [f.vd.toNat], mR := [f.mask.toNat], exc := lCheck (d.core p) f 128
    sat := lSat (d.core p) f 128
    eff := fun s0 d =>
      let c0 := s0.core p
      let bs := leBytes 128 (c0.v f.vd.toNat).toNat
      { d with mem := wrMasked d.mem (satBase p.val + lAddr c0 f) (lMask c0 f) 0 bs } }

end Sys2Proof.Machine
end

