-- ==== Sys2Proof/Machine/Matrix.lean ====
section
/-! DEFINITION. The matrix slot and the arrays (R107-R109, R130-R148): what each operation checks at issue, when a
queued operation starts, what a plane load, a stream and an epilogue do, and the weight chain (R202-R206). -/

namespace Sys2Proof.Machine

/-! ## Operands at issue -/

/-- K rows of a plane (R65, R130). -/
def planeK (fmt : Nat) : Nat := if fmt = 6 || fmt = 7 then 64 else if fmt = 10 || fmt = 11 then 256 else 128

/-- FMT 8-11 are the grouped formats (R108). -/
def isGrouped (fmt : Nat) : Bool := decide (8 ≤ fmt ∧ fmt ≤ 11)

/-- FMT 2-7 are the float formats (R108). -/
def isFloat (fmt : Nat) : Bool := decide (2 ≤ fmt ∧ fmt ≤ 7)

/-- Group size by its code (R133). -/
def groupSize (code : Nat) : Nat := 32 * 2 ^ code

/-- Bytes of the scale stream of a grouped plane (R66). -/
def scaleBytes (fmt gs : Nat) : Nat := planeK fmt / groupSize gs * 128 + 256

/-- The range check, then the alignment check, of M-slot bytes `a` to `a + len - 1` (R122, R132). -/
def mAddr (a len : Nat) : Option Cause :=
  if satchelSize < a + len then some .satchelRange else if a % 128 ≠ 0 then some .misaligned else none

/-- The completion flag of an M-slot operation. With F = 0 a non-zero FLAG is ignored and raises nothing: R107 lists FLAG
as the completion flag and does not say that F = 0 leaves it unused (DESIGN CHOICE, log 81). -/
def mFlag (f : MFields) : Option Nat := if f.f then some f.flag.toNat else none

/-- The fields an opcode other than MRUN leaves at 0. -/
def mRunFieldsZero (f : MFields) : Bool :=
  f.mode == 0#3 && !f.axis && !f.clr && f.mask == 0#4

/-- The tag an FMT gives (R137). -/
def fmtTag (fmt : Nat) : Tag := if isGrouped fmt then .grouped else if isFloat fmt then .float else .integer

/-- The format of the active plane in issue order: what the queued loads and swaps will have made of it (R108, R135). -/
def issueFmt (a : ArrSt) : Option Nat :=
  let sh := match a.loading with | some o => some o.fmt | none => a.shadow.fmt
  (a.queue.foldl (fun (st : Option Nat × Option Nat) o =>
    match o with
    | .load l => (st.1, some l.fmt)
    | .swap _ _ => (st.2, st.1)
    | _ => st) (a.active.fmt, sh)).1

/-- MODE, FMT and AXIS combine (R142). -/
def modeOk (mode fmt : Nat) (axis : Bool) : Bool :=
  if mode = 0 then decide (fmt ≤ 11) && (!axis || decide (fmt ≤ 7))
  else if mode ≤ 4 then decide (fmt ≤ 7)
  else decide (mode = 5 ∧ fmt = 12)

/-- Count and first row of an MRUN or MEPI from the register SB names, none where they are illegal (R107). -/
def rowsArg (x : W64) : Option (Nat × Nat) :=
  let n := bits x.toNat 7 0
  let fst := bits x.toNat 14 8
  if x.toNat < 2 ^ 15 ∧ 1 ≤ n ∧ fst + n ≤ 128 then some (n, fst) else none

/-- Set the tag of plane `pl` of a core; both of its array for a pair. -/
def setTag (c : CoreSt) (pl : Nat) (t : Tag) : CoreSt :=
  c.modArr (pl / 2) (fun a => if pl % 2 = 0 then { a with tag0 := t } else { a with tag1 := t })

/-- Push an operation into an array's queue. -/
def pushOp (c : CoreSt) (arr : Nat) (o : MOp) : CoreSt :=
  { c.modArr arr (fun a => { a with queue := a.queue ++ [o] }) with mseq := c.mseq + 1 }

/-- A full queue holds the bundle (R109). -/
def queueHold (c : CoreSt) (arr : Nat) : Hold := if 4 ≤ (c.arr arr).queue.length then .issue else .go

/-! ## Draining a queue -/

/-- Clear plane `i` of an array (and its partner and latch for a pair). -/
def ArrSt.clear (a : ArrSt) (i : Nat) (pair : Bool) : ArrSt :=
  if pair then { a with acc0 := [], acc1 := [], latch := 0#2048 }
  else if i = 0 then { a with acc0 := [] } else { a with acc1 := [] }

/-- Operations running in an array that target plane `i`. -/
def ArrSt.busyPlane (a : ArrSt) (i : Nat) : Bool :=
  a.runs.any (fun j => (MOp.run j.op).targets.contains i) || a.epis.any (fun j => (MOp.epi j.op).targets.contains i)

/-- Start what can start at the head of a queue without an event of its own (R109, R135): an MLOAD once the load path
is free, an MSWAP once the load before it has completed, an MCLR once nothing running targets its plane. `now` is the
core cycle. Answers the array and the flags set. -/
def drainArr (now : Nat) : Nat → ArrSt → List Nat → ArrSt × List Nat
  | 0, a, fl => (a, fl)
  | k + 1, a, fl =>
    match a.queue with
    | .load o :: r => if a.loading.isNone then drainArr now k { a with queue := r, loading := some { o with t0 := now } } fl else (a, fl)
    | .swap f _ :: r =>
      if a.loading.isNone then
        drainArr now k { a with queue := r, active := a.shadow, shadow := a.active } (fl ++ f.toList)
      else (a, fl)
    | .clr pl pair f s :: r =>
      if (MOp.clr pl pair f s).targets.any a.busyPlane then (a, fl)
      else drainArr now k ({ a with queue := r }.clear (pl % 2) pair) (fl ++ f.toList)
    | _ => (a, fl)

/-- A ramp request goes before another: earlier cycle of the power manager, then lower slot, then array A (R155). -/
def rampBefore (a b : Nat × Nat × Nat) : Bool :=
  decide (a.1 < b.1) || (a.1 == b.1 && (decide (a.2.1 < b.2.1) || (a.2.1 == b.2.1 && decide (a.2.2 < b.2.2))))

/-- Put a ramp request in its place. -/
def insRamp (x : Nat × Nat × Nat) : List (Nat × Nat × Nat) → List (Nat × Nat × Nat)
  | [] => [x]
  | y :: r => if rampBefore x y then x :: y :: r else y :: insRamp x r

/-- An MRUN at the head of a queue whose array is not on asks for a ramp grant; an array ramping down stops (R154). One that
waits behind other operations does neither until it is at the head (DESIGN CHOICE, log 108). -/
def Dev.askRamp (d : Dev) (p : Fin 7) (arr : Nat) : Dev :=
  let a := (d.core p).arr arr
  match a.queue with
  | .run _ :: _ =>
    if a.pwr != .on && a.pwr != .up && !a.waitsGrant then
      { d.modCore p (fun c => c.modArr arr (fun a => { a with waitsGrant := true })) with
        rampReq := insRamp (d.now, p.val, arr) d.rampReq }
    else d
  | _ => d

/-- Drain one array's queue and ask for its ramp. -/
def Dev.drainM (d : Dev) (p : Fin 7) (arr : Nat) : Dev :=
  let c := d.core p
  let (a, fl) := drainArr c.totCyc 5 (c.arr arr) []
  (d.setCore p (fl.foldl (fun c f => c.setF f true) (c.setArr arr a))).askRamp p arr

/-! ## Walker faults of the chain -/

/-- A walker fault ends the task (R199-R201): the registers take the first fault of the task alone. -/
def Dev.walkerFault (d : Dev) (p : Fin 7) (reason walker cls : Nat) (reissue dsrc : Bool) (desc addr : Nat) : Dev :=
  let c := d.core p
  if c.wlkFault || c.mode = .idle then d
  else
    let i := [p.val]
    let d := ((d.setRg .coreWlkFault i (BitVec.ofNat 32
        (reason * 2 ^ 24 + walker * 2 ^ 22 + cls * 2 ^ 20 + b2n reissue * 2 ^ 19 + c.tiles % 4096))).setRg
      .coreWlkFdesc i (BitVec.ofNat 32 (b2n dsrc * 2 ^ 31 + desc % 2 ^ 23))).setRg
      .coreWlkFaddrLo i (BitVec.ofNat 32 addr)
    let d := d.setRg .coreWlkFaddrHi i (BitVec.ofNat 32 (addr / 2 ^ 32 % 2 ^ 24))
    let d := (d.modCore p (fun c => { c with wlkFault := true })).viol (if reason = 0x05 ∨ reason = 0x08 then addr else 0)
    (d.endTask p (if reason = 0x0F then 0x11#8 else 0x10#8)).dropUnstarted p

/-! ## The acts -/

/-- MLOAD (R107, R130, R132, R133, R205). A chain MLOAD on a slot that is no member ends the task once the bundle's other slots
have acted, so what they started is dropped with the rest (R199). -/
def actMload (f : MFields) : Action := fun d p =>
  let c := d.core p
  let fmt := f.fmt.toNat
  let arr := f.d.toNat
  let sb := (c.s f.sb.toNat).toNat
  let gs := bits sb 25 24
  let sadr := bits sb 23 0
  let addr := (c.s f.sa.toNat).toNat
  let ok := decide (arr < 2) && (f.ch || sReg f.sa) && sReg f.sb && mRunFieldsZero f && f.stride == 0#12 &&
    f.chain == 0#4 && !f.r && decide (fmt ≤ 12) &&
    (if isGrouped fmt then decide (sb < 2 ^ 26) && decide (gs < 3) && !(f.ch && sadr != 0) else f.sb == 0#6)
  let exc :=
    if !ok then some .illegalOperand
    else if f.ch then none
    else
      worstCause (mAddr addr (planeBytes fmt) :: (if isGrouped fmt then [mAddr sadr (scaleBytes fmt gs)] else []))
  let out := f.ch && !d.flag .coreWchCtl [p.val] 7
  { sR := (if f.ch then [] else [f.sa.toNat]) ++ [f.sb.toNat], exc := exc, hold := queueHold c arr
    eff := fun _ d =>
      if out then d
      else
        (d.modCore p (fun c => pushOp c arr (.load
          { addr := addr, fmt := fmt, gsize := gs, saddr := sadr, chain := f.ch, flag := mFlag f, seq := c.mseq }))).drainM
          p arr
    post := fun d => if out then d.walkerFault p 0x0D 0 0 false false 0 0 else d }

/-- MSWAP (R107, R135). -/
def actMswap (f : MFields) : Action := fun d p =>
  let arr := f.d.toNat
  { exc := if decide (arr < 2) && f.sa == 0#6 && f.sb == 0#6 && mRunFieldsZero f && f.fmt == 0#4 && f.stride == 0#12 &&
        f.chain == 0#4 && !f.ch && !f.r then none else some .illegalOperand
    hold := queueHold (d.core p) arr
    eff := fun _ d => (d.modCore p (fun c => pushOp c arr (.swap (mFlag f) c.mseq))).drainM p arr }

/-- The operand checks of an MRUN (R107, R108, R131, R132, R137, R138, R142, R163). -/
def mrunCause (d : Dev) (p : Fin 7) (f : MFields) : Option Cause :=
  let c := d.core p
  let fmt := f.fmt.toNat
  let pl := f.d.toNat
  let a := c.arr (pl / 2)
  let tag := planeTag c pl
  let ok := decide (pl < 4) && sReg f.sa && sReg f.sb && !f.ch && !f.r && decide (fmt ≤ 12) &&
    modeOk f.mode.toNat fmt f.axis
  if !ok then some .illegalOperand
  else
    match rowsArg (c.s f.sb.toNat) with
    | none => some .illegalOperand
    | some (n, _) =>
      let fmtOk := match issueFmt a with | some g => g == fmt | none => true
      let pairOk := pl % 2 == 0 || !(isGrouped fmt || tag == .grouped)
      let own (t : Tag) := t == .none || t == fmtTag fmt
      let tagOk := f.clr || (own tag && (!isGrouped fmt || own (planeTag c (pl / 2 * 2 + 1))))
      if !(fmtOk && pairOk && tagOk) then some .illegalOperand
      else
        worstCause [mAddr (c.s f.sa.toNat).toNat (128 * f.stride.toNat * (n - 1) + vecBytes fmt),
          chainCheck d p.val f.chain.toNat (some (fmt, f.mode.toNat)) tag n]

/-- MRUN (R107, R109, R131, R137, R138). -/
def actMrun (f : MFields) : Action := fun d p =>
  let c := d.core p
  let pl := f.d.toNat
  let fmt := f.fmt.toNat
  { sR := [f.sa.toNat, f.sb.toNat], mR := [f.mask.toNat], exc := mrunCause d p f, hold := queueHold c (pl / 2)
    eff := fun s0 d =>
      let c0 := s0.core p
      let (n, fst) := (rowsArg (c0.s f.sb.toNat)).getD (0, 0)
      let brk := !isGrouped fmt && planeTag c0 pl == .grouped
      let op : RunOp :=
        { plane := pl, addr := (c0.s f.sa.toNat).toNat, count := n, first := fst, mode := f.mode.toNat, axis := f.axis
          fmt := fmt, clr := f.clr, flag := mFlag f, mask := c0.m f.mask.toNat, stride := f.stride.toNat
          chain := f.chain.toNat
          azp := if fmt = 1 || fmt = 9 || fmt = 11 then c0.azp.toNat else 0
          pair := isGrouped fmt || brk, seq := c0.mseq }
      (d.modCore p (fun c =>
        let c := pushOp c (pl / 2) (.run op)
        let c := setTag c pl (fmtTag fmt)
        if isGrouped fmt then setTag c (pl / 2 * 2 + 1) .grouped
        else if brk then setTag c (pl / 2 * 2 + 1) .none else c)).drainM p (pl / 2) }

/-- Bytes of one output row of an MEPI (R166). -/
def epiRowBytes (d : Dev) (p chain : Nat) : Nat :=
  if chain = 0 then 512
  else
    let c := chd d p chain
    match efmtOf c.fmt with
    | some f => ((c.ncol + 1) * f.bits + 7) / 8
    | none => 0

/-- The operand checks of an MEPI (R107, R132, R163-R167). -/
def mepiCause (d : Dev) (p : Fin 7) (f : MFields) : Option Cause :=
  let c := d.core p
  let pl := f.d.toNat
  let ok := decide (pl < 4) && sReg f.sa && sReg f.sb && mRunFieldsZero f && f.fmt == 0#4 && !f.ch && !f.r
  if !ok then some .illegalOperand
  else
    match rowsArg (c.s f.sb.toNat) with
    | none => some .illegalOperand
    | some (n, _) =>
      worstCause [mAddr (c.s f.sa.toNat).toNat (128 * f.stride.toNat * (n - 1) + epiRowBytes d p.val f.chain.toNat),
        chainCheck d p.val f.chain.toNat none (planeTag c pl) n]

/-- MEPI (R107, R109, R164). -/
def actMepi (f : MFields) : Action := fun d p =>
  let pl := f.d.toNat
  { sR := [f.sa.toNat, f.sb.toNat], exc := mepiCause d p f, hold := queueHold (d.core p) (pl / 2)
    eff := fun s0 d =>
      let c0 := s0.core p
      let (n, fst) := (rowsArg (c0.s f.sb.toNat)).getD (0, 0)
      let op : EpiOp :=
        { plane := pl, addr := (c0.s f.sa.toNat).toNat, count := n, first := fst, flag := mFlag f
          stride := f.stride.toNat, chain := f.chain.toNat, tag := planeTag c0 pl, seq := c0.mseq }
      (d.modCore p (fun c => pushOp c (pl / 2) (.epi op))).drainM p (pl / 2) }

/-- MCLR (R107, R137, R138): the tag becomes none at issue. -/
def actMclr (f : MFields) : Action := fun d p =>
  let pl := f.d.toNat
  { exc := if decide (pl < 4) && f.sa == 0#6 && f.sb == 0#6 && mRunFieldsZero f && f.fmt == 0#4 && f.stride == 0#12 &&
        f.chain == 0#4 && !f.ch && !f.r then none else some .illegalOperand
    hold := queueHold (d.core p) (pl / 2)
    eff := fun s0 d =>
      let pair := planeTag (s0.core p) pl == .grouped
      (d.modCore p (fun c =>
        let c := pushOp c (pl / 2) (.clr pl pair (mFlag f) c.mseq)
        if pair then setTag (setTag c (pl / 2 * 2) .none) (pl / 2 * 2 + 1) .none else setTag c pl .none)).drainM p
        (pl / 2) }

/-! ## Plane loads and the weight chain -/

/-- The Satchel bytes a plane load reads: first byte and byte after the last (R130, R133). -/
def LoadOp.spans (o : LoadOp) : List (Nat × Nat) :=
  if o.chain then []
  else (o.addr, o.addr + planeBytes o.fmt) ::
    (if isGrouped o.fmt then [(o.saddr, o.saddr + scaleBytes o.fmt o.gsize)] else [])

/-- The Satchel bytes a stream reads (R131). -/
def RunOp.spans (o : RunOp) : List (Nat × Nat) :=
  (upto o.count).map (fun i => (o.addr + 128 * o.stride * i, o.addr + 128 * o.stride * i + vecBytes o.fmt))

/-- The Satchel bytes an MRUN's prologue reads: the vectors of its BIASV and SCALEV steps, gamma and beta of a NORM with GB
(R162, R168, R178). -/
def RunOp.vecSpans (o : RunOp) (d : Dev) (p : Nat) : List (Nat × Nat) :=
  if o.chain = 0 then []
  else
    let c := chd d p o.chain
    let vec (w : W32) := (addrWord w, addrWord w + 4 * vecLen o.fmt)
    c.steps.flatMap (fun e =>
      if e.1 = 1 || e.1 = 3 then [vec (c.p e.2)]
      else if e.1 = 11 && bit (c.p (e.2 + 2)).toNat 31 then [vec (c.p e.2), vec (c.p (e.2 + 1))]
      else [])

/-- The Satchel bytes of an epilogue's vectors and records: those of its BIASV and SCALEV steps, and the integer path's record
vector (R162, R165). -/
def EpiOp.vecSpans (d : Dev) (p : Nat) (o : EpiOp) : List (Nat × Nat) :=
  if o.chain = 0 then []
  else
    let c := chd d p o.chain
    (if c.path then [(addrWord (c.p 0), addrWord (c.p 0) + 1024)] else []) ++
      (c.steps.filter (fun e => e.1 = 1 || e.1 = 3)).map (fun e => (addrWord (c.p e.2), addrWord (c.p e.2) + 512))

/-- The residual rows an epilogue reads: first address, distance and bytes of a row (R164). -/
def EpiOp.residReads (d : Dev) (p : Nat) (o : EpiOp) : List (Nat × Nat × Nat) :=
  if o.chain = 0 then []
  else
    let c := chd d p o.chain
    (c.steps.filter (fun e => e.1 = 6)).map (fun e =>
      (addrWord (c.p e.2), 128 * bits (c.p (e.2 + 1)).toNat 11 0,
        residBytes ((efmtOf (bits (c.p e.2).toNat 27 24)).getD .int8)))

/-- The Satchel bytes an epilogue writes (R164, R166). -/
def EpiOp.spans (d : Dev) (p : Nat) (o : EpiOp) : List (Nat × Nat) :=
  (upto o.count).map (fun i =>
    (o.addr + 128 * o.stride * i, o.addr + 128 * o.stride * i + epiRowBytes d p o.chain))

/-- Two sets of Satchel bytes meet. -/
def spansMeet (xs ys : List (Nat × Nat)) : Bool :=
  xs.any (fun x => ys.any (fun y => decide (x.1 < y.2) && decide (y.1 < x.2)))

/-- The 128-byte lines of a Satchel range as a sparse plane. -/
def satLines (d : Dev) (p addr n : Nat) : Sparse W1024 :=
  (upto n).foldl (fun m i =>
    spSet 0#1024 m i (BitVec.ofNat 1024 (leNat (d.satRd p (addr + 128 * i) 128)))) []

/-- The plane an MLOAD reads (R130, R133). -/
def loadPlane (d : Dev) (p : Nat) (o : LoadOp) : Plane :=
  { fmt := some o.fmt, gsize := o.gsize
    lines := satLines d p o.addr (planeBytes o.fmt / 128)
    scales := if isGrouped o.fmt then satLines d p o.saddr (scaleBytes o.fmt o.gsize / 128) else [] }

/-- The slots reached by following NEXT from a slot, none where a slot is reached twice (R202). -/
def chainPath (d : Dev) : Nat → Nat → List Nat → Option (List Nat)
  | 0, _, _ => none
  | k + 1, p, seen =>
    if seen.contains p then none
    else
      let n := d.fld .coreWchCtl [p] 2 0
      if n = 7 then some (seen ++ [p]) else chainPath d k n (seen ++ [p])

/-- The outstanding chain MLOAD of a core that is next in issue order and has no plane yet: its sequence number (R203). -/
def nextChainLoad (c : CoreSt) : Option Nat :=
  let of (a : ArrSt) : List Nat :=
    (a.loading.toList.filter (fun o => o.chain && o.got.isNone)).map (·.seq) ++
    a.queue.filterMap (fun o => match o with | .load l => if l.chain then some l.seq else none | _ => none)
  (of c.arrA ++ of c.arrB).foldl (fun m s => match m with | none => some s | some x => some (min x s)) none

/-- The array of a running member whose chain MLOAD takes the next plane, where it has started (R203). -/
def CoreSt.takesPlane (c : CoreSt) : Option Nat :=
  (nextChainLoad c).bind (fun s => (upto 2).find? (fun i => ((c.arr i).loading.map (fun o => o.seq == s)).getD false))

/-- The lines a plane moves over a hop: its rows, and those of its scale stream (R203, R206). -/
def Plane.hopLines (w : Plane) : Nat :=
  match w.fmt with
  | some f => planeBytes f / 128 + (if isGrouped f then scaleBytes f w.gsize / 128 else 0)
  | none => 0

/-- Whether all `lines` of a plane can leave slot `p` (R203): each slot on the way buffers 16 of them (2 KiB) and passes the
others on; a running member does so once its chain MLOAD has started, and no plane ahead of this one is still on the hop. -/
def hasRoom (d : Dev) : Nat → Nat → Nat → Bool
  | 0, _, _ => true
  | k + 1, p, lines =>
    let n := d.fld .coreWchCtl [p] 2 0
    if n = 7 || lines ≤ 16 then true
    else
      let c := d.slot n
      !d.chainFly.any (fun e => e.1 == n) && (!(d.flag .coreWchCtl [n] 7 && c.active) || c.takesPlane.isSome) &&
        hasRoom d k n (lines - 16)

/-- Send a plane on to a slot's NEXT; at the tail it goes nowhere (R202, R204). -/
def Dev.forward (d : Dev) (p : Nat) (w : Plane) : Dev :=
  let n := d.fld .coreWchCtl [p] 2 0
  if n = 7 then d
  else { d.incMod .coreWchStat [p] 15 0 1 with chainFly := d.chainFly ++ [(n, w)] }

/-- Whether the head forwards the plane of an MLOAD at `addr` (R202). -/
def headForwards (d : Dev) (p addr : Nat) : Bool :=
  let b := d.fld .coreWchWin [p] 9 0
  let sz := d.fld .coreWchWin [p] 25 16
  d.flag .coreWchCtl [p] 7 && decide (b * 16384 ≤ addr ∧ addr < (b + sz) * 16384) && (chainPath d 8 p []).isSome

/-- MLOAD_COMPLETE (R109, R134-R136, R202, R203): the shadow plane is filled once every earlier MEPI of the array has
written the bytes it reads; the head forwards its plane, and does not complete while a row of it has no room ahead; the flag
is set. A chain MLOAD completes once its plane has arrived. One of an aborted task finishes without writing its plane or its
flag; the head still forwards what it has read, since the others wait for it (R123; DEDUCED, log 80). The bytes are those the
Satchel holds at this moment (DESIGN CHOICE, log 109). -/
def Dev.mloadComplete (d : Dev) (p : Fin 7) (arr : Nat) : Dev :=
  let a := (d.core p).arr arr
  match a.loading with
  | none => d
  | some o =>
    if a.epis.any (fun j => decide (j.op.seq < o.seq) && spansMeet o.spans (j.op.spans d p.val)) then d
    else
      let w? := if o.chain then o.got else some (loadPlane d p.val o)
      match w? with
      | none => d
      | some w =>
        let head := !o.chain && headForwards d p.val o.addr
        if head && !hasRoom d 8 p.val w.hopLines then d
        else
          let d := d.modCore p (fun c =>
            if c.aborting then c.modArr arr (fun a => { a with loading := none })
            else (c.modArr arr (fun a => { a with shadow := w, loading := none })).raiseF o.flag)
          let d := if o.chain then d.incMod .coreWchStat [p.val] 31 16 1 else if head then d.forward p.val w else d
          d.drainM p arr

/-- The first plane on its way to slot `p`, and the rest. -/
def takeFly (p : Nat) : List (Nat × Plane) → Option (Plane × List (Nat × Plane))
  | [] => none
  | (q, w) :: r =>
    if q = p then some (w, r)
    else match takeFly p r with
      | some (v, r') => some (v, (q, w) :: r')
      | none => none

/-- CHAIN_PLANE_ARRIVE (R202-R205): a slot that runs no task, or whose EN is 0, passes the plane on; a running member
gives it to its next chain MLOAD in issue order and passes it on, or ends its task where FMT or group size differ. With
no chain MLOAD started for it, or no room ahead, the plane stays where it is. -/
def Dev.chainArrive (d : Dev) (p : Fin 7) : Dev :=
  match takeFly p.val d.chainFly with
  | none => d
  | some (w, rest) =>
    let c := d.core p
    let room := hasRoom d 8 p.val w.hopLines
    if !(d.flag .coreWchCtl [p.val] 7 && c.active) then
      if room then { d with chainFly := rest }.forward p.val w else d
    else
      match c.takesPlane with
      | none => d
      | some i =>
        match (c.arr i).loading with
        | none => d
        | some o =>
          if w.fmt = some o.fmt ∧ (!isGrouped o.fmt || w.gsize == o.gsize) then
            if room then
              ({ d with chainFly := rest }.modCore p
                (·.modArr i (fun a => { a with loading := some { o with got := some w } }))).forward p.val w
            else d
          else { d with chainFly := rest }.walkerFault p 0x0D 0 0 false false 0 0

/-! ## Streams -/

/-- Element w[k][n] of a plane as stored bits (R130). -/
def Plane.el (w : Plane) (fmt k n : Nat) : Nat :=
  if fmt = 6 || fmt = 7 then lane 16 (spGet 0#1024 w.lines k) n
  else if fmt = 10 || fmt = 11 then lane 4 (spGet 0#1024 w.lines (k / 2)) ((k % 2) * 128 + n)
  else lane 8 (spGet 0#1024 w.lines k) n

/-- The weight format of a float FMT (R108). -/
def wgtFmt (fmt : Nat) : EFmt :=
  if fmt = 2 || fmt = 3 then .e4 else if fmt = 4 || fmt = 5 then .e5 else if fmt = 6 then .f16 else .b16

/-- Element codes of one activation vector (R131). -/
def vecCodes (fmt : Nat) (bs : List Byte) : List Nat :=
  let x := leNat bs
  let w := if fmt = 6 || fmt = 7 then 16 else 8
  (upto (vecLen fmt)).map (fun k => (x >>> (w * k)) % 2 ^ w)

/-- The integer an activation code stands for (R143). -/
def actInt (fmt azp x : Nat) : Int :=
  if fmt = 1 || fmt = 9 || fmt = 11 then (x : Int) - azp else sgn 8 x

/-- Ones in a byte. -/
def popcount8 (x : Nat) : Nat := ((upto 8).filter (bit x)).length

/-- The pairs (weight code, operand code) of the unmasked lanes that column `j` reduces over, in ascending order (R141,
R146). -/
def colPairs (o : RunOp) (w : Plane) (xs : List Nat) (j : Nat) : List (Nat × Nat) :=
  ((xs.zip (upto (vecLen o.fmt))).filter (fun e => o.mask.getLsbD (laneBit o.fmt e.2))).map (fun e =>
    (if o.axis then w.el o.fmt j e.2 else w.el o.fmt e.2 j, e.1))

def int32Max : Int := 2147483647
def int32Min : Int := -2147483648

/-- Integer modes (R143, R145): the new element and its flag. -/
def intCol (o : RunOp) (ps : List (Nat × Nat)) (acc : W32) : W32 × NumFlags :=
  let t (e : Nat × Nat) : Int :=
    let w := sgn 8 e.1
    let x := actInt o.fmt o.azp e.2
    if o.mode = 0 then w * x
    else if o.mode = 1 then ((w - x).natAbs : Int)
    else if o.mode = 2 then (w - x) * (w - x)
    else if o.mode = 5 then (popcount8 (e.1 ^^^ e.2) : Int)
    else w + x
  let ts := ps.map t
  if o.mode = 3 then
    let c := ts.foldl min int32Max
    (BitVec.ofInt 32 (if o.clr then c else min (i32 acc) c), 0#8)
  else if o.mode = 4 then
    let c := ts.foldl max int32Min
    (BitVec.ofInt 32 (if o.clr then c else max (i32 acc) c), 0#8)
  else
    let s := (if o.clr then 0 else i32 acc) + ts.foldl (· + ·) 0
    let r := clampI s int32Min int32Max
    (BitVec.ofInt 32 r, flagIf (decide (r ≠ s)) nfAsat)

/-- Float modes (R59, R60, R144, R145, R147). -/
def floatCol (o : RunOp) (ps : List (Nat × Nat)) (acc : W32) : W32 × NumFlags :=
  let wv (e : Nat × Nat) := (wgtFmt o.fmt).dec e.1
  let xv (e : Nat × Nat) := (actFmt o.fmt).dec e.2
  let start : W32 := if o.clr then 0#32 else acc
  let res : W32 :=
    if o.mode = 0 then ps.foldl (fun a e => f32Of (fvAdd (f32Dec a) (fvMul (wv e) (xv e)))) start
    else if o.mode ≤ 2 then
      ps.foldl (fun a e =>
        let x := f32Of (fvAdd (wv e) (fvNeg (xv e)))
        f32Add a (if o.mode = 1 then x &&& 0x7FFFFFFF#32 else f32Mul x x)) start
    else
      let g := if o.mode = 3 then f32Min else f32Max2
      let c := ps.foldl (fun a e => g a (f32Of (fvAdd (wv e) (xv e)))) (if o.mode = 3 then f32Inf else f32NegInf)
      if o.clr then c else g acc c
  let acted := !ps.isEmpty || decide (2 < o.mode)
  (res, flagIf (acted && f32IsNan res) nfNan)

/-- A grouped column (R67): the new long accumulator and its flag. -/
def groupCol (o : RunOp) (w : Plane) (xs : List Nat) (j : Nat) (long : Int) : Int × NumFlags :=
  let g := groupSize w.gsize
  (upto (planeK o.fmt / g)).foldl (fun (st : Int × NumFlags) r =>
    let p := ((xs.zip (upto (vecLen o.fmt))).filter
        (fun e => decide (e.2 / g = r) && o.mask.getLsbD (laneBit o.fmt e.2))).foldl (fun (s : Int) e =>
      s + (if o.fmt ≤ 9 then sgn 8 (w.el o.fmt e.2 j) else sgn 4 (w.el o.fmt e.2 j)) * actInt o.fmt o.azp e.1) 0
    let c := p * (gs8Units (lane 8 (spGet 0#1024 w.scales r) j) : Int)
    let s := st.1 + c
    let k := clampI s (-(2 : Int) ^ 63) ((2 : Int) ^ 63 - 1)
    (k, st.2 ||| flagIf (decide (k ≠ s)) nfLsat)) (if o.clr then 0 else long, 0#8)

/-- The class scales of a grouped plane (R66, R139). -/
def classScales (w : Plane) (fmt : Nat) : BitVec 2048 :=
  let i := planeK fmt / groupSize w.gsize
  BitVec.ofNat 2048 ((spGet 0#1024 w.scales i).toNat + (spGet 0#1024 w.scales (i + 1)).toNat * 2 ^ 1024)

/-- One vector's results into accumulator row `r` of an array (R137, R138, R141-R147). -/
def landRow (j : RunJob) (st : ArrSt × NumFlags) (i : Nat) : ArrSt × NumFlags :=
  let (a, fl) := st
  let o := j.op
  let r := o.first + i
  let xs := j.xs.getD i []
  if isGrouped o.fmt then
    let lo := spGet 0#4096 a.acc0 r
    let hi := spGet 0#4096 a.acc1 r
    let cs := (upto 128).map (fun n => groupCol o j.w xs n (sgn 64 (hiLo (accEl hi n) (accEl lo n))))
    ({ a with
        acc0 := spSet 0#4096 a.acc0 r (accRow (cs.map (fun e => BitVec.ofNat 32 (unsgn 64 e.1 % 2 ^ 32))))
        acc1 := spSet 0#4096 a.acc1 r (accRow (cs.map (fun e => BitVec.ofNat 32 (unsgn 64 e.1 / 2 ^ 32)))) },
     cs.foldl (fun x e => x ||| e.2) fl)
  else
    let old := spGet 0#4096 (if o.plane % 2 = 0 then a.acc0 else a.acc1) r
    let nc := if o.fmt = 6 || o.fmt = 7 then 64 else 128
    let cs : List (W32 × NumFlags) := (upto 128).map (fun n =>
      if n < nc then
        (if isFloat o.fmt then floatCol o (colPairs o j.w xs n) (accEl old n)
         else intCol o (colPairs o j.w xs n) (accEl old n))
      else (if o.clr then 0#32 else accEl old n, 0#8))
    let row := accRow (cs.map (·.1))
    (if o.plane % 2 = 0 then { a with acc0 := spSet 0#4096 a.acc0 r row } else { a with acc1 := spSet 0#4096 a.acc1 r row },
     cs.foldl (fun x e => x ||| e.2) fl)

/-- MRUN_STREAM_START (R109, R131, R136, R154, R168, R170, R174): the MRUN at the head of an array that is on streams
its vectors, once every earlier MEPI of the array has written the bytes it reads and its NORM tallies are complete. An
earlier MEPI of its plane does not hold it: that has its rows already (R140). Its vectors enter behind those of the stream
that still runs, one a core cycle, with a prologue 12 cycles after the start at the earliest and a G4 vector every second
cycle (R131, R170). All their bytes, and the parameter vectors', are those of the start (DESIGN CHOICE, log 109). -/
def Dev.mrunStart (d : Dev) (p : Fin 7) (arr : Nat) : Dev :=
  let c := d.core p
  let a := c.arr arr
  match a.queue with
  | .run o :: rest =>
    let normOk := (o.normTallies d p.val).all (fun t =>
      !((c.arrA.epiOps ++ c.arrB.epiOps).any (fun e => decide (e.seq < o.seq) && (e.tallies d p.val).contains t)))
    if a.pwr != .on || a.epis.any (fun j => spansMeet (o.spans ++ o.vecSpans d p.val) (j.op.spans d p.val)) || !normOk || c.stopped || c.frozen || d.arraysHeld then d
    else
      let vs := (upto o.count).map (fun i =>
        prologue d p o i (vecCodes o.fmt (d.satRd p.val (o.addr + 128 * o.stride * i) (vecBytes o.fmt))))
      let before := (a.runs.map (fun j => j.t0 + j.span - c.totCyc)).foldl max 0
      let job : RunJob :=
        { op := o, w := a.active, xs := vs.map (·.1), fl := vs.foldl (fun x e => x ||| e.2) 0#8, t0 := c.totCyc
          lead := if o.chain = 0 then before else max before 12
          pitch := if o.chain ≠ 0 && (o.fmt = 10 || o.fmt = 11) then 2 else 1, vecs := o.vecSpans d p.val }
      (d.modCore p (·.modArr arr (fun a => { a with queue := rest, runs := a.runs ++ [job], idle := 0 }))).drainM p arr
  | _ => d

/-- MRUN_COMPLETE (R109, R139, R143-R147): the oldest stream's results have landed; not while a forced relock keeps vectors
of it outside the array (R377). One of an aborted task finishes without writing (R123). -/
def Dev.mrunComplete (d : Dev) (p : Fin 7) (arr : Nat) : Dev :=
  match ((d.core p).arr arr).runs with
  | [] => d
  | j :: rest =>
    if d.arraysHeld && j.streams (d.core p).totCyc then d
    else if (d.core p).aborting then d.modCore p (·.modArr arr (fun a => { a with runs := rest }))
    else
    (d.modCore p (fun c =>
      let a := { c.arr arr with runs := rest }
      let a := if j.op.pair && !isGrouped j.op.fmt then { a with acc1 := [], latch := 0#2048 } else a
      let (a, fl) := (upto j.op.count).foldl (landRow j) (a, j.fl)
      let a := if isGrouped j.op.fmt then { a with latch := classScales j.w j.op.fmt } else a
      ((c.setArr arr a).addNf fl).raiseF j.op.flag)).drainM p arr

/-! ## Epilogues -/

/-- MEPI_START (R109, R139, R140, R167, R174): the MEPI at the head starts once every earlier MRUN into its plane has
landed, the staging buffer is free, and the earlier updates and reads of its tallies are done. -/
def Dev.mepiStart (d : Dev) (p : Fin 7) (arr : Nat) : Dev :=
  let c := d.core p
  let a := c.arr arr
  match a.queue with
  | .epi o :: rest =>
    let ts := o.tallies d p.val
    let landed := !a.runs.any (fun j => (MOp.run j.op).targets.any ((MOp.epi o).targets.contains ·))
    let updates := (c.arrA.epiOps ++ c.arrB.epiOps).any (fun e =>
      decide (e.seq < o.seq) && (e.tallies d p.val).any (ts.contains ·))
    let reads := (c.arrA.queue ++ c.arrB.queue).any (fun q =>
      match q with
      | .run r => decide (r.seq < o.seq) && (r.normTallies d p.val).any (ts.contains ·)
      | _ => false)
    if !landed || !a.epis.isEmpty || updates || reads || c.stopped || c.frozen then d
    else
      let job : EpiJob :=
        { op := o, lo := if o.tag = .grouped || o.plane % 2 = 0 then a.acc0 else a.acc1, hi := a.acc1, latch := a.latch
          t0 := c.totCyc, width := epiRowBytes d p.val o.chain, resid := o.residReads d p.val
          vecs := o.vecSpans d p.val }
      (d.modCore p (·.modArr arr (fun a => { a with queue := rest, epis := a.epis ++ [job] }))).drainM p arr
  | _ => d

/-- MEPI_COMPLETE (R109, R136, R164-R166, R172): the rows pass through the epilogue into the Satchel, once an earlier
MLOAD of the array has read the bytes they go to; the flag is set. Until then every word of the rows reads old, and an
L-slot store made meanwhile to one of them is overwritten here: R120 lets each word be either (DESIGN CHOICE, log 82). One of
an aborted task finishes without writing (R123). -/
def Dev.mepiComplete (d : Dev) (p : Fin 7) (arr : Nat) : Dev :=
  match ((d.core p).arr arr).epis with
  | [] => d
  | j :: rest =>
    if (d.core p).aborting then d.modCore p (·.modArr arr (fun a => { a with epis := rest }))
    else if ((d.core p).arr arr).loading.any (fun o => decide (o.seq < j.op.seq) && spansMeet o.spans (j.op.spans d p.val)) then d
    else
    let d := epilogue p j d
    (d.modCore p (fun c => (c.modArr arr (fun a => { a with epis := rest })).raiseF j.op.flag)).drainM p arr

end Sys2Proof.Machine
end

