-- ==== Sys2Proof/Machine/Walker.lean ====
section
/-! DEFINITION. The walkers (R181-R201, R212-R217, R224-R231): descriptors, the checks a walker makes when it takes a
transfer up, what a transfer moves, feature-map compression, grouped weight planes, pointer lists, remote transfers. -/

namespace Sys2Proof.Machine

/-! ## Descriptors (R184-R186) -/

structure Dsc where
  far : Nat
  remote : Bool
  near : Nat
  ext : Bool
  pl : Nat
  fmc : Nat
  mode : Nat
  nfmt : Nat
  ffmt : Nat
  size : List Nat
  tile : List Nat
  fstr : List Int
  nstr : List Nat
  plen : Nat
  serp : Nat
  perm : Nat
  resv : Bool

def wd (ws : List W32) (i : Nat) : Nat := (ws.getD i 0#32).toNat

/-- The fields of a descriptor's words; `resv` says that a reserved field or encoding is used (reason 0x01), a PLENM1 that is
not 0 with PL other than 1 among them (DESIGN CHOICE for PL = 2, log 103). -/
def parseDsc (ws : List W32) : Dsc :=
  let w := wd ws
  let ctl := w 3
  { far := w 0 + bits (w 1) 23 0 * 2 ^ 32
    remote := bit (w 1) 24
    near := bits (w 2) 22 0
    ext := bit ctl 31
    pl := bits ctl 25 24
    fmc := bits ctl 19 18
    mode := bits ctl 17 16
    nfmt := bits ctl 11 8
    ffmt := bits ctl 3 0
    size := (upto 5).map (fun i => bits (w (4 + i)) 15 0)
    tile := (upto 5).map (fun i => bits (w (4 + i)) 31 16)
    fstr := 0 :: (upto 4).map (fun i => sgn 32 (w (9 + i)))
    nstr := [0, bits (w 13) 15 0, bits (w 13) 31 16, bits (w 14) 15 0, bits (w 14) 31 16]
    plen := bits (w 15) 31 20
    serp := bits (w 15) 19 15
    perm := bits (w 15) 14 0
    resv := bits (w 1) 31 25 != 0 || bits (w 2) 31 23 != 0 || bits ctl 30 26 != 0 || bits ctl 25 24 == 3 ||
      bits ctl 23 20 != 0 || bits ctl 19 18 == 3 || bits ctl 17 16 == 3 || bits ctl 15 12 != 0 || bit ctl 11 ||
      bits ctl 7 4 != 0 || bit ctl 3 || (bits ctl 25 24 != 1 && bits (w 15) 31 20 != 0) ||
      (!bit (w 1) 24 && bits (w 1) 23 16 != 0) }

def Dsc.sz (x : Dsc) (i : Nat) : Nat := x.size.getD i 1
def Dsc.tl (x : Dsc) (i : Nat) : Nat := x.tile.getD i 1
def Dsc.fs (x : Dsc) (i : Nat) : Int := x.fstr.getD i 0
def Dsc.ns (x : Dsc) (i : Nat) : Nat := x.nstr.getD i 0
def Dsc.ff (x : Dsc) : EFmt := (efmtOf x.ffmt).getD .int8
def Dsc.nf (x : Dsc) : EFmt := (efmtOf x.nfmt).getD .int8
/-- Bytes of a far element, taking 1 for INT4 (R192). -/
def Dsc.fsize (x : Dsc) : Nat := max 1 (x.ff.bits / 8)

/-- Loop levels to dimensions (R186). -/
def Dsc.perms (x : Dsc) : List Nat :=
  if x.perm = 0 then [0, 1, 2, 3, 4] else (upto 5).map (fun p => bits x.perm (3 * p + 2) (3 * p))

def Dsc.permOk (x : Dsc) : Bool := (upto 5).all (fun d => x.perms.contains d)

def Dsc.grid (x : Dsc) (i : Nat) : Nat := ceilDiv (x.sz i) (x.tl i)

/-- Tiles of the tensor. -/
def Dsc.nt (x : Dsc) : Nat := ((upto 5).map x.grid).foldl (· * ·) 1

/-- List entry and tile number of an index argument (R187). -/
def Dsc.split (x : Dsc) (j : Nat) : Nat × Nat := if x.pl = 0 then (0, j) else (j / x.nt, j % x.nt)

/-- The tile's origin along each dimension (R187). -/
def Dsc.origin (x : Dsc) (t : Nat) : List Nat :=
  let res := (x.perms.zip (upto 5)).foldl (fun (st : Nat × List (Nat × Nat)) e =>
    let (rem, acc) := st
    let (dm, lvl) := e
    let g := x.grid dm
    let r := rem / g
    let v := rem % g
    (r, (dm, if bit x.serp lvl && r % 2 == 1 then g - 1 - v else v) :: acc)) (t, [])
  (upto 5).map (fun dm => (((res.2.find? (fun e => e.1 == dm)).map (·.2)).getD 0) * x.tl dm)

/-- The rows of the tile box, dimension 1 fastest: indices along dimensions 1-4 (R188). -/
def Dsc.rows (x : Dsc) : List (List Nat) :=
  (upto (x.tl 4)).flatMap (fun i4 => (upto (x.tl 3)).flatMap (fun i3 => (upto (x.tl 2)).flatMap (fun i2 =>
    (upto (x.tl 1)).map (fun i1 => [0, i1, i2, i3, i4]))))

/-! ## Extensions -/

/-- The im2col extension (R212). -/
structure Im2col where
  kw : Nat
  kh : Nat
  iw : Nat
  ih : Nat
  sx : Nat
  sy : Nat
  dx : Nat
  dy : Nat
  padl : Nat
  padr : Nat
  padt : Nat
  padb : Nat

def parseIm (ws : List W32) : Im2col :=
  let e (i : Nat) := wd ws (16 + i)
  { kw := bits (e 0) 15 8, kh := bits (e 0) 23 16, iw := bits (e 1) 15 0, ih := bits (e 1) 31 16
    sx := bits (e 2) 7 0, sy := bits (e 2) 15 8, dx := bits (e 2) 23 16, dy := bits (e 2) 31 24
    padl := bits (e 3) 15 0, padr := bits (e 3) 31 16, padt := bits (e 4) 15 0, padb := bits (e 4) 31 16 }

/-- The output extents (R214). -/
def Im2col.ow (m : Im2col) : Int :=
  ((m.iw + m.padl + m.padr : Nat) - (m.dx * (m.kw - 1) : Nat) - 1 : Int) / (m.sx : Int) + 1
def Im2col.oh (m : Im2col) : Int :=
  ((m.ih + m.padt + m.padb : Nat) - (m.dy * (m.kh - 1) : Nat) - 1 : Int) / (m.sy : Int) + 1

/-- Reserved fields and encodings of an extension (R195, R212). -/
def extResv (ws : List W32) (kind : Nat) : Bool :=
  let e (i : Nat) := wd ws (16 + i)
  if kind = 1 then
    bits (e 0) 31 10 != 0 || bits (e 0) 9 8 == 3 || bits (e 2) 31 24 != 0 || bits (e 5) 31 24 != 0 ||
      bits (e 6) 31 23 != 0 || (upto 9).any (fun i => e (7 + i) != 0)
  else if kind = 2 then
    let m := parseIm ws
    bits (e 0) 31 24 != 0 || (upto 11).any (fun i => e (5 + i) != 0) ||
      [m.kw, m.kh, m.iw, m.ih, m.sx, m.sy, m.dx, m.dy].contains 0
  else false

/-! ## Elements in memory -/

/-- Byte `k` of a row whose element 0 would lie at `base`, which may itself lie below address 0 (R188). -/
def rowByte (base : Int) (k : Nat) : Nat := (base + k).toNat

/-- Element `e` of a row at `base` (R188: two INT4 elements a byte, R50). -/
def elemRd (rd : Nat → Byte) (f : EFmt) (base : Int) (e : Nat) : Nat :=
  if f.bits = 4 then
    let b := (rd (rowByte base (e / 2))).toNat
    if e % 2 = 0 then b % 16 else b / 16
  else
    let n := f.bits / 8
    leNat ((upto n).map (fun i => rd (rowByte base (e * n + i))))

/-- Format conversion of an element (R190). -/
def cvtEl (src dst : EFmt) (x : Nat) : Nat × NumFlags := if src = dst then (x, 0#8) else dst.enc 0 (src.dec x)

/-! ## One row of a transfer -/

/-- Where dimension-0 runs of a transfer lie: the tile row's near byte, whether it is inside the tensor (and, for
im2col, the image), the far byte of tensor coordinate 0 of that row, the first coordinate and how many of the tile's
elements lie inside. -/
structure Row where
  near : Nat
  inside : Bool
  far : Int
  c0 : Nat
  n0 : Nat

/-- Row `i` (indices of dimensions 1-4) of the tile with origin `o` at `base` (R188, R214). -/
def rowOf (x : Dsc) (im : Option Im2col) (base : Nat) (o : List Nat) (i : List Nat) : Row :=
  let c (k : Nat) : Nat := o.getD k 0 + i.getD k 0
  let inb := [1, 2, 3, 4].all (fun k => decide (c k < x.sz k))
  let n0 := min (x.tl 0) (x.sz 0 - o.getD 0 0)
  let near := x.near + 16 * (([1, 2, 3, 4].map (fun k => i.getD k 0 * x.ns k)).foldl (· + ·) 0)
  match im with
  | none =>
    { near := near, inside := inb, c0 := o.getD 0 0, n0 := n0
      far := (base : Int) + ([1, 2, 3, 4].map (fun k => (c k : Int) * x.fs k)).foldl (· + ·) 0 }
  | some m =>
    let ky := c 3 / m.kw
    let kx := c 3 % m.kw
    let ix : Int := (c 1 * m.sx : Nat) - (m.padl : Int) + (kx * m.dx : Nat)
    let iy : Int := (c 2 * m.sy : Nat) - (m.padt : Int) + (ky * m.dy : Nat)
    { near := near, c0 := o.getD 0 0, n0 := n0
      inside := inb && decide (0 ≤ ix ∧ ix < m.iw) && decide (0 ≤ iy ∧ iy < m.ih)
      far := (base : Int) + ix * x.fs 1 + iy * x.fs 2 + (c 4 : Int) * x.fs 4 }

/-- First far byte and byte count of the in-bounds run of a row. -/
def rowSpan (x : Dsc) (r : Row) : Int × Nat :=
  let lo := r.c0 * x.ff.bits / 8
  let hi := ((r.c0 + r.n0) * x.ff.bits + 7) / 8
  (r.far + lo, hi - lo)

/-- The rows of a transfer that reach far memory. -/
def liveRows (x : Dsc) (im : Option Im2col) (base : Nat) (o : List Nat) : List Row :=
  (x.rows.map (rowOf x im base o)).filter (fun r => r.inside && decide (0 < r.n0))

/-! ## Feature-map compression (R224-R231) -/

/-- Bytes of a compressed block: 128 for 2:1, 64 for 4:1. -/
def fmcBs (fmc : Nat) : Nat := if fmc = 1 then 128 else 64

def Dsc.nbc (x : Dsc) : Nat := ceilDiv (x.sz 0) 16
def Dsc.nbx (x : Dsc) : Nat := ceilDiv (x.sz 1) 4
def Dsc.nby (x : Dsc) : Nat := ceilDiv (x.sz 2) 4

/-- The payload length (R225). -/
def Dsc.plenFmc (x : Dsc) : Nat := x.nbc * x.nbx * x.nby * x.sz 3 * x.sz 4 * fmcBs x.fmc

/-- Address of the block that holds tensor coordinates (R225). -/
def blockAt (x : Dsc) (base : Nat) (c0 c1 c2 c3 c4 : Nat) : Nat :=
  base + 64 + fmcBs x.fmc * (c0 / 16 + x.nbc * (c1 / 4 + x.nbx * (c2 / 4 + x.nby * (c3 + x.sz 3 * c4))))

/-- The header of a descriptor (R226). -/
def fmcHeader (x : Dsc) : List Byte :=
  leBytes 2 0xF3C6 ++ leBytes 1 x.fmc ++ leBytes 1 x.ffmt ++ (x.size.flatMap (leBytes 2)) ++ leBytes 2 0 ++
    leBytes 8 x.plenFmc ++ leBytes 40 0

/-- The key of a code and back (R227). -/
def fmcKey (f : EFmt) (x : Nat) : Nat := if f = .int8 then x ^^^ 0x80 else x

/-- Smallest s up to `cap` with r at most k 2^s (R227, R228). -/
def fmcShift (r k cap : Nat) : Nat := ((upto (cap + 1)).find? (fun s => decide (r ≤ k * 2 ^ s))).getD cap

/-- The 64-bit word of one channel in a 2:1 block: keys by position, none where the position is outside (R227). -/
def fmcEnc2 (ks : List (Option Nat)) : Nat :=
  let inc := ks.filterMap id
  match inc with
  | [] => 0
  | k :: r =>
    let b := r.foldl min k
    let s := fmcShift (r.foldl max k - b) 7 6
    let h := if s = 0 then 0 else 2 ^ (s - 1)
    b + s * 2 ^ 8 + ((ks.zip (upto 16)).map (fun e =>
      match e.1 with
      | some v => ((v - b + h) / 2 ^ s) * 2 ^ (11 + 3 * e.2)
      | none => 0)).foldl (· + ·) 0

/-- The quad of a position (R225). -/
def quadOf (p : Nat) : Nat := 2 * (p / 4 / 2) + (p % 4) / 2

/-- The 32-bit word of one channel in a 4:1 block (R228). -/
def fmcEnc4 (ks : List (Option Nat)) : Nat :=
  let quads : List (Option Nat) := (upto 4).map (fun q =>
    let vs := ((ks.zip (upto 16)).filter (fun e => quadOf e.2 = q)).filterMap (·.1)
    if vs.isEmpty then none else some ((2 * vs.foldl (· + ·) 0 + vs.length) / (2 * vs.length)))
  match quads.filterMap id with
  | [] => 0
  | k :: r =>
    let b := r.foldl min k
    let s := fmcShift (r.foldl max k - b) 31 4
    let h := if s = 0 then 0 else 2 ^ (s - 1)
    b + s * 2 ^ 8 + ((quads.zip (upto 4)).map (fun e =>
      match e.1 with
      | some v => ((v - b + h) / 2 ^ s) * 2 ^ (11 + 5 * e.2)
      | none => 0)).foldl (· + ·) 0

/-- The key at position `p` of a channel word (R229). -/
def fmcDec (fmc word p : Nat) : Nat :=
  let b := bits word 7 0
  let s := min (bits word 10 8) (if fmc = 1 then 6 else 4)
  let v := if fmc = 1 then bits word (13 + 3 * p) (11 + 3 * p) else bits word (15 + 5 * quadOf p) (11 + 5 * quadOf p)
  min 255 (b + v * 2 ^ s)

/-- The code of an element of a compressed tensor (R225, R229). -/
def fmcRead (rd : Nat → Byte) (x : Dsc) (base c0 c1 c2 c3 c4 : Nat) : Nat :=
  let wb := fmcBs x.fmc / 16
  let a := blockAt x base c0 c1 c2 c3 c4 + wb * (c0 % 16)
  let word := leNat ((upto wb).map (fun i => rd (a + i)))
  fmcKey x.ff (fmcDec x.fmc word (4 * (c2 % 4) + c1 % 4))

/-- The blocks a tile box covers: their first coordinates (R230, R231). -/
def fmcBlocks (x : Dsc) (o : List Nat) : List (List Nat) :=
  let rng (k st : Nat) : List Nat :=
    (upto (ceilDiv (min (x.tl k) (x.sz k - o.getD k 0)) st)).map (fun i => o.getD k 0 + st * i)
  (rng 4 1).flatMap (fun c4 => (rng 3 1).flatMap (fun c3 => (rng 2 4).flatMap (fun c2 => (rng 1 4).flatMap (fun c1 =>
    (rng 0 16).map (fun c0 => [c0, c1, c2, c3, c4])))))

/-! ## Checks (R192) -/

/-- A failed check: the reason and the first offending address. -/
abbrev WFail := Nat × Nat

/-- A region a walker's far side may lie in (R35): the stack below the runtime region, or Commons. -/
def walkRegion (d : Dev) (a : Int) : Option (Int × Int) :=
  if d.stackOn ∧ 0 ≤ a ∧ a < (runtimeBase : Int) then some (0, (runtimeBase : Int))
  else if (commonsBase : Int) ≤ a ∧ a < (commonsBase + commonsSize : Nat) then
    some ((commonsBase : Int), ((commonsBase + commonsSize : Nat) : Int))
  else none

/-- The first byte of the given spans that is unreachable or leaves the region of the first one; none if all lie in one
reachable region. -/
def spanFail (d : Dev) : List (Int × Nat) → Option Int
  | [] => none
  | (a, n) :: r =>
    match walkRegion d a with
    | none => some a
    | some (lo, hi) =>
      ((a, n) :: r).findSome? (fun e =>
        if e.1 < lo ∨ hi ≤ e.1 then some e.1
        else if hi < e.1 + (e.2 : Int) then some hi else none)

/-- The first byte of the given spans that no 48-bit address of another device names: R192 checks it here, the target its
regions (R45). -/
def spanOut : List (Int × Nat) → Option Int
  | [] => none
  | (a, n) :: r =>
    if a < 0 ∨ 2 ^ 48 ≤ a then some a else if 2 ^ 48 < a + (n : Int) then some (2 ^ 48) else spanOut r

/-- The far check of R192 for spans on this device (`dev` none) or on another. -/
def farFail (d : Dev) (dev : Option Nat) (l : List (Int × Nat)) : Option Int :=
  match dev with
  | none => spanFail d l
  | some v => (spanOut l).map (fun a => (v : Int) * 2 ^ 48 + a)

/-- The far byte of a possibly negative or oversized number, as the fault registers hold it. -/
def faddr (a : Int) : Nat := unsgn 56 a

/-- The far spans of a transfer, or of the header and blocks of a compressed one. -/
def farSpans (x : Dsc) (im : Option Im2col) (base : Nat) (o : List Nat) : List (Int × Nat) :=
  if x.fmc ≠ 0 then
    ((base : Int), 64) :: (fmcBlocks x o).map (fun c =>
      ((blockAt x base (c.getD 0 0) (c.getD 1 0) (c.getD 2 0) (c.getD 3 0) (c.getD 4 0) : Int), fmcBs x.fmc))
  else (liveRows x im base o).map (rowSpan x)

/-- The scale rows of a grouped-weight extension that are read: group-scale rows and the class scales (R195). -/
structure Scales where
  g : Nat
  gs : Nat
  gsrow : Int
  cs : Nat
  nears : Nat

def parseScales (ws : List W32) : Scales :=
  let e (i : Nat) := wd ws (16 + i)
  { g := groupSize (bits (e 0) 9 8), gs := e 1 + bits (e 2) 23 0 * 2 ^ 32, gsrow := sgn 32 (e 3)
    cs := e 4 + bits (e 5) 23 0 * 2 ^ 32, nears := bits (e 6) 22 0 }

/-- Columns of a plane tile inside the tensor. -/
def scaleN (x : Dsc) (o : List Nat) : Nat := min 128 (x.sz 0 - o.getD 0 0)

/-- Far spans of the scales: rows of GS bytes, then the class scales. -/
def gsSpans (x : Dsc) (s : Scales) (o : List Nat) : List (Int × Nat) :=
  ((upto (x.tl 1 / s.g)).filter (fun r => decide (o.getD 1 0 + s.g * r < x.sz 1))).map (fun r =>
    ((s.gs : Int) + ((o.getD 1 0 / s.g + r : Nat) : Int) * s.gsrow + (o.getD 0 0 : Nat), scaleN x o))
def csSpans (x : Dsc) (s : Scales) (o : List Nat) : List (Int × Nat) :=
  [((s.cs : Int) + (2 * o.getD 0 0 : Nat), 2 * scaleN x o)]

/-- The compatibility checks of MODE, FMC, EXT, PL, formats and walker (reason 0x03: R185, R193, R195, R213). -/
def modeBad (x : Dsc) (ws : List W32) (w : Nat) (plTask : Bool) : Bool :=
  let im := parseIm ws
  let kind := bits (wd ws 16) 7 0
  ((x.mode == 1 || x.mode == 2) && (w == 2 || !x.ext)) ||
  (x.pl != 0 && x.remote) ||
  (x.pl == 2 && (x.far != 0 || !plTask)) ||
  (x.mode == 1 && (x.fmc != 0 || x.fs 3 != 0)) ||
  (x.mode == 1 && kind == 2 && (x.sz 3 != im.kh * im.kw ||
    (decide (0 < im.ow) && decide (0 < im.oh) && (decide ((x.sz 1 : Int) ≠ im.ow) || decide ((x.sz 2 : Int) ≠ im.oh))))) ||
  (x.mode == 2 && (x.fmc != 0 || x.ffmt != x.nfmt || !(x.nfmt == 0 || x.nfmt == 2) || x.tl 0 != 128 ||
    x.tl 1 != (if x.nfmt == 2 then 256 else 128) || x.ns 1 != (if x.nfmt == 2 then 4 else 8) || x.near % 128 != 0 ||
    [2, 3, 4].any (fun k => x.sz k != 1 || x.tl k != 1)))

/-- Highest near byte plus one. -/
def nearEnd (x : Dsc) : Nat :=
  x.near + (x.tl 0 * x.nf.bits + 7) / 8 + 16 * (([1, 2, 3, 4].map (fun k => (x.tl k - 1) * x.ns k)).foldl (· + ·) 0)

/-- An empty im2col output (R215). -/
def emptyOut (x : Dsc) (ws : List W32) : Bool :=
  x.mode == 1 && (decide ((parseIm ws).ow ≤ 0) || decide ((parseIm ws).oh ≤ 0))

/-- The FMC layout checks of R224 that a descriptor alone decides. FFMT other than NFMT, or a format that is not INT8 or UINT8,
is among them: it records 0x0E, not the 0x03 of incompatible formats (DESIGN CHOICE, log 103). -/
def fmcBad (x : Dsc) : Bool :=
  x.fmc != 0 && (x.mode != 0 || x.ffmt != x.nfmt || !(x.ffmt == 0 || x.ffmt == 1) ||
    [1, 2, 3, 4].any (fun k => x.fs k != 0) || x.tl 0 % 16 != 0 || x.tl 1 % 4 != 0 || x.tl 2 % 4 != 0)

/-- The layout checks of R224 on the base of a compressed tensor, FAR or a list entry. -/
def fmcBaseBad (x : Dsc) (remote : Bool) (base : Nat) : Bool :=
  x.fmc != 0 && (remote || decide (stackEnd ≤ base) || base % 64 != 0)

/-- The lowest-numbered reason among failed checks (R192). -/
def lowest (l : List (Bool × WFail)) : Option WFail :=
  (l.filter (·.1)).foldl (fun m e => match m with | none => some e.2 | some x => if e.2.1 < x.1 then some e.2 else some x) none

/-- The index of the pointer list's first byte and its length in entries (R193). -/
def plOf (c : CoreSt) (x : Dsc) : Nat × Nat := if x.pl = 1 then (x.far, x.plen + 1) else (c.plAddr, c.plLen)

/-- Where a far address of a descriptor lies: the device of a fabric address, none for this one, its own ID's or one whose
route is local (R46, R365). -/
def farDev (d : Dev) (remote : Bool) (a : Nat) : Option Nat :=
  if remote && decide (some (a / 2 ^ 48) ≠ d.ownId) && !d.routedHere (a / 2 ^ 48) then some (a / 2 ^ 48) else none

/-- The scales with their addresses as local to the device they lie on: the device bits follow REMOTE (R195). -/
def Dsc.scales (x : Dsc) (ws : List W32) : Scales :=
  let s := parseScales ws
  if x.remote then { s with gs := s.gs % 2 ^ 48, cs := s.cs % 2 ^ 48 } else s

/-- The first stage of checks (R192), for base `FAR` where there is no pointer list. Without its extension a transfer is
checked for what its descriptor alone says. An index beyond the grid or the list names no tile, so no region is checked for it
and it records 0x07 (DESIGN CHOICE, log 103). -/
def stage1 (d : Dev) (c : CoreSt) (w : Nat) (t : Xfer) : Option WFail :=
  let ws := t.words
  if ws.length < 16 then some (4, 0)
  else
    let x := parseDsc ws
    let kind := bits (wd ws 16) 7 0
    let extMissing := x.ext && decide (ws.length < 32)
    let early := lowest [
      (x.resv || (x.ext && !extMissing && extResv ws kind), (1, 0)),
      ([0, 1, 2, 3, 4].any (fun k => x.sz k == 0 || x.tl k == 0) || !x.permOk, (2, 0)),
      (extMissing && modeBad x ws w c.plTask, (3, 0)),
      (extMissing, (4, 0))]
    match early with
    | some e => some e
    | none =>
      let empty := emptyOut x ws && kind == 2
      let (p, tl) := x.split t.idx.toNat
      let o := x.origin (tl % max 1 x.nt)
      let (pla, pln) := plOf c x
      let idxBad := if x.pl = 0 then !empty && decide (x.nt ≤ t.idx.toNat) else decide (pln ≤ p)
      let im := if x.mode = 1 then some (parseIm ws) else none
      let sc := x.scales ws
      let extOk := x.mode == 0 || (x.mode == 1 && kind == 2) || (x.mode == 2 && kind == 1)
      let dead := empty || idxBad || !extOk
      let noTile := empty || idxBad || (x.mode == 1 && !extOk)
      let gs := (parseScales ws).gs
      let cs := (parseScales ws).cs
      let base := x.far % 2 ^ 48
      let far0 := if x.remote then base else x.far
      let spans := if noTile then [] else farSpans x im far0 o
      let spanBad := if x.pl ≠ 0 then none else farFail d (farDev d x.remote x.far) spans
      let listBad := if x.pl = 0 then none else spanFail d [((pla : Int), 8 * pln)]
      let gsBad := if x.mode = 2 && !dead then farFail d (farDev d x.remote gs) (gsSpans x sc o) else none
      let csBad := if x.mode = 2 && !dead then farFail d (farDev d x.remote cs) (csSpans x sc o) else none
      let unused (k : Nat) : Bool := x.sz k == 1 && x.tl k == 1 && !(x.mode == 1 && decide (k ≤ 2))
      let strideBad := [1, 2, 3, 4].any (fun k => !unused k && decide (x.fs k % (x.fsize : Int) ≠ 0))
      lowest [
        (modeBad x ws w c.plTask, (3, 0)),
        (x.near % 16 != 0 || decide (satchelSize < nearEnd x) ||
          (x.mode == 2 && kind == 1 && (sc.nears % 128 != 0 || decide (satchelSize < sc.nears + scaleBytes (if x.nfmt = 2 then 10 else 8) (bits (wd ws 16) 9 8)))), (4, 0)),
        (spanBad.isSome, (5, faddr (spanBad.getD 0))),
        (listBad.isSome, (5, faddr (listBad.getD 0))),
        (gsBad.isSome, (5, faddr (gsBad.getD 0))),
        (csBad.isSome, (5, faddr (csBad.getD 0))),
        (x.far % x.fsize != 0 || strideBad, (6, 0)),
        (idxBad, (7, 0)),
        (x.remote && decide (192 ≤ x.far / 2 ^ 48), (9, x.far)),
        (x.remote && x.mode == 2 && decide (192 ≤ gs / 2 ^ 48), (9, gs)),
        (x.remote && x.mode == 2 && decide (192 ≤ cs / 2 ^ 48), (9, cs)),
        ((x.ext && kind != x.mode % 3 && !(x.mode == 1 && kind == 2) && !(x.mode == 2 && kind == 1)) ||
          (x.mode == 1 && kind != 2) || (x.mode == 2 && kind != 1) || (x.ext && x.mode == 0), (0x0C, 0)),
        (fmcBad x || (x.pl == 0 && fmcBaseBad x x.remote x.far), (0x0E, x.far))]

/-- The later stages (R192): the pointer-list entry, then the FMC header and payload range. Answers the base of the
transfer, as an address local to the device it lies on, and that device (none: this one). DESIGN CHOICE (log 103): an entry
that names device 192-255 records 0x09, one whose transfer leaves the region of its base 0x08, a base that is no multiple of
the far element size 0x06. An empty output has its entry read and checked like any other, of which the base alone can be
unreachable (R215; DEDUCED, log 103). A poisoned FMC header is not compared: its reader ends as R399 states. -/
def stage2 (d : Dev) (c : CoreSt) (t : Xfer) (write : Bool) : Except WFail (Nat × Option Nat) :=
  let x := parseDsc t.words
  let (p, tl) := x.split t.idx.toNat
  let o := x.origin tl
  let (pla, _) := plOf c x
  let ea := pla + 8 * p
  let ent := d.loadNat ea 8
  let base := if x.pl = 0 then x.far else bits ent 55 0
  let remote := if x.pl = 0 then x.remote else bit ent 56
  let dev := farDev d remote base
  let lb := if remote then base % 2 ^ 48 else base
  let im := if x.mode = 1 then some (parseIm t.words) else none
  let spans := if emptyOut x t.words then [((lb : Int), 1)] else farSpans x im lb o
  let entFail : Option WFail :=
    if x.pl = 0 then none
    else if bits ent 63 57 ≠ 0 then some (8, ea)
    else if remote && decide (192 ≤ base / 2 ^ 48) then some (9, base)
    else
      match farFail d dev spans with
      | some a => some (8, faddr a)
      | none =>
        if base % x.fsize ≠ 0 then some (6, 0)
        else if fmcBaseBad x remote base then some (0x0E, base)
        else none
  match entFail with
  | some e => .error e
  | none =>
    if emptyOut x t.words then .ok (lb, none)
    else if x.fmc ≠ 0 ∧ !write then
      if d.poisonedN lb 64 then .ok (lb, none)
      else if d.load lb 64 ≠ fmcHeader x then .error (0x0F, lb)
      else
        match spanFail d [((lb : Int), 64 + x.plenFmc)] with
        | some a => .error (5, faddr a)
        | none => .ok (lb, none)
    else .ok (lb, dev)

/-! ## Moving data -/

/-- The pad value's low bits (R191). -/
def padBits (t : Xfer) (f : EFmt) : Nat := t.padv.toNat % 2 ^ f.bits

/-- The near elements of one row of a read, with the conversion flags (R188, R190, R195, R214, R229). -/
def readRow (rd : Nat → Byte) (x : Dsc) (im : Option Im2col) (t : Xfer) (base : Nat) (o i : List Nat) :
    List Nat × NumFlags :=
  let r := rowOf x im base o i
  let padv := if x.mode = 2 then 0 else padBits t x.nf
  let els := (upto (x.tl 0)).map (fun i0 =>
    if r.inside && decide (i0 < r.n0) then
      if x.fmc ≠ 0 then
        (fmcRead rd x base (r.c0 + i0) (o.getD 1 0 + i.getD 1 0) (o.getD 2 0 + i.getD 2 0) (o.getD 3 0 + i.getD 3 0)
          (o.getD 4 0 + i.getD 4 0), 0#8)
      else cvtEl x.ff x.nf (elemRd rd x.ff r.far (r.c0 + i0))
    else (padv, 0#8))
  (els.map (·.1), els.foldl (fun a e => a ||| e.2) 0#8)

/-- The scale stream of a grouped plane at NEARS (R195). -/
def scaleStream (rdG rdC : Nat → Byte) (x : Dsc) (s : Scales) (o : List Nat) : List Byte :=
  let o0 := o.getD 0 0
  let o1 := o.getD 1 0
  ((upto (x.tl 1 / s.g)).flatMap (fun r => (upto 128).map (fun n =>
    if o0 + n < x.sz 0 ∧ o1 + s.g * r < x.sz 1 then
      rdG ((s.gs : Int) + ((o1 / s.g + r : Nat) : Int) * s.gsrow + (o0 + n : Nat)).toNat
    else 0#8))) ++
  ((upto 128).flatMap (fun n =>
    if o0 + n < x.sz 0 then [rdC (s.cs + 2 * (o0 + n)), rdC (s.cs + 2 * (o0 + n) + 1)] else [0#8, 0#8]))

/-- A whole read transfer into slot `p`'s Satchel (R188, R195): `rd` reads the tensor's far bytes, `rdG` and `rdC` those of
the group and class scales. -/
def moveRead (d : Dev) (p : Fin 7) (t : Xfer) (base : Nat) (rd rdG rdC : Nat → Byte) : Dev :=
  let x := parseDsc t.words
  let im := if x.mode = 1 then some (parseIm t.words) else none
  let o := x.origin (x.split t.idx.toNat).2
  let (d, fl) := x.rows.foldl (fun (st : Dev × NumFlags) i =>
    let (els, f) := readRow rd x im t base o i
    (st.1.satWr p.val (rowOf x im base o i).near (packEls x.nf els), st.2 ||| f)) (d, 0#8)
  let d := if x.mode = 2 then d.satWr p.val (parseScales t.words).nears (scaleStream rdG rdC x (x.scales t.words) o) else d
  d.modCore p (·.addNf fl)

/-- The far bytes one row of a write stores, as (address, byte) pairs (R188, R190, R50); `far` reads far memory, for
the nibble an INT4 edge keeps. -/
def writeRow (far : Nat → Byte) (near : Nat → Byte) (x : Dsc) (base : Nat) (o i : List Nat) :
    List (Nat × Byte) × NumFlags :=
  let r := rowOf x none base o i
  if !r.inside then ([], 0#8)
  else
    let els := (upto r.n0).map (fun i0 => cvtEl x.nf x.ff (elemRd near x.nf r.near i0))
    let fl := els.foldl (fun a e => a ||| e.2) 0#8
    if x.ff.bits = 4 then
      let e0 := r.c0
      let lo := e0 / 2
      let hi := (e0 + r.n0 + 1) / 2
      let nib (e : Nat) : Nat :=
        if e0 ≤ e ∧ e < e0 + r.n0 then (els.getD (e - e0) (0, 0#8)).1
        else if e = x.sz 0 then 0
        else elemRd far .int4 r.far e
      ((upto (hi - lo)).map (fun k =>
        (rowByte r.far (lo + k), BitVec.ofNat 8 (nib (2 * (lo + k)) + 16 * nib (2 * (lo + k) + 1)))), fl)
    else
      let bs := packEls x.ff (els.map (·.1))
      ((bs.zip (upto bs.length)).map (fun e => (rowByte r.far (r.c0 * x.fsize + e.2), e.1)), fl)

/-- The blocks of a compressed write (R227, R228, R231). -/
def fmcWriteBlock (near : Nat → Byte) (x : Dsc) (base : Nat) (o c : List Nat) : Nat × List Byte :=
  let cc (k : Nat) := c.getD k 0
  let key (ch p : Nat) : Option Nat :=
    let c1 := cc 1 + p % 4
    let c2 := cc 2 + p / 4
    let c0 := cc 0 + ch
    if c0 < x.sz 0 ∧ c1 < x.sz 1 ∧ c2 < x.sz 2 then
      let i := [c0 - o.getD 0 0, c1 - o.getD 1 0, c2 - o.getD 2 0, cc 3 - o.getD 3 0, cc 4 - o.getD 4 0]
      some (fmcKey x.ff (near ((rowOf x none base o i).near + (c0 - o.getD 0 0))).toNat)
    else none
  let wb := fmcBs x.fmc / 16
  (blockAt x base (cc 0) (cc 1) (cc 2) (cc 3) (cc 4), (upto 16).flatMap (fun ch =>
    let ks := (upto 16).map (key ch)
    leBytes wb (if x.fmc = 1 then fmcEnc2 ks else fmcEnc4 ks)))

/-- Join pairs at consecutive addresses into runs of bytes. -/
def runsOf : List (Nat × Byte) → List (Nat × List Byte)
  | [] => []
  | (a, b) :: r =>
    match runsOf r with
    | (a', bs) :: t => if a' = a + 1 then (a, b :: bs) :: t else (a, [b]) :: (a', bs) :: t
    | [] => [(a, [b])]

/-- Far memory with the bytes written over it, the last first. -/
def overlay (ws : List (Nat × Byte)) (far : Nat → Byte) (a : Nat) : Byte := ((ws.find? (fun e => e.1 == a)).map (·.2)).getD (far a)

/-- The far bytes a write transfer stores, row by row in visit order; `far` reads far memory, over which each row finds what
the rows before it have stored (R188: a nibble it keeps may be theirs). -/
def writeRows (d : Dev) (p : Fin 7) (t : Xfer) (base : Nat) (far : Nat → Byte) : List (List (Nat × Byte)) × NumFlags :=
  let x := parseDsc t.words
  let o := x.origin (x.split t.idx.toNat).2
  let near (a : Nat) : Byte := d.mem.rd (satBase p.val + a)
  let (rs, _, fl) := x.rows.foldl (fun (st : List (List (Nat × Byte)) × List (Nat × Byte) × NumFlags) i =>
    let (l, f) := writeRow (overlay st.2.1 far) near x base o i
    (l :: st.1, l.reverse ++ st.2.1, st.2.2 ||| f)) ([], [], 0#8)
  (rs.reverse, fl)

/-- The far bytes of which a write of INT4 elements keeps a nibble, at an odd edge of a row inside the tensor (R50, R188). -/
def keptBytes (x : Dsc) (base : Nat) (o : List Nat) : List Nat :=
  if x.ff.bits ≠ 4 then []
  else (liveRows x none base o).flatMap (fun r =>
    let e := r.c0 + r.n0
    (if r.c0 % 2 = 1 then [rowByte r.far (r.c0 / 2)] else []) ++
      (if e % 2 = 1 ∧ e ≠ x.sz 0 then [rowByte r.far (e / 2)] else []))

/-- A whole local write transfer (R188, R231). -/
def moveWrite (d : Dev) (p : Fin 7) (t : Xfer) (base : Nat) : Dev :=
  let x := parseDsc t.words
  let o := x.origin (x.split t.idx.toNat).2
  if x.fmc ≠ 0 then
    let near (a : Nat) : Byte := d.mem.rd (satBase p.val + a)
    let blocks := (fmcBlocks x o).map (fmcWriteBlock near x base o)
    blocks.foldl (fun d b => d.store b.1 b.2) (d.store base (fmcHeader x))
  else
    let (l, fl) := writeRows d p t base d.mem.rd
    ((runsOf l.flatten).foldl (fun d r => d.store r.1 r.2) d).modCore p (·.addNf fl)

/-- Far 64-byte blocks a span touches (R189). -/
def spanBlocks (e : Int × Nat) : Nat := if e.2 = 0 then 0 else (e.1.toNat + e.2 - 1) / 64 - e.1.toNat / 64 + 1

/-- The far bytes of a transfer by the device they lie on (none: this one), as addresses local to it: the tensor's, for a
grouped plane those of its group scales and of its class scales (R189, R195). -/
def farGroups (d : Dev) (t : Xfer) (base : Nat) (dev : Option Nat) : List (Option Nat × List (Int × Nat)) :=
  let x := parseDsc t.words
  let o := x.origin (x.split t.idx.toNat).2
  let im := if x.mode = 1 then some (parseIm t.words) else none
  if emptyOut x t.words then []
  else
    (dev, farSpans x im base o) ::
      (if x.mode = 2 then
        [(farDev d x.remote (parseScales t.words).gs, gsSpans x (x.scales t.words) o),
         (farDev d x.remote (parseScales t.words).cs, csSpans x (x.scales t.words) o)] else [])

/-- The spans of this device's memory among them. -/
def ownSpans (l : List (Option Nat × List (Int × Nat))) : List (Int × Nat) :=
  (l.filter (fun g => g.1.isNone)).flatMap (·.2)

/-- 64-byte blocks in which the pointer-list entry of a transfer lies, none without a list (R193). -/
def entryBlocks (c : CoreSt) (t : Xfer) : Nat :=
  let x := parseDsc t.words
  if x.pl = 0 then 0 else spanBlocks ((((plOf c x).1 + 8 * (x.split t.idx.toNat).1 : Nat) : Int), 8)

/-- 64-byte blocks that a transfer moves, each once for each run (R189), with those of a read's list entry (R201). -/
def blockCount (c : CoreSt) (t : Xfer) (write : Bool) (l : List (Option Nat × List (Int × Nat))) : Nat :=
  ((l.flatMap (·.2)).map spanBlocks).foldl (· + ·) 0 + (if write then 0 else entryBlocks c t)

/-! ## Remote transfers (R197, R357, R358) -/

/-- The number a walker gives as a packet's UNIT (DESIGN CHOICE, log 19). -/
def walkerUnit (p w : Nat) : Nat := 3 * p + w

/-- The 64-byte blocks of a span. -/
def blocksOf (e : Int × Nat) : List Nat := (upto (spanBlocks e)).map (fun k => (e.1.toNat / 64 + k) * 64)

/-- A request of a remote transfer: its block, and the bytes a WRITE carries. -/
abbrev Req := Nat × Option (List (Nat × Byte))

/-- The READs of spans: each block once for each run (R189). -/
def readReqs (l : List (Int × Nat)) : List Req := l.flatMap (fun e => (blocksOf e).map (fun b => (b, none)))

/-- The WRITEs of rows of bytes at rising addresses. -/
def writeReqs (rows : List (List (Nat × Byte))) : List Req :=
  rows.flatMap (fun l =>
    match l.head?, l.getLast? with
    | some a, some z => (blocksOf ((a.1 : Int), z.1 + 1 - a.1)).map (fun b => (b, some l))
    | _, _ => [])

/-- The first request for the lowest block, then the others in order: the FIRST request carries the range from its own
address (R358). -/
def lowestFirst (l : List Req) : List Req :=
  let i := l.findIdx (fun e => l.all (fun x => decide (e.1 ≤ x.1)))
  (l[i]?).toList ++ l.eraseIdx i

/-- The blocks that a read which ends before it completes has fetched: that of its list entry, and those that other devices have
answered (R201; DESIGN CHOICE, log 110). -/
def Dev.countPart (d : Dev) (p : Fin 7) (w : Nat) (t : Xfer) : Dev :=
  if w = 2 then d else d.incSat .coreWlkRdblk [p.val] 31 0 (entryBlocks (d.core p) t + t.got.length / 64)

/-- Send the requests of one range to a device: one 64-byte block a packet, the first with the whole range, whose last
far byte is `last` (R358; DESIGN CHOICE, log 19). -/
def sendReqs (d : Dev) (p : Fin 7) (w dev last : Nat) (reqs : List Req) : Dev × List (Nat × Nat) :=
  let src := d.ownId.getD 0
  let l := lowestFirst reqs
  (l.zip (upto l.length)).foldl (fun (st : Dev × List (Nat × Nat)) e =>
    let (d, tag) := st.1.takeTag
    let b := e.1.1
    let pk := mkPacket (dev * 2 ^ 48 + b) (if e.1.2.isSome then kWrite else kRead) src (walkerUnit p.val w) tag
    let pk := { pk with
      len := 1#8
      flags := BitVec.ofNat 8 (b2n (e.2 == 0))
      lasta := if e.2 = 0 then BitVec.ofNat 64 (dev * 2 ^ 48 + last) else 0#64 }
    let pk := match e.1.2 with
      | none => pk
      | some l =>
        let at_ (k : Nat) : Option Byte := (l.filter (fun x => x.1 = b + k)).getLast?.map (·.2)
        { pk with
          mask := BitVec.ofNat 64 (packLanes 1 ((upto 64).map (fun k => b2n (at_ k).isSome)))
          data := (upto 64).map (fun k => (at_ k).getD 0#8) }
    (d.sendPkt dev pk, st.2 ++ [(tag, dev * 2 ^ 48 + b)])) (d, [])

/-- The last byte of spans. -/
def lastOf (l : List (Int × Nat)) : Nat := (l.map (fun e => e.1.toNat + e.2 - 1)).foldl max 0

/-- Send the READs of every range that lies on another device. -/
def sendReads (p : Fin 7) (w : Nat) (l : List (Option Nat × List (Int × Nat))) (d : Dev) : Dev × List (Nat × Nat) :=
  l.foldl (fun (st : Dev × List (Nat × Nat)) g =>
    match g.1 with
    | none => st
    | some dev => let (d, s) := sendReqs st.1 p w dev (lastOf g.2) (readReqs g.2); (d, st.2 ++ s)) (d, [])

/-- A far byte of a transfer: of this device's memory, or as it came back from another. -/
def Xfer.farRd (t : Xfer) (d : Dev) (dev : Option Nat) (a : Nat) : Byte :=
  match dev with
  | none => d.mem.rd a
  | some v => ((t.got.find? (fun e => e.1 == v * 2 ^ 48 + a)).map (·.2)).getD 0#8

/-- Send the WRITEs of a remote write; nibbles it keeps are those that came back (R188; DESIGN CHOICE, log 19). -/
def sendWrites (d : Dev) (p : Fin 7) (t : Xfer) (dev : Nat) : Dev × List (Nat × Nat) :=
  let x := parseDsc t.words
  let spans := farSpans x none t.base (x.origin (x.split t.idx.toNat).2)
  sendReqs d p 2 dev (lastOf spans) (writeReqs (writeRows d p t t.base (t.farRd d (some dev))).1)

/-- A remote write begins: it reads the bytes of which it keeps a nibble, or sends its WRITEs at once. -/
def startWrite (d : Dev) (p : Fin 7) (t : Xfer) (dev : Nat) : Dev × Xfer :=
  let x := parseDsc t.words
  let o := x.origin (x.split t.idx.toNat).2
  match keptBytes x t.base o with
  | [] => let (d, s) := sendWrites d p t dev; (d, { t with sent := s, wrote := true })
  | l =>
    let (d, s) := sendReqs d p 2 dev (lastOf (farSpans x none t.base o)) (readReqs (l.map (fun (a : Nat) => (Int.ofNat a, 1))))
    (d, { t with sent := s })

/-! ## Events -/

/-- A remote write reads the bytes of which it keeps a nibble and has not sent its WRITEs: no later write starts, or its bytes
would not prevail (R196). -/
def Xfer.readsFirst (t : Xfer) : Bool := t.started && t.remote && !t.wrote

/-- The first transfer of a walker that may start (R196): the oldest that has not started, while fewer than 8 are in
progress; a write only once released, and once the writes before it have sent theirs. -/
def nextStart (write : Bool) (l : List Xfer) : Option (Nat × Xfer) :=
  if 8 ≤ (l.filter (·.started)).length || (write && l.any (·.readsFirst)) then none
  else
    match (l.zip (upto l.length)).find? (fun e => !e.1.started) with
    | some (t, i) => if t.released then some (i, t) else none
    | none => none

/-- A walker meets poisoned data (R399): the task ends as R199 describes, CORE_WLK_FAULT is not written; the event
record carries the address. -/
def Dev.walkerPoison (d : Dev) (p : Fin 7) (addr : Nat) : Dev :=
  ((d.endTask p stPoisoned).dropUnstarted p).log stPoisoned 0 p.val addr (d.core p).entry

/-- The address of the first poisoned block or word among `n` bytes from `a` (R399). -/
def Dev.firstPoison (d : Dev) (a n : Nat) : Nat :=
  ((d.poison.filter (fun u => decide (poisonUnit a ≤ u ∧ u < a + n))).min?).getD a

/-- The first span that holds poisoned bytes (R399): the address of its first poisoned block or word. -/
def spansPoisoned (d : Dev) (l : List (Int × Nat)) : Option Nat :=
  (l.find? (fun e => d.poisonedN e.1.toNat e.2)).map (fun e => d.firstPoison e.1.toNat e.2)

/-- The spans of this device's memory that a transfer reads: those of a read, and the bytes of which a local write of INT4
elements keeps a nibble. -/
def readsHere (t : Xfer) (base : Nat) (dev : Option Nat) (write : Bool) (groups : List (Option Nat × List (Int × Nat))) :
    List (Int × Nat) :=
  let x := parseDsc t.words
  if !write then ownSpans groups
  else if dev.isSome || x.fmc ≠ 0 then []
  else (keptBytes x base (x.origin (x.split t.idx.toNat).2)).map (fun (a : Nat) => (Int.ofNat a, 1))

/-- WALKER_TRANSFER_START (R192, R193, R215, R230, R357): the walker takes up its next transfer, checks it, and begins,
or ends the task with a fault. The blocks of a list entry or an FMC header that a read has fetched count even where the
transfer ends there (R201). -/
def Dev.walkerStart (d : Dev) (p : Fin 7) (w : Nat) : Dev :=
  let c := d.core p
  match nextStart (w == 2) (c.wk w) with
  | none => d
  | some (i, t) =>
    let drop (d : Dev) : Dev := d.modCore p (fun c => c.setWk w ((c.wk w).eraseIdx i))
    let fail (d : Dev) (r : WFail) : Dev := (drop d).walkerFault p r.1 w t.cls t.reissue t.dsrc t.descAt r.2
    match stage1 d c w t with
    | some r => fail d r
    | none =>
      let x := parseDsc t.words
      let fetched (n : Nat) : Dev := if w = 2 then d else d.incSat .coreWlkRdblk [p.val] 31 0 n
      let e := entryBlocks c t
      if x.pl ≠ 0 ∧ d.poisonedN ((plOf c x).1 + 8 * (x.split t.idx.toNat).1) 8 then
        (drop (fetched e)).walkerPoison p (d.firstPoison ((plOf c x).1 + 8 * (x.split t.idx.toNat).1) 8)
      else
        match stage2 d c t (w == 2) with
        | .error r => fail (fetched (e + b2n (r.1 == 0x0F || r.1 == 5))) r
        | .ok (base, dev) =>
          let empty := emptyOut x t.words
          let groups := farGroups d t base dev
          match spansPoisoned d (readsHere t base dev (w == 2) groups) with
          | some a => (drop (fetched (e + b2n (x.fmc != 0)))).walkerPoison p a
          | none =>
            let upd (t' : Xfer) (d : Dev) : Dev := d.modCore p (fun c => c.setWk w (setAt (c.wk w) i t'))
            let t' : Xfer := { t with started := true, empty := empty, base := base, mdev := dev
                                      remote := groups.any (fun g => g.1.isSome) }
            if w = 2 then
              match dev with
              | some v => let (d', t') := startWrite d p t' v; upd t' d'
              | none => upd t' d
            else
              let (d', sent) := sendReads p w groups d
              let d := upd { t' with sent := sent } d'
              if empty then
                (if t.reissue then d else d.incSat .coreConvEmpty [p.val] 15 0 1).modCore p
                  (fun c => { c with emptyOut := true })
              else d

/-- WALKER_TRANSFER_COMPLETE (R188, R190, R195, R196, R201): the oldest transfer of the walker, once started (and, for
a remote one, answered), has delivered every byte; its flag is set unless it was re-issued (R85). Until then every word it
writes to the Satchel reads old (DESIGN CHOICE, log 82). -/
def Dev.walkerComplete (d : Dev) (p : Fin 7) (w : Nat) : Dev :=
  let c := d.core p
  match c.wk w with
  | [] => d
  | t :: rest =>
    if !t.started || !t.sent.isEmpty || (t.remote && w == 2 && !t.wrote) then d
    else
      let groups := farGroups d t t.base t.mdev
      let finish (d : Dev) : Dev := d.modCore p (fun c => (c.setWk w rest).raiseF t.flag)
      if t.empty then finish (d.incSat .coreWlkRdblk [p.val] 31 0 (entryBlocks c t))
      else
        match spansPoisoned d (readsHere t t.base t.mdev (w == 2) groups) with
        | some a => ((d.countPart p w t).modCore p (fun c => c.setWk w rest)).walkerPoison p a
        | none =>
        let n := blockCount c t (w == 2) groups
        if w = 2 then
          let d := if t.remote then d.modCore p (·.addNf (writeRows d p t t.base (t.farRd d t.mdev)).2) else moveWrite d p t t.base
          finish (d.incSat .coreWlkWrblk [p.val] 31 0 n)
        else
          let dv (k : Nat) : Option Nat := (groups[k]?).bind (·.1)
          let d := moveRead d p t t.base (t.farRd d (dv 0)) (t.farRd d (dv 1)) (t.farRd d (dv 2))
          finish (d.incSat .coreWlkRdblk [p.val] 31 0 n)

/-- REMOTE_TIMEOUT (R200, R347, R354): a started remote transfer with no response within 16 us faults, reason 0x0B. -/
def Dev.remoteTimeout (d : Dev) (p : Fin 7) (w : Nat) : Dev :=
  let c := d.core p
  match ((c.wk w).zip (upto (c.wk w).length)).find? (fun e => e.1.started && e.1.remote && !e.1.sent.isEmpty) with
  | none => d
  | some (t, i) =>
    ((d.countPart p w t).modCore p (fun c => c.setWk w ((c.wk w).eraseIdx i))).walkerFault p 0x0B w t.cls t.reissue t.dsrc t.descAt
      (((t.sent.head?).map (·.2)).getD 0)

end Sys2Proof.Machine
end

