-- ==== Sys2Proof/Machine/Movement.lean ====
section
/-! DEFINITION. The movement slot (R110-R112): WALK, the flags, the atomics (R257, R258), AWATCH and FENCE. -/

namespace Sys2Proof.Machine

/-- The fields only WALK uses are 0. -/
def xPlain (f : XFields) : Bool :=
  f.walker == 0#2 && f.cls == 0#2 && !f.dsrc && f.r == 0#15 && f.bundle == 0#12

/-- Bytes as 32-bit words. -/
def words32 (bs : List Byte) (n : Nat) : List W32 :=
  (upto n).map (fun i => BitVec.ofNat 32 (leNat ((bs.drop (4 * i)).take 4)))

/-- The copy of a descriptor and its extension that a WALK makes (R183); too short where it would lie beyond the Satchel
or beyond bundle 4,095 (reason 0x04, R200). -/
def copyDesc (d : Dev) (p : Nat) (dsrc : Bool) (sa bundle : Nat) : List W32 :=
  let part (k : Nat) : Option (List W32) :=
    if dsrc then
      if bundle + k < 4096 then some (words32 (d.mem.rdN (imBase p + 64 * (bundle + k)) 64) 16) else none
    else if sa + 64 * (k + 1) ≤ satchelSize then some (words32 (d.satRd p (sa + 64 * k) 64) 16) else none
  match part 0 with
  | none => []
  | some w => if bit (wd w 3) 31 then w ++ (part 1).getD [] else w

/-- WALK (R110-R112, R183, R191, R196). That MISALIGNED goes before DESC_LIMIT is a DESIGN CHOICE (log 79). -/
def actWalk (f : XFields) : Action := fun d p =>
  let c := d.core p
  let w := f.walker.toNat
  let cls := f.cls.toNat
  let sa := (c.s f.sa.toNat).toNat
  let ok := f.sd == 0#6 && f.r == 0#15 && sReg f.sb && (if f.dsrc then f.sa == 0#6 else sReg f.sa && f.bundle == 0#12) &&
    decide (w < 3) && decide (cls < 3) && !(w == 2 && cls != 0) && !(cls == 2 && decide (0 < c.tiles))
  { sR := (if f.dsrc then [] else [f.sa.toNat]) ++ [f.sb.toNat]
    exc :=
      if !ok then some .illegalOperand
      else if !f.dsrc && sa % 64 != 0 then some .misaligned
      else if (cls == 2 && decide (16 ≤ c.resident.length)) || (cls == 1 && decide (16 ≤ c.nextDescs.length)) then
        some .descLimit
      else none
    hold := if decide (8 ≤ (c.wk w).length) then .issue else .go
    eff := fun s0 d =>
      let c0 := s0.core p
      let x : Xfer :=
        { words := copyDesc s0 p.val f.dsrc sa f.bundle.toNat
          dsrc := f.dsrc
          descAt := if f.dsrc then f.bundle.toNat else sa
          idx := c0.s f.sb.toNat
          padv := c0.padv
          cls := cls
          flag := some f.flag.toNat
          released := decide (w ≠ 2)
          tile := c0.tiles }
      d.modCore p (fun c =>
        let c := c.setWk w (c.wk w ++ [x])
        if cls = 2 then { c with resident := c.resident ++ [⟨w, x⟩] }
        else if cls = 1 then { c with nextDescs := c.nextDescs ++ [⟨w, x⟩] } else c) }

/-- The slot uses no register field. -/
def xNoRegs (f : XFields) : Bool := f.sd == 0#6 && f.sa == 0#6 && f.sb == 0#6

/-- FSET and FCLR (R110, R115); FCLR's clear goes before every set of the same cycle, so such a flag ends set. -/
def actFset (f : XFields) : Action := fun _ p =>
  guardOp (xPlain f && xNoRegs f) { eff := fun _ d => d.modCore p (·.setF f.flag.toNat true) }
def actFclr (f : XFields) : Action := fun _ _ =>
  guardOp (xPlain f && xNoRegs f) { pre := fun c => c.setF f.flag.toNat false }

/-- The address checks of an atomic or a watch (R111, R122). -/
def atomCause (sa : Nat) : Option Cause :=
  if sa < windowBase ∨ windowBase + windowSize ≤ sa then some .atomicRange
  else if sa % 8 ≠ 0 then some .misaligned
  else none

/-- A data atomic: operand registers in range, address, the 16 of a tile, the 8 outstanding (R86, R87, R111, R112). -/
def atomic (k : AtomKind) (ok : Bool) (rd wr : List Nat) (f : XFields) : Action := fun d p =>
  let c := d.core p
  let sa := (c.s f.sa.toNat).toNat
  { sR := f.sa.toNat :: rd
    sW := wr
    aim := some sa
    exc :=
      if !(ok && sReg f.sa && xPlain f && f.flag == 0#6) then some .illegalOperand
      else match atomCause sa with
        | some e => some e
        | none => if decide (16 ≤ c.nAtomics) then some .atomicLimit else none
    hold := if decide (8 ≤ c.atomics.length) then .issue else .go
    eff := fun s0 d =>
      let c0 := s0.core p
      let a : AtomOp :=
        { kind := k, off := sa - windowBase, arg := c0.s f.sb.toNat, expect := c0.s f.sd.toNat
          dest := wr.getD 0 0, tag := c0.tagctr }
      d.modCore p (fun c =>
        { c with atomics := c.atomics ++ [a], tagctr := c.tagctr + 1, nAtomics := c.nAtomics + 1 }) }

def actTake (f : XFields) : Action := atomic .take (sReg f.sd && f.sb == 0#6) [] [f.sd.toNat] f
def actAadd (f : XFields) : Action := atomic .aadd (sReg f.sd && sReg f.sb) [f.sb.toNat] [f.sd.toNat] f
def actAld (f : XFields) : Action := atomic .ald (sReg f.sd && f.sb == 0#6) [] [f.sd.toNat] f
def actAst (f : XFields) : Action := atomic .ast (f.sd == 0#6 && sReg f.sb) [f.sb.toNat] [] f
def actAcas (f : XFields) : Action := atomic .acas (sReg f.sd && sReg f.sb) [f.sd.toNat, f.sb.toNat] [f.sd.toNat] f

/-- AWATCH: FLAG set once word is at least sB (R110, R112). -/
def actAwatch (f : XFields) : Action := fun d p =>
  let c := d.core p
  let sa := (c.s f.sa.toNat).toNat
  { sR := [f.sa.toNat, f.sb.toNat]
    aim := some sa
    exc := if !(f.sd == 0#6 && sReg f.sa && sReg f.sb && xPlain f) then some .illegalOperand else atomCause sa
    hold := if decide (4 ≤ c.watches.length) then .issue else .go
    eff := fun s0 d =>
      d.modCore p (fun c =>
        { c with watches := c.watches ++ [⟨sa - windowBase, (s0.core p).s f.sb.toNat, f.flag.toNat⟩] }) }

/-- FENCE: held until every earlier data atomic has completed. -/
def actFence (f : XFields) : Action := fun d p =>
  let ok := xPlain f && xNoRegs f && f.flag == 0#6
  { exc := if ok then none else some .illegalOperand
    hold := if ok && !(d.core p).atomics.isEmpty then .wait none else .go }

/-! ## Events -/

/-- What an atomic makes of a word: the value it stores, none if it stores nothing (R110, R111). -/
def atomStore (k : AtomKind) (word arg expect : W64) : Option W64 :=
  match k with
  | .take => some (word + 1#64)
  | .aadd => some (word + arg)
  | .ald => none
  | .ast => some arg
  | .acas => if word = expect then some arg else none

/-- Perform an atomic on a Commons word (R257): the old word, and the device after it. -/
def Dev.atomWord (d : Dev) (off : Nat) (k : AtomKind) (arg expect : W64) : Dev × W64 :=
  let a := commonsBase + off
  let word := BitVec.ofNat 64 (d.loadNat a 8)
  match atomStore k word arg expect with
  | some v => (d.store a (leBytes 8 v.toNat), word)
  | none => (d, word)

/-- The record of a local slot's atomic (R258): 32 for each slot, by tag modulo 32. -/
def ComSt.find (x : ComSt) (slot key tag : Nat) : Option W64 :=
  (x.recs.find? (fun e => e.1 == slot && e.2.1 == tag % 32 && e.2.2.slot == key && e.2.2.tag == tag)).map (·.2.2.result)

/-- Keep a result in a local slot's record store. -/
def ComSt.keep (x : ComSt) (slot key tag dev : Nat) (r : W64) : ComSt :=
  { x with recs := (slot, tag % 32, ⟨dev, key, tag, r⟩) :: x.recs.filter (fun e => !(e.1 == slot && e.2.1 == tag % 32)) }

/-- ATOMIC_PERFORM (R87, R257, R258, R399): the oldest data atomic of the slot that has not been performed reaches its
quadrant. A recorded key answers the recorded result; a poisoned word ends the task. Nothing is performed while Commons
has no clock (R400). -/
def Dev.atomicPerform (d : Dev) (p : Fin 7) : Dev :=
  let c := d.core p
  if d.pwr.commonsOff then d
  else
  match (c.atomics.zip (upto c.atomics.length)).find? (fun e => e.1.result.isNone) with
  | none => d
  | some (a, i) =>
    let done (d : Dev) (r : W64) : Dev :=
      d.modCore p (fun c => { c with atomics := setAt c.atomics i { a with result := some r } })
    match d.com.find p.val c.keySlot a.tag with
    | some r => done d r
    | none =>
      if decide (a.kind ≠ .ast) && d.poisonedN (commonsBase + a.off) 8 then
        (d.modCore p (fun c => { c with atomics := c.atomics.eraseIdx i })).endTask p stPoisoned
      else
        let (d, r) := d.atomWord a.off a.kind a.arg a.expect
        done { d with com := d.com.keep p.val c.keySlot a.tag (d.ownId.getD 0) r } r

/-- ATOMIC_COMPLETE (R121): the oldest performed atomic returns; its result is written unless it was discarded. -/
def Dev.atomicComplete (d : Dev) (p : Fin 7) : Dev :=
  let c := d.core p
  if c.frozen || d.pwr.commonsOff then d
  else
    match (c.atomics.zip (upto c.atomics.length)).find? (fun e => e.1.result.isSome) with
    | none => d
    | some (a, i) =>
      d.modCore p (fun c => { c with atomics := c.atomics.eraseIdx i }.setS a.dest (a.result.getD 0#64))

/-- AWATCH_FIRE (R110, R399): watch `i` finds its word at or above the threshold. -/
def Dev.awatchFire (d : Dev) (p : Fin 7) (i : Nat) : Dev :=
  let c := d.core p
  match c.watches[i]? with
  | none => d
  | some w =>
    if c.frozen || d.pwr.commonsOff then d
    else if d.poisonedN (commonsBase + w.off) 8 then
      (d.modCore p (fun c => { c with watches := c.watches.eraseIdx i })).endTask p stPoisoned
    else if w.thr.toNat ≤ d.loadNat (commonsBase + w.off) 8 then
      d.modCore p (fun c => { c with watches := c.watches.eraseIdx i }.setF w.flag true)
    else d

end Sys2Proof.Machine
end

