-- ==== Sys2Proof/Machine/Control.lean ====
section
/-! DEFINITION. The control slot (R113-R115): branches, waits, TILE and END (R82-R89), TRAP, BARRIER (R252), and the
tile watchdog. -/

namespace Sys2Proof.Machine

/-- Which fields of the control slot are 0. -/
def cZero (f : CFields) (sd sa sb flag clr planes opnd target : Bool) : Bool :=
  f.r == 0#3 && (!sd || f.sd == 0#6) && (!sa || f.sa == 0#6) && (!sb || f.sb == 0#6) && (!flag || f.flag == 0#6) &&
    (!clr || !f.clr) && (!planes || f.planes == 0#4) && (!opnd || f.opnd == 0#12) && (!target || f.target == 0#12)

/-- JMP. -/
def actJmp (f : CFields) : Action := fun d p =>
  let c := d.core p
  { guardOp (cZero f true true true true true true true false)
      { branch := some f.target.toNat } with noDelay := c.delay.isSome }

/-- JAL: the link is PC + 2. -/
def actJal (f : CFields) : Action := fun d p =>
  let c := d.core p
  { guardOp (cZero f false true true true true true true false && sReg f.sd)
      { sW := [f.sd.toNat], branch := some f.target.toNat
        eff := fun s0 d => d.modCore p (·.setS f.sd.toNat (BitVec.ofNat 64 ((s0.core p).pc + 2))) } with
    noDelay := c.delay.isSome }

/-- JR: a target above 4095 raises PC_RANGE (R114). -/
def actJr (f : CFields) : Action := fun d p =>
  let c := d.core p
  let t := (c.s f.sa.toNat).toNat
  let ok := cZero f true false true true true true true true && sReg f.sa
  { sR := [f.sa.toNat], noDelay := c.delay.isSome, branch := some t
    exc := if !ok then some .illegalOperand else if 4095 < t then some .pcRange else none }

/-- The conditional branches. -/
def branchIf (cond : W64 → W64 → Bool) (f : CFields) : Action := fun d p =>
  let c := d.core p
  { guardOp (cZero f true false false true true true true false && sReg f.sa && sReg f.sb)
      { sR := [f.sa.toNat, f.sb.toNat]
        branch := if cond (c.s f.sa.toNat) (c.s f.sb.toNat) then some f.target.toNat else some (c.pc + 2) } with
    noDelay := c.delay.isSome }

def actBeq (f : CFields) : Action := branchIf (fun a b => a == b) f
def actBne (f : CFields) : Action := branchIf (fun a b => a != b) f
def actBlt (f : CFields) : Action := branchIf (fun a b => a.slt b) f
def actBge (f : CFields) : Action := branchIf (fun a b => !a.slt b) f
def actBltu (f : CFields) : Action := branchIf (fun a b => a.ult b) f
def actBgeu (f : CFields) : Action := branchIf (fun a b => !a.ult b) f

/-- WAITF (R113, R115): held until FLAG is 1; CLR clears it as the bundle issues, before any set of the same cycle. -/
def actWaitf (f : CFields) : Action := fun d p =>
  let ok := cZero f true true true false false true true true
  { exc := if ok then none else some .illegalOperand
    hold := if !ok || (d.core p).f f.flag.toNat then .go else .wait (some f.flag.toNat)
    pre := fun c => if f.clr then c.setF f.flag.toNat false else c }

/-- WAITA: held until every plane of PLANES is ready (R109). -/
def actWaita (f : CFields) : Action := fun d p =>
  let ok := cZero f true true true true true false true true
  let c := d.core p
  { exc := if ok then none else some .illegalOperand
    hold := if !ok || (upto 4).all (fun k => !bit f.planes.toNat k || planeReady c k) then .go else .wait none }

/-- Release the write transfers of the ending tile (R83, R89). -/
def CoreSt.release (c : CoreSt) : CoreSt := { c with wk2 := c.wk2.map (fun x => { x with released := true }) }

/-- What an array keeps over a tile's end (R83): planes, accumulators and latch 0, tags none. -/
def ArrSt.zeroTile (a : ArrSt) : ArrSt :=
  { a with active := {}, shadow := {}, acc0 := [], acc1 := [], tag0 := .none, tag1 := .none, latch := 0#2048 }

/-- The registers with the results of the divisions in flight: the values of the scalar registers after the bundle that
issued last (R84). -/
def CoreSt.divided (c : CoreSt) : CoreSt :=
  let put (c : CoreSt) (x : Option DivOp) := match x with | some x => c.setS x.dest x.val | none => c
  put (put c c.div0) c.div1

/-- The checkpoint of the state at a tile's start (R84, R404). TILE waits for no division (R83): of one under way the checkpoint
holds the result it will have (DESIGN CHOICE, log 114). -/
def CoreSt.checkpoint (c : CoreSt) : Ckpt :=
  { pc := c.pc, sregs := c.divided.sregs, mregs := c.mregs, tally := c.tally, flags := c.flags, padv := c.padv, azp := c.azp
    tiles := c.tiles, tagctr := c.tagctr, nflags := c.nflags, resident := c.resident, next := c.nextDescs
    pendingWr := c.wk2.filter (·.released) }

/-- TILE's steps 2-5 (R83), the bundle's other effects made and the pc moved on (DEDUCED, log 22). A data atomic of TILE's
own bundle has been held to the 16 of the ending tile and counts in neither tile from here on (DESIGN CHOICE, log 84). -/
def CoreSt.tileEnd (c : CoreSt) : CoreSt :=
  let c := c.release
  let c := { c with vregs := [], arrA := c.arrA.zeroTile, arrB := c.arrB.zeroTile, tiles := c.tiles + 1 }
  { c with ckpt := c.checkpoint, nextDescs := [], nAtomics := 0, tileCyc := 0, barIdx := 0, barDone := 0
           mode := if c.mode = .rerun then .running else c.mode }

/-- The re-run of a takeover has reached its TILE or END: CORE_TAKEN_OVER, detected when step 1 began (R403 step 6,
R418). -/
def Dev.reportTaken (d : Dev) (p : Fin 7) : Dev :=
  match (d.core p).takenAt with
  | some (bad, ts) =>
    (d.modCore p (fun c => { c with takenAt := none })).logTs ts stCoreTakenOver 0 bad 0 (d.core p).entry
  | none => d

/-- A forced device test ends the task at its TILE (R414). -/
def Dev.forcedEnd (d : Dev) (p : Fin 7) : Dev :=
  if d.flt.forced then d.endTask p stForcedAbort else d

/-- TILE (R83, R414). It waits for the matrix-slot operations and atomics of earlier bundles alone; one in TILE's own bundle
is still queued or in flight when the planes are zeroed and the checkpoint is taken, and it runs on in the next tile
(DESIGN CHOICE, log 84: the spec does not say which tile it belongs to). -/
def actTile (f : CFields) : Action := fun d p =>
  let ok := cZero f true true true true true true true true
  { exc := if ok then none else some .illegalOperand
    hold := if !ok || (d.core p).quiet then .go else .wait none
    post := fun d => ((d.modCore p CoreSt.tileEnd).reportTaken p).forcedEnd p }

/-- END (R89, R414): the task has ended, and the pc has moved on behind END, to 0 behind bundle 4095: CORE_STATE.PC shows
that until the core is idle, and CORE_EXC.PC at a watchdog abort (DESIGN CHOICE, log 111); TASK_COMPLETE reports it once its
transfers are done, and with them what an operation of END's own bundle still does. END does not wait for an outstanding
AWATCH (DESIGN CHOICE, log 80). -/
def actEnd (f : CFields) : Action := fun d p =>
  let c := d.core p
  let ok := cZero f true true true true true true true true
  { exc := if ok then none else some .illegalOperand
    noDelay := c.delay.isSome
    hold := if !ok || c.quiet then .go else .wait none
    post := fun d => ((d.modCore p (fun c => { c.release with ended := true, delay := none })).reportTaken p).forcedEnd p }

/-- TRAP (R113, R122): an exception with the code of OPND[19:12]. -/
def actTrap (f : CFields) : Action := fun d p =>
  let ok := cZero f true true true true true true false true && decide (f.opnd.toNat < 256)
  { noDelay := (d.core p).delay.isSome
    exc := some (if ok then .trap f.opnd.toNat else .illegalOperand) }

/-- BARRIER (R252, R255): LEVEL in [11:10], ID in [9:0] of OPND. -/
def actBarrier (f : CFields) : Action := fun d p =>
  let c := d.core p
  let level := bits f.opnd.toNat 11 10
  let id := bits f.opnd.toNat 9 0
  let part := level == 0 || (decide (d.logicalOf p.val < 6) && bit d.barMask (d.logicalOf p.val))
  let ok := cZero f true true true true true true false true && decide (level < 3) && part
  let mine (a : BarArr) : Bool := a.slot == p.val && a.level == level && a.id == id
  let single := level == 0 && (match d.entry c.entry with | some e => decide (e.instances.length ≤ 1) | none => true)
  let pass := decide (c.barIdx < c.barDone) || single || d.bar.arr.any (fun a => mine a && a.released)
  { exc := if ok then none else some .illegalOperand
    hold := if !ok || pass then .go else if d.bar.arr.any mine then .wait none else .arrive
    arrive := fun d => d.arrive p level id
    eff := fun _ d =>
      let d : Dev :=
        if c.barIdx < c.barDone then d
        else { d with bar := { d.bar with arr := d.bar.arr.filter (fun a => !(mine a && a.released)) } }
      d.modCore p (fun c => { c with barIdx := c.barIdx + 1 }) }

/-! ## Tile watchdog -/

/-- TILE_WATCHDOG (R88, R123): the count of the tile has reached 19,200; CORE_EXC records cause 0 and the bundle due. -/
def Dev.tileWatchdog (d : Dev) (p : Fin 7) : Dev :=
  let c := d.core p
  if c.active && c.abort.isNone && !d.wdSuspended && decide (19200 ≤ c.tileCyc) then
    (d.setRg .coreExc [p.val] (BitVec.ofNat 32 (c.pc * 2 ^ 20))).endTask p stWatchdog
  else d

end Sys2Proof.Machine
end

