-- ==== Sys2Proof/Machine/Links.lean ====
section
/-! DEFINITION. The Kwaos links (R348-R368): training, flits and replay, credits, lane sparing, packets served at this
device or passed on, the mailbox, discovery. -/

namespace Sys2Proof.Machine

/-! ## Ports -/

def lnkState (d : Dev) (k : Nat) : Nat := d.fld .lnkStat [k] 31 29

def Dev.setLnk (d : Dev) (k state cause : Nat) : Dev :=
  (d.setFld .lnkStat [k] 31 29 state).setFld .lnkStat [k] 28 26 cause

/-- A port goes down for good: LINK_DOWN (R352, R353); what its replay buffer holds is discarded. -/
def Dev.linkFail (d : Dev) (k : Fin 4) (cause : Nat) : Dev :=
  ((d.setLnk k.val 4 cause).freshPort k {}).log stLinkDown 3 k.val 0 0

/-- Training starts (R352): only a device with an ID trains (R347). The port's traffic state starts afresh. -/
def Dev.train (d : Dev) (k : Fin 4) : Dev :=
  if d.ownId.isNone then d.setLnk k.val 0 4 else (d.setLnk k.val 1 0).freshPort k {}

/-- LINK_ENABLE: EN goes to 1. -/
def Dev.linkEnable (d : Dev) (k : Fin 4) : Dev :=
  if d.flag .lnkCtl [k.val] 31 then d else (d.setFld .lnkCtl [k.val] 31 31 1).train k

/-- LINK_RETRAIN: RETRAIN is written, and stays until a training ends; an enabled port trains now (R13, R354). -/
def Dev.linkRetrain (d : Dev) (k : Fin 4) : Dev :=
  let d' := d.setFld .lnkCtl [k.val] 30 30 1
  if d.flag .lnkCtl [k.val] 31 then d'.train k else d'

/-- A write of LNK_CTL (R354): DIM and DATELINE are stored, and take effect only while routing is off. -/
def Dev.lnkCtlWrite (d : Dev) (k : Fin 4) (v : W32) : Dev :=
  let d := (d.setFld .lnkCtl [k.val] 23 16 (bits v.toNat 23 16)).setFld .lnkCtl [k.val] 29 28 (bits v.toNat 29 28)
  let d := if d.flag .lnkFabCtl [] 31 then d else d.dimsNow
  let d :=
    if v.getLsbD 31 then d.linkEnable k
    else if d.flag .lnkCtl [k.val] 31 then ((d.setFld .lnkCtl [k.val] 31 30 0).setLnk k.val 0 4).freshPort k {}
    else d
  if v.getLsbD 30 then d.linkRetrain k else d

/-- Good lanes among L0-L4. -/
def goodCount (g : BitVec 5) : Nat := ((upto 5).filter (g.getLsbD ·)).length

/-- The logical lane that L4 takes (R352): a failed one, or with five good lanes the worst of L0-L3 where L4 is better. -/
def spareFor (t : LaneTest) : Option Nat :=
  match (upto 4).find? (fun i => !t.good.getLsbD i) with
  | some i => some i
  | none =>
    let e (i : Nat) : Nat := t.errors.getD i 0
    let worst := (upto 4).foldl (fun m i => if e m < e i then i else m) 0
    if t.good.getLsbD 4 && decide (e 4 < e worst) then some worst else none

/-- LINK_TRAINING_COMPLETE (R352). -/
def Dev.trained (d : Dev) (k : Fin 4) (t : LaneTest) (peerId : BitVec 8) (peerPort : BitVec 2) (rtt : Nat) : Dev :=
  if lnkState d k.val ≠ 1 then d
  else
    let d := d.setFld .lnkCtl [k.val] 30 30 0
    if goodCount t.good < 4 then d.linkFail k 2
    else if 655 < rtt then d.linkFail k 3
    else
      let d := ((((d.setLnk k.val 2 0).setFld .lnkStat [k.val] 25 23 ((spareFor t).getD 7)).setFld .lnkStat [k.val] 22 21
        peerPort.toNat).setFld .lnkStat [k.val] 20 13 peerId.toNat).setFld .lnkStat [k.val] 9 0 rtt
      d.setPort k { spareUsed := decide (goodCount t.good < 5) || (spareFor t).isSome }

/-- LINK_NO_PEER (R352). -/
def Dev.noPeer (d : Dev) (k : Fin 4) : Dev :=
  if lnkState d k.val = 1 then (d.setFld .lnkCtl [k.val] 30 30 0).linkFail k 1 else d

/-- Lane substitution (R353): the flits not yet acknowledged are sent again. -/
def Dev.spareLane (d : Dev) (k : Fin 4) (lane : Nat) : Dev :=
  let x := d.port k
  let d := (d.setFld .lnkStat [k.val] 25 23 lane).setPort k
    { x with spareUsed := true, wire := x.wire ++ x.replay.map (·.2.2) }
  d.log stLaneSpared 3 k.val 0 lane

/-- LANE_ERROR_THRESHOLD (R353): with the spare in use the port keeps running with replays. -/
def Dev.laneErrors (d : Dev) (k : Fin 4) (lane : Fin 4) : Dev :=
  let thr := d.fld .lnkCtl [k.val] 23 16
  let x := d.port k
  if lnkState d k.val = 2 ∧ thr ≠ 0 ∧ thr ≤ x.window.getD lane.val 0 ∧ !x.spareUsed then d.spareLane k lane.val else d

/-- LANE_LOCK_LOSS (R353). -/
def Dev.laneLost (d : Dev) (k : Fin 4) (lane : Fin 4) : Dev :=
  if lnkState d k.val ≠ 2 then d
  else if (d.port k).spareUsed then d.linkFail k 2 else d.spareLane k lane.val

/-- LINK_ERR_CLEAR (R354). -/
def Dev.linkErrClear (d : Dev) (k : Nat) : Dev := (d.setRg .lnkErr [k] 0#32).setRg .lnkLaneerr [k] 0#32

/-- A write of LNK_FAB_CTL (R365): fields other than EN only while EN is 0; as EN falls, DIM and DATELINE of the registers are
in force (R354). -/
def Dev.fabCtl (d : Dev) (v : W32) : Dev :=
  if d.flag .lnkFabCtl [] 31 then
    let d := d.setFld .lnkFabCtl [] 31 31 (bits v.toNat 31 31)
    if v.getLsbD 31 then d else d.dimsNow
  else d.plainWrite .lnkFabCtl [] v

/-- A write of LNK_ROUTE (R365). -/
def Dev.routeWrite (d : Dev) (t : Nat) (v : W32) : Dev :=
  if d.flag .lnkFabCtl [] 31 then d else d.plainWrite .lnkRoute [t] v

/-! ## Packets at this device -/

/-- A packet is discarded at port `k` and counted. -/
def Dev.discard (d : Dev) (k : Nat) : Dev := d.incSat .lnkErr [k] 23 16 1

/-- The header fields are within their ranges (R356, R357): the STAT of an ERROR is a reason R200 assigns, or 0; a barrier packet's TAG holds LEVEL 2 (R364). -/
def headerOk (p : Packet) : Bool :=
  let k := p.kind.toNat
  let n := p.len.toNat
  let blocks := k == kRead || k == kWrite || k == kMgmt || k == kRdata
  [kRead, kWrite, kAtomic, kBarArrive, kMgmt, kRdata, kWack, kAresult, kBarRelease, kError].contains k &&
    (if blocks then decide (1 ≤ n ∧ n ≤ 4) else n == 0) && p.flags.toNat / 2 == 0 &&
    (p.stat == 0#8 || (k == kError && decide (p.stat.toNat < 16))) && (k == kWrite && n == 1 || p.mask == 0#64) && decide (p.src.toNat < 192) &&
    (!p.flags.getLsbD 0 || kindClass k == 0) && (p.flags.getLsbD 0 || p.lasta == 0#64) &&
    (!(k == kBarArrive || k == kBarRelease) || p.tag.toNat / 1024 == 2) &&
    (if k == kAtomic then decide (4 ≤ p.aux.toNat ∧ p.aux.toNat ≤ 8)
     else if k == kMgmt then decide (p.aux.toNat ≤ 28) else p.aux == 0#8) &&
    p.data.length == kindData k n

/-- The walker transfer that waits for a response: UNIT names the walker, TAG the request. -/
def findWait (d : Dev) (q : Packet) : Option (Fin 7 × Nat × Nat × Xfer) :=
  let u := q.unit.toNat
  match finSlot (u / 3) with
  | none => none
  | some p =>
    let l := (d.core p).wk (u % 3)
    ((l.zip (upto l.length)).find? (fun e => e.1.sent.any (fun t => t.1 == q.tag.toNat))).map
      (fun e => (p, u % 3, e.2, e.1))

/-- The address a refused request is recorded with (R201): the tensor's base where it lies in the block, else the block. -/
def Xfer.faultAddr (t : Xfer) (block : Nat) : Nat :=
  let b := (t.mdev.getD 0) * 2 ^ 48 + t.base
  if block ≤ b ∧ b < block + 64 then b else block

/-- A response for a walker (R357, R358): data or an acknowledgement retires a request, an error faults the transfer. A
remote write that has read the bytes of which it keeps a nibble sends its WRITEs. -/
def Dev.walkerResponse (d : Dev) (q : Packet) : Dev :=
  match findWait d q with
  | none => d
  | some (p, w, i, t) =>
    let block := ((t.sent.find? (fun e => e.1 == q.tag.toNat)).map (·.2)).getD 0
    if q.kind.toNat = kError then
      let d := (d.countPart p w t).modCore p (fun c => c.setWk w ((c.wk w).eraseIdx i))
      if q.stat = 0#8 then d.walkerPoison p (block % 2 ^ 48)
      else d.walkerFault p q.stat.toNat w t.cls t.reissue t.dsrc t.descAt (t.faultAddr block)
    else
      let t' : Xfer := { t with
        sent := t.sent.filter (fun e => e.1 != q.tag.toNat)
        accepted := true
        got := t.got ++ (q.data.zip (upto q.data.length)).map (fun e => (block + e.2, e.1)) }
      let (d, t') := match t'.mdev with
        | some v =>
          if w = 2 ∧ t'.sent.isEmpty ∧ !t'.wrote then
            let (d, s) := sendWrites d p t' v
            (d, { t' with sent := s, wrote := true })
          else (d, t')
        | none => (d, t')
      d.modCore p (fun c => c.setWk w (setAt (c.wk w) i t'))

/-- Send a response to the requester of a packet: its UNIT and TAG come back (R357); where the route to it is local, here. -/
def Dev.respond (d : Dev) (q : Packet) (kind stat : Nat) (len : Nat) (data : List Byte) : Dev :=
  let p := mkPacket (q.src.toNat * 2 ^ 48 + q.addr.toNat % 2 ^ 48) kind (d.ownId.getD 0) q.unit.toNat q.tag.toNat
  let p := { p with stat := BitVec.ofNat 8 stat, len := BitVec.ofNat 8 len, data := data }
  if d.routedHere q.src.toNat then d.walkerResponse p else d.sendPkt q.src.toNat p

/-- The local address a request reaches (R45): stack below the runtime region, Commons, or Commons through the atomic
window; none where it is refused. -/
def inboundAddr (d : Dev) (a n : Nat) : Option Nat :=
  if d.reach a n then some a
  else if windowBase ≤ a ∧ a + n ≤ windowBase + windowSize then some (commonsBase + (a - windowBase))
  else none

/-- The requester of a packet: its device and its UNIT there. -/
def requester (q : Packet) : Nat × Nat := (q.src.toNat, q.unit.toNat)

/-- The range check of a request (R358): the whole range of a FIRST one; a later one of a transfer whose range was refused
is refused too, and its own blocks must be reachable. -/
def rangeOk (d : Dev) (q : Packet) : Bool :=
  let a := q.addr.toNat % 2 ^ 48
  let l := q.lasta.toNat % 2 ^ 48
  (inboundAddr d a (64 * q.len.toNat)).isSome &&
    (if q.flags.getLsbD 0 then decide (a ≤ l) && (inboundAddr d a (l + 1 - a)).isSome
     else !d.lnk.refused.contains (requester q))

/-- What the target keeps of a FIRST request's check (R200, R358; DEDUCED, log 19): whether the transfer is refused. -/
def Dev.noteRange (d : Dev) (q : Packet) : Dev :=
  if q.flags.getLsbD 0 then
    let l := d.lnk.refused.filter (· != requester q)
    { d with lnk := { d.lnk with refused := if rangeOk d q then l else requester q :: l } }
  else d

/-- Store the bytes of a block whose mask bit is 1 (R357). -/
def Dev.storeMask (d : Dev) (a : Nat) (mask : BitVec 64) (bs : List Byte) : Dev :=
  if mask = BitVec.allOnes 64 then d.store a bs
  else (bs.zip (upto bs.length)).foldl (fun d e => if mask.getLsbD e.2 then d.store (a + e.2) [e.1] else d) d

/-- A READ at its target: RDATA, or ERROR with reason 0x0A; a poisoned block answers ERROR with STAT 0 (DESIGN CHOICE,
log 28). -/
def Dev.serveRead (d : Dev) (q : Packet) : Dev :=
  let n := 64 * q.len.toNat
  let ok := rangeOk d q
  let d := d.noteRange q
  match (if ok then inboundAddr d (q.addr.toNat % 2 ^ 48) n else none) with
  | none => (d.viol (q.addr.toNat % 2 ^ 48)).respond q kError 0x0A 0 []
  | some a => if d.poisonedN a n then d.respond q kError 0 0 [] else d.respond q kRdata 0 q.len.toNat (d.load a n)

/-- A WRITE at its target. -/
def Dev.serveWrite (d : Dev) (q : Packet) : Dev :=
  let ok := rangeOk d q
  let d := d.noteRange q
  match (if ok then inboundAddr d (q.addr.toNat % 2 ^ 48) (64 * q.len.toNat) else none) with
  | none => (d.viol (q.addr.toNat % 2 ^ 48)).respond q kError 0x0A 0 []
  | some a =>
    (if q.len = 1#8 then d.storeMask a q.mask q.data else d.store a q.data).respond q kWack 0 0 []

/-- The operation an ATOMIC names by its X-slot opcode. -/
def atomOf (n : Nat) : AtomKind :=
  if n = 4 then .take else if n = 5 then .aadd else if n = 6 then .ald else if n = 7 then .ast else .acas

/-- An ATOMIC at its target (R45, R258): a recorded key answers the recorded result. -/
def Dev.serveAtomic (d : Dev) (q : Packet) : Dev :=
  let a := q.addr.toNat % 2 ^ 48
  if a < windowBase ∨ windowBase + windowSize < a + 8 ∨ a % 8 ≠ 0 then (d.viol a).respond q kError 0x0A 0 []
  else
    let off := a - windowBase
    let num (i : Nat) : W64 := BitVec.ofNat 64 (leNat ((q.data.drop i).take 8))
    let key := (num 16).toNat
    let res (d : Dev) (r : W64) : Dev := d.respond q kAresult 0 0 (leBytes 8 r.toNat ++ List.replicate 24 0#8)
    match d.com.remote.find? (fun e => e.dev == q.src.toNat && e.tag == key) with
    | some e => res d e.result
    | none =>
      let k := atomOf q.aux.toNat
      if k ≠ .ast ∧ d.poisonedN (commonsBase + off) 8 then d.respond q kError 0 0 []
      else
        let (d, r) := d.atomWord off k (num 0) (num 8)
        let l := d.com.remote ++ [⟨q.src.toNat, 0, key, r⟩]
        res { d with com := { d.com with remote := if 4096 < l.length then l.drop 1 else l } } r

/-- MGMT (R359, R360): onward by its source route, or into the mailbox. -/
def Dev.mgmtIn (d : Dev) (inp : Option (Nat × Nat)) (q : Packet) : Dev :=
  if q.aux ≠ 0#8 then
    match finPort (q.addr.toNat % 4) with
    | some o => d.toPort o (d.queueOf 2 (d.vcFor o inp)) { q with addr := q.addr >>> 2, aux := q.aux - 1#8 }
    | none => d
  else if d.lnk.mbox.length < 64 then { d with lnk := { d.lnk with mbox := d.lnk.mbox ++ [q] } }
  else d.incSat .lnkMboxStat [] 23 16 1

/-- BAR_ARRIVE from a child and BAR_RELEASE from the parent (R364). -/
def Dev.barIn (d : Dev) (k : Nat) (q : Packet) : Dev :=
  let id := q.tag.toNat % 1024
  if q.kind.toNat = kBarArrive then
    let d : Dev := { d with bar := { d.bar with
      child := if d.bar.child.contains (id, k) then d.bar.child else d.bar.child ++ [(id, k)] } }
    d.combine id
  else d.sysRelease id

/-- A packet in transit (R362, R363): onward by the route of its target, or discarded at its input port. -/
def Dev.transit (d : Dev) (k vc : Nat) (q : Packet) : Dev :=
  match (if d.flag .lnkFabCtl [] 31 then d.routeOf (q.addr.toNat / 2 ^ 48) else none) with
  | some o =>
    match finPort o with
    | some f => d.toPort f (d.queueOf (kindClass q.kind.toNat) (d.vcFor o (some (k, vc)))) q
    | none => d.discard k
  | none => d.discard k

/-- A packet has arrived whole on port `k` and VC `vc`: bad headers are discarded; management and barrier packets act
hop by hop; others are served here, where they are for this device or their route is local, or passed on. -/
def Dev.deliver (d : Dev) (k : Fin 4) (vc : Nat) (q : Packet) : Dev :=
  let kd := q.kind.toNat
  if lnkState d k.val ≠ 2 then d
  else if !headerOk q then d.discard k.val
  else if kd = kMgmt then d.mgmtIn (some (k.val, vc)) q
  else if kd = kBarArrive ∨ kd = kBarRelease then d.barIn k.val q
  else if d.ownId ≠ some (q.addr.toNat / 2 ^ 48) ∧ !d.routedHere (q.addr.toNat / 2 ^ 48) then d.transit k.val vc q
  else if kd = kRead then d.serveRead q
  else if kd = kWrite then d.serveWrite q
  else if kd = kAtomic then d.serveAtomic q
  else d.walkerResponse q

/-! ## Flits -/

/-- The words of a flit that fail parity (R349). -/
def badWords (f : Flit) : List Nat :=
  (upto 8).filter (fun i => parity 32 (f.data.toNat >>> (32 * i)) != f.par.getLsbD i)

/-- The sideband's own parity is right. -/
def sideOk (f : Flit) : Bool := parity 7 (f.side.toNat >>> 1) == f.side.getLsbD 0

/-- Count parity errors by logical lane (R348, R353, R354). -/
def Dev.laneCount (d : Dev) (k : Fin 4) (ws : List Nat) : Dev :=
  ws.foldl (fun d w =>
    let lane := w % 4
    let x := d.port k
    let ms := d.now / 1000000
    let win := if x.winMs = ms then x.window else [0, 0, 0, 0]
    (d.incSat .lnkLaneerr [k.val] (8 * lane + 7) (8 * lane) 1).setPort k
      { x with window := modAt win lane (· + 1), winMs := ms }) d

/-- Queue, packet so far and whether it is being discarded. -/
def openOn (x : LinkPort) (q : Nat) : Option OpenPkt := x.rxOpen.find? (fun o => o.queue == q)
def closeOn (x : LinkPort) (q : Nat) : LinkPort := { x with rxOpen := x.rxOpen.filter (fun o => o.queue != q) }
def LinkPort.reopen (x : LinkPort) (o : OpenPkt) : LinkPort := { closeOn x o.queue with rxOpen := (closeOn x o.queue).rxOpen ++ [o] }

/-- Flits of buffer the receiver holds for a queue (R351). -/
def rxRoom (q : Nat) : Nat := if q = 4 then 16 else 256

/-- A good flit is counted and takes a buffer; every 64th is acknowledged, with the credits that are free (R350, R351). -/
def LinkPort.count (x : LinkPort) (q : Nat) : LinkPort :=
  let x := { x with rx := (x.rx + 1) % 2 ^ 16, rxBuf := modAt x.rxBuf q (fun n => min (rxRoom q) (n + 1)), unacked := x.unacked + 1 }
  if 64 ≤ x.unacked then { x with unacked := 0, ctl := some (.ack x.rx x.rxFree), rxFree := [0, 0, 0, 0, 0] } else x

/-- Buffers that the packet being received on a queue has taken; those of a packet being discarded are free already. -/
def LinkPort.openFlits (x : LinkPort) (q : Nat) : Nat :=
  match openOn x q with
  | some o => if o.drop then 0 else 1 + o.data.length / 32
  | none => 0

/-- A packet received whole on queue `q` is delivered; its `n` buffers are free unless it now waits at its output port
(R351). -/
def Dev.received (d : Dev) (k : Fin 4) (q n : Nat) (p : Packet) : Dev :=
  let at_ (d : Dev) : Option (Nat × Nat) :=
    (upto 4).findSome? (fun o => ((d.lnk.ports.toList.getD o {}).wait.find? (fun e => e.2 == p)).map (fun e => (o, e.1)))
  let d' := d.deliver k (q % 2) p
  match at_ d, at_ d' with
  | none, some (o, oq) => { d' with lnk := { d'.lnk with passing := d'.lnk.passing ++ [⟨o, oq, p, k.val, q, n⟩] } }
  | _, _ => d'.setPort k ((d'.port k).unbuffer q n)

/-- A good packet flit (R355): it opens, continues or ends the packet of its queue; a flit that does not fit starts the
discarding of its queue up to the next LAST. -/
def Dev.packetFlit (d : Dev) (k : Fin 4) (f : Flit) : Dev :=
  let s := f.side.toNat
  let hd := decide (bits s 7 6 = 1)
  let q := bits s 5 3
  let last := bit s 2
  let x := d.port k
  let dropTo (d : Dev) : Dev :=
    let x := (d.port k).unbuffer q ((d.port k).openFlits q + 1)
    (d.setPort k (if last then closeOn x q else x.reopen ⟨q, headerOf 0, [], true⟩)).discard k.val
  match openOn x q with
  | some o =>
    if o.drop then d.setPort k (if last then (closeOn x q).unbuffer q 1 else x.unbuffer q 1)
    else if hd then dropTo d
    else
      let o := { o with data := o.data ++ leBytes 32 f.data.toNat }
      if last then (d.setPort k (closeOn x q)).received k q (1 + o.data.length / 32) { o.hdr with data := o.data }
      else d.setPort k (x.reopen o)
  | none =>
    if !hd || decide (4 < q) then dropTo d
    else if last then d.received k q 1 (headerOf f.data.toNat)
    else d.setPort k (x.reopen ⟨q, headerOf f.data.toNat, [], false⟩)

/-- FLIT_RECEIVE (R350, R355): checked before it is used. A bad packet flit is answered by a NAK with the count of the last
good one, and everything up to the replay is discarded; the replay begins behind a good link-control flit (DESIGN CHOICE, log 29). -/
def Dev.flitIn (d : Dev) (k : Fin 4) (f : Flit) : Dev :=
  if lnkState d k.val ≠ 2 then d
  else
    let bad := badWords f
    let kind := bits f.side.toNat 7 6
    let ctl := kind == 0 || kind == 3
    let ok := bad.isEmpty && sideOk f
    let d := d.laneCount k bad
    let x := d.port k
    if ctl then
      if ok && kind == 3 && x.awaitReplay then d.setPort k { x with awaitReplay := false } else d
    else if x.awaitReplay then d
    else if !ok then
      ((d.setPort k { x with awaitReplay := true, ctl := some (.nak x.rx) }).incSat .lnkErr [k.val] 15 0 1).log stParityReplayed 3 k.val 0
        ((bad.getD 0 0) % 4)
    else (d.setPort k (x.count (bits f.side.toNat 5 3))).packetFlit k f

/-- Replay-buffer entries after flit number `n`; those up to it are good (R350). -/
def afterFlit (l : List (Nat × Nat × Flit)) (n : Nat) : List (Nat × Nat × Flit) :=
  match (l.zip (upto l.length)).find? (fun e => e.1.1 == n) with
  | some e => l.drop (e.2 + 1)
  | none => l

/-- NAK (R350): resend from the flit after the last good one. -/
def Dev.nakIn (d : Dev) (k : Fin 4) (good : Nat) : Dev :=
  let x := d.port k
  let r := afterFlit x.replay good
  if lnkState d k.val = 2 then d.setPort k { x with replay := r, wire := x.wire ++ r.map (·.2.2) } else d

/-- LINK_ACK (R350, R351): acknowledged flits leave the replay buffer, credits return, waiting packets go. -/
def Dev.ackIn (d : Dev) (k : Fin 4) (good : Nat) (credits : List Nat) : Dev :=
  let x := d.port k
  if lnkState d k.val = 2 then
    let x := { x with
      replay := afterFlit x.replay good, acked := good, wire := []
      credits := (x.credits.zip (upto 5)).map (fun e => min (if e.2 = 4 then 16 else 256) (e.1 + credits.getD e.2 0)) }
    (d.setPort k (launch x)).freePassing
  else d

/-! ## Discovery (R368) -/

/-- FABRIC_DISCOVERY: the runtime has read every port and checked the map; tables are loaded with EN at 0, then EN is
set. A map that does not agree loads nothing (R346); the circulation of CLOSE is not waited for (R343). -/
def Dev.discovery (d : Dev) (agrees : Bool) (routes ctl : List (Nat × W32)) (fab : W32) : Dev :=
  if !agrees then d
  else
    let d := d.setFld .lnkFabCtl [] 31 31 0
    let d := ctl.foldl (fun d e => match finPort e.1 with | some k => d.lnkCtlWrite k e.2 | none => d) d
    let d := routes.foldl (fun d e => if e.1 < 192 then d.routeWrite e.1 e.2 else d) d
    (d.fabCtl (fab &&& 0x7FFFFFFF#32)).setFld .lnkFabCtl [] 31 31 1

/-! ## Meanings -/

/-- LINK_ENABLE (R352). -/
def execLinkEnable (k : Fin 4) (s : State) : Host.Outcome State Fault Refusal := onDev s (s.dev.linkEnable k)
/-- LINK_RETRAIN (R352). -/
def execLinkRetrain (k : Fin 4) (s : State) : Host.Outcome State Fault Refusal := onDev s (s.dev.linkRetrain k)
/-- LINK_TRAINING_COMPLETE (R352). -/
def execLinkTrainingComplete (k : Fin 4) (t : LaneTest) (peerId : BitVec 8) (peerPort : BitVec 2) (rtt : Nat) (s : State) :
    Host.Outcome State Fault Refusal := onDev s (s.dev.trained k t peerId peerPort rtt)
/-- LINK_NO_PEER (R352). -/
def execLinkNoPeer (k : Fin 4) (s : State) : Host.Outcome State Fault Refusal := onDev s (s.dev.noPeer k)
/-- FLIT_RECEIVE (R350, R355). -/
def execFlitReceive (k : Fin 4) (f : Flit) (s : State) : Host.Outcome State Fault Refusal := onDev s (s.dev.flitIn k f)
/-- NAK (R350). -/
def execNak (k : Fin 4) (good : BitVec 16) (s : State) : Host.Outcome State Fault Refusal := onDev s (s.dev.nakIn k good.toNat)
/-- LINK_ACK (R350, R351). -/
def execLinkAck (k : Fin 4) (good : BitVec 16) (credits : List Nat) (s : State) : Host.Outcome State Fault Refusal :=
  onDev s (s.dev.ackIn k good.toNat credits)
/-- LANE_ERROR_THRESHOLD (R353). -/
def execLaneErrorThreshold (k lane : Fin 4) (s : State) : Host.Outcome State Fault Refusal := onDev s (s.dev.laneErrors k lane)
/-- LANE_LOCK_LOSS (R353). -/
def execLaneLockLoss (k lane : Fin 4) (s : State) : Host.Outcome State Fault Refusal := onDev s (s.dev.laneLost k lane)
/-- LINK_ERR_CLEAR (R354). -/
def execLinkErrClear (k : Fin 4) (s : State) : Host.Outcome State Fault Refusal := onDev s (s.dev.linkErrClear k.val)
/-- FABRIC_ENABLE (R365). -/
def execFabricEnable (v : W32) (s : State) : Host.Outcome State Fault Refusal := onDev s (s.dev.fabCtl v)
/-- READ (R357, R358). -/
def execRead (k : Fin 4) (q : Packet) (s : State) : Host.Outcome State Fault Refusal :=
  onDev s (s.dev.deliver k 0 { q with kind := BitVec.ofNat 8 kRead })
/-- WRITE (R357, R358). -/
def execWrite (k : Fin 4) (q : Packet) (s : State) : Host.Outcome State Fault Refusal :=
  onDev s (s.dev.deliver k 0 { q with kind := BitVec.ofNat 8 kWrite })
/-- ATOMIC (R357, R258). -/
def execAtomic (k : Fin 4) (q : Packet) (s : State) : Host.Outcome State Fault Refusal :=
  onDev s (s.dev.deliver k 0 { q with kind := BitVec.ofNat 8 kAtomic })
/-- BAR_ARRIVE (R364). -/
def execBarArrive (k : Fin 4) (q : Packet) (s : State) : Host.Outcome State Fault Refusal :=
  onDev s (s.dev.deliver k 0 { q with kind := BitVec.ofNat 8 kBarArrive })
/-- MGMT (R359, R360). -/
def execMgmt (k : Fin 4) (q : Packet) (s : State) : Host.Outcome State Fault Refusal :=
  onDev s (s.dev.deliver k 0 { q with kind := BitVec.ofNat 8 kMgmt })
/-- RDATA (R357). -/
def execRdata (k : Fin 4) (q : Packet) (s : State) : Host.Outcome State Fault Refusal :=
  onDev s (s.dev.deliver k 0 { q with kind := BitVec.ofNat 8 kRdata })
/-- WACK (R357). -/
def execWack (k : Fin 4) (q : Packet) (s : State) : Host.Outcome State Fault Refusal :=
  onDev s (s.dev.deliver k 0 { q with kind := BitVec.ofNat 8 kWack })
/-- ARESULT (R357): a response to an atomic; this device's cores send none (R111), so it is passed on or dropped. -/
def execAresult (k : Fin 4) (q : Packet) (s : State) : Host.Outcome State Fault Refusal :=
  onDev s (s.dev.deliver k 0 { q with kind := BitVec.ofNat 8 kAresult })
/-- BAR_RELEASE (R254, R364). -/
def execBarRelease (k : Fin 4) (q : Packet) (s : State) : Host.Outcome State Fault Refusal :=
  onDev s (s.dev.deliver k 0 { q with kind := BitVec.ofNat 8 kBarRelease })
/-- ERROR (R45, R200). -/
def execError (k : Fin 4) (q : Packet) (s : State) : Host.Outcome State Fault Refusal :=
  onDev s (s.dev.deliver k 0 { q with kind := BitVec.ofNat 8 kError })

end Sys2Proof.Machine
end

