-- ==== Sys2Proof/Machine/Slots.lean ====
section
/-! DEFINITION. Slot words (R90, R91, R93): the fields of each slot's 64-bit word, the operation each opcode names, and
the bundle a command issues: its own operation with the other non-zero words of its site. -/

namespace Sys2Proof.Machine

/-- Bits `lo + w - 1` to `lo` of a slot word. -/
def slotBits (x : BitVec 64) (lo w : Nat) : BitVec w := x.extractLsb' lo w

def opcodeOf (x : BitVec 64) : Nat := (slotBits x 56 8).toNat

def sFields (x : BitVec 64) : SFields := ⟨slotBits x 50 6, slotBits x 44 6, slotBits x 38 6, slotBits x 0 38⟩

def vFields (x : BitVec 64) : VFields :=
  ⟨slotBits x 50 6, slotBits x 44 6, slotBits x 38 6, slotBits x 34 4, slotBits x 31 3, x.getLsbD 30, slotBits x 24 6,
   slotBits x 0 24⟩

def lFields (x : BitVec 64) : LFields :=
  ⟨slotBits x 50 6, slotBits x 44 6, slotBits x 38 6, slotBits x 34 4, slotBits x 32 2, slotBits x 24 8, slotBits x 0 24⟩

def mFields (x : BitVec 64) : MFields :=
  ⟨slotBits x 50 6, slotBits x 44 6, slotBits x 38 6, slotBits x 35 3, x.getLsbD 34, slotBits x 30 4, x.getLsbD 29,
   x.getLsbD 28, slotBits x 22 6, slotBits x 18 4, slotBits x 6 12, slotBits x 2 4, x.getLsbD 1, x.getLsbD 0⟩

def xFields (x : BitVec 64) : XFields :=
  ⟨slotBits x 50 6, slotBits x 44 6, slotBits x 38 6, slotBits x 32 6, slotBits x 30 2, slotBits x 28 2, x.getLsbD 27,
   slotBits x 12 15, slotBits x 0 12⟩

def cFields (x : BitVec 64) : CFields :=
  ⟨slotBits x 50 6, slotBits x 44 6, slotBits x 38 6, slotBits x 32 6, x.getLsbD 31, slotBits x 27 4, slotBits x 24 3,
   slotBits x 12 12, slotBits x 0 12⟩

/-- Scalar opcodes (R97). -/
def scalarOp (op : Nat) (second : Bool) (f : SFields) : Action :=
  match op with
  | 0x01 => actAdd f
  | 0x02 => actSub f
  | 0x03 => actAnd f
  | 0x04 => actOr f
  | 0x05 => actXor f
  | 0x06 => actSll f
  | 0x07 => actSrl f
  | 0x08 => actSra f
  | 0x09 => actSlt f
  | 0x0A => actSltu f
  | 0x0B => actMul f
  | 0x0C => actMulh f
  | 0x0D => actMin f
  | 0x0E => actMax f
  | 0x10 => actAddi f
  | 0x11 => actAndi f
  | 0x12 => actOri f
  | 0x13 => actXori f
  | 0x14 => actSlli f
  | 0x15 => actSrli f
  | 0x16 => actSrai f
  | 0x17 => actSlti f
  | 0x18 => actLui f
  | 0x19 => actDiv second f
  | 0x1A => actDivu second f
  | 0x1B => actRemu second f
  | 0x20 => actGets f
  | 0x21 => actSets f
  | 0x22 => actMovv f
  | _ => fun _ _ => raises .illegalOpcode

/-- Vector opcodes (R101). -/
def vectorOp (op : Nat) (f : VFields) : Action :=
  match op with
  | 0x01 => actVadd f
  | 0x02 => actVsub f
  | 0x03 => actVmul f
  | 0x04 => actVfma f
  | 0x05 => actVmin f
  | 0x06 => actVmax f
  | 0x07 => actVand f
  | 0x08 => actVor f
  | 0x09 => actVxor f
  | 0x0A => actVshl f
  | 0x0B => actVshr f
  | 0x0C => actVcmplt f
  | 0x0D => actVcmpeq f
  | 0x0E => actVsel f
  | 0x0F => actVbcast f
  | 0x10 => actVcvt f
  | 0x11 => actVred f
  | 0x12 => actVgather f
  | 0x13 => actMgen f
  | 0x14 => actMand f
  | 0x15 => actMor f
  | 0x16 => actMandn f
  | 0x17 => actQrinit f
  | 0x18 => actQracc f
  | 0x19 => actQrange f
  | 0x1A => actVquant f
  | 0x1B => actVdeq f
  | 0x1C => actVrdacc f
  | 0x1D => actVrdtal f
  | 0x1E => actFinish f
  | _ => fun _ _ => raises .illegalOpcode

/-- Load and store opcodes (R105). -/
def lsOp (op : Nat) (f : LFields) : Action :=
  match op with
  | 0x01 => actLd f
  | 0x02 => actSt f
  | 0x03 => actLdw f
  | _ => fun _ _ => raises .illegalOpcode

/-- Matrix opcodes (R107). -/
def matrixOp (op : Nat) (f : MFields) : Action :=
  match op with
  | 0x01 => actMload f
  | 0x02 => actMswap f
  | 0x03 => actMrun f
  | 0x04 => actMepi f
  | 0x05 => actMclr f
  | _ => fun _ _ => raises .illegalOpcode

/-- Movement opcodes (R110). -/
def moveOp (op : Nat) (f : XFields) : Action :=
  match op with
  | 0x01 => actWalk f
  | 0x02 => actFset f
  | 0x03 => actFclr f
  | 0x04 => actTake f
  | 0x05 => actAadd f
  | 0x06 => actAld f
  | 0x07 => actAst f
  | 0x08 => actAcas f
  | 0x09 => actAwatch f
  | 0x0A => actFence f
  | _ => fun _ _ => raises .illegalOpcode

/-- Control opcodes (R113). -/
def controlOp (op : Nat) (f : CFields) : Action :=
  match op with
  | 0x01 => actJmp f
  | 0x02 => actJal f
  | 0x03 => actJr f
  | 0x04 => actBeq f
  | 0x05 => actBne f
  | 0x06 => actBlt f
  | 0x07 => actBge f
  | 0x08 => actBltu f
  | 0x09 => actBgeu f
  | 0x10 => actWaitf f
  | 0x11 => actWaita f
  | 0x20 => actTile f
  | 0x21 => actEnd f
  | 0x22 => actTrap f
  | 0x23 => actBarrier f
  | _ => fun _ _ => raises .illegalOpcode

/-- The operation of a slot word at its place; an all-zero word is a NOP (R93). -/
def slotAction (pos : Nat) (x : BitVec 64) : Action :=
  if x = 0#64 then actNop
  else if pos ≤ 1 then scalarOp (opcodeOf x) (pos == 1) (sFields x)
  else if pos = 2 then vectorOp (opcodeOf x) (vFields x)
  else if pos ≤ 4 then lsOp (opcodeOf x) (lFields x)
  else if pos = 5 then matrixOp (opcodeOf x) (mFields x)
  else if pos = 6 then moveOp (opcodeOf x) (xFields x)
  else controlOp (opcodeOf x) (cFields x)

/-- The acts of the other words of a bundle; of two words for one slot, or one for the command's own, the first counts. -/
def coActs (d : Dev) (p : Fin 7) : List CoWord → List (Nat × Act)
  | [] => []
  | w :: r => (w.pos.val, slotAction w.pos.val w.word d p) :: coActs d p r

/-- A bundle issues at a site: the command's own operation at slot `pos` with the words beside it (R90, R116). -/
def Dev.issueAt (d : Dev) (a : Site) (pos : Nat) (act : Action) : Dev :=
  d.issue a.core (sortActs ((pos, act d a.core) :: coActs d a.core a.co))

/-- Slot numbers: S0 or S1, L0 or L1. -/
def sPos (second : Bool) : Nat := if second then 1 else 0
def lPos (second : Bool) : Nat := if second then 4 else 3

end Sys2Proof.Machine
end

