-- ==== Sys2Proof/Machine/CoreRegs.lean ====
section
/-! DEFINITION. Registers of a core slot that take effect only while it runs no task (R151, R160, R207, R238): a write
meanwhile is held; and the image of the CORE range that the checkpoint store keeps (R401). -/

namespace Sys2Proof.Machine

/-- Registers whose writes a running core holds. -/
def heldReg : Reg → Bool
  | .coreArrRowmapA | .coreArrColmapA | .coreArrRowmapB | .coreArrColmapB => true
  | .coreChdCtl | .coreChdOps | .coreChdArgs | .coreChdOut | .coreChdP => true
  | .coreFtabX0 | .coreFtabInvw | .coreFtabEdge | .coreFtabTctl | .coreFtabCoef => true
  | .coreWchCtl | .coreWchWin | .coreHaloCtl => true
  | _ => false

/-- Running, aborting or re-running a tile (R151). -/
def CoreSt.busy (c : CoreSt) : Bool :=
  decide (c.mode = .running) || decide (c.mode = .aborting) || decide (c.mode = .rerun)

/-- The word of the CORE range 0x4000-0x4FFF an offset of the register space is, with its slot. -/
def imgWord (off : Nat) : Option (Nat × Nat) :=
  if 0x1000000 ≤ off ∧ off < 0x1700000 ∧ 0x4000 ≤ off % 0x100000 ∧ off % 0x100000 < 0x5000 then
    some ((off - 0x1000000) / 0x100000, (off % 0x100000 - 0x4000) / 4)
  else none

/-- Keep the image of a mapped core's range in step with a write (R401). -/
def Dev.imgWrite (d : Dev) (off : Nat) (v : W32) : Dev :=
  match imgWord off with
  | some (p, w) =>
    if d.logicalOf p < 6 then { d with coreImg := spSet 0#32 d.coreImg (d.logicalOf p * 1024 + w) v } else d
  | none => d

/-- The field of CORE_ARR_SPFUSE that says which entries of a map are fused: its lowest bit (R152). -/
def spfuseAt : Reg → Option Nat
  | .coreArrRowmapA => some 0
  | .coreArrColmapA => some 4
  | .coreArrRowmapB => some 8
  | .coreArrColmapB => some 12
  | _ => none

/-- The fused entries of a spare map keep what they hold, the others take the write (R150). -/
def Dev.fusedKeep (d : Dev) (r : Reg) (i : List Nat) (v : W32) : W32 :=
  match spfuseAt r with
  | some lo =>
    let m := (upto 4).foldl (fun m e => if d.flag .coreArrSpfuse i (lo + e) then m ||| fieldMask (8 * e + 7) (8 * e) else m) 0#32
    (d.rg r i &&& m) ||| (v &&& ~~~m)
  | none => v

/-- A write of a core-slot register takes effect: fused map entries kept, access types, and the image. The planes of the
slot stay as they are over a map's change: R151 leaves them undefined in the affected rows and columns, and no task sees
them, since each starts from zeroed planes (DESIGN CHOICE, log 83). -/
def Dev.coreWriteNow (d : Dev) (off : Nat) (v : W32) : Dev :=
  match regAt off with
  | some (r, i) =>
    let d := d.plainWrite r i (d.fusedKeep r i v)
    d.imgWrite off (d.rg r i)
  | none => d

/-- HELD_WRITE_APPLY (R151): the held writes take effect in order once the core runs no task. -/
def Dev.heldApply (d : Dev) (p : Fin 7) : Dev :=
  let c := d.core p
  if c.busy then d
  else c.held.foldl (fun d h => d.coreWriteNow h.1 h.2) (d.modCore p (fun c => { c with held := [] }))

/-- A write of a register a running core holds: at once, after the writes held earlier, or when the core leaves its
task. -/
def Dev.coreWrite (d : Dev) (p : Nat) (off : Nat) (v : W32) : Dev :=
  if (d.slot p).busy then d.modSlot p (fun c => { c with held := c.held ++ [(off, v)] })
  else ((match finSlot p with | some q => d.heldApply q | none => d)).coreWriteNow off v

/-- Write a configuration image to slot `p` as register writes; offsets that hold no register are ignored (R244). -/
def Dev.cfgImage (d : Dev) (p : Nat) (image : List W32) : Dev :=
  (image.zip (upto image.length)).foldl (fun d e => d.coreWrite p (0x1000000 + p * 0x100000 + 0x4000 + 4 * e.2) e.1) d

end Sys2Proof.Machine
end

