-- ==== Sys2Proof/Machine/Timetable.lean ====
section
/-! DEFINITION. The Timetable unit (R239-R251): polling the rings, task entries, dispatch, loads and marks, completion
records and their interrupts. -/

namespace Sys2Proof.Machine

/-! ## Rings (R240-R242, R268) -/

def cmdBase (d : Dev) (n : Nat) : Nat := hiLo (d.rg .ttCmdBaseHi [n]) (d.rg .ttCmdBaseLo [n])
def cplBase (d : Dev) (n : Nat) : Nat := hiLo (d.rg .ttCplBaseHi [n]) (d.rg .ttCplBaseLo [n])
def cmdLog (d : Dev) (n : Nat) : Nat := d.fld .ttRingCfg [n] 19 16
def cplLog (d : Dev) (n : Nat) : Nat := d.fld .ttRingCfg [n] 23 20
def ringLoc (d : Dev) (n : Nat) : Bool := d.flag .ttRingCfg [n] 30
def ringOn (d : Dev) (n : Nat) : Bool := d.flag .ttRingCfg [n] 31

/-- Read and write a ring's memory: host memory for LOC = 0, the device's for LOC = 1 (R240). -/
def Dev.locRd (d : Dev) (loc : Bool) (a n : Nat) : List Byte :=
  if !loc then rdCells 0#8 d.hostMem a n else if d.reach a n then d.load a n else List.replicate n 0#8
def Dev.locWr (d : Dev) (loc : Bool) (a : Nat) (bs : List Byte) : Dev :=
  if !loc then { d with hostMem := wrCells 0#8 d.hostMem a bs } else if d.reach a bs.length then d.store a bs else d

/-- What the submitter has written to host memory. -/
def Dev.hostPut (d : Dev) (cells : List Host.Cell) : Dev :=
  { d with hostMem := cells.foldl (fun m c => spSet 0#8 m c.1 c.2) d.hostMem }

/-- A ring can be reached now: device memory always, host memory while the function may master (R430). -/
def Dev.locOpen (d : Dev) (loc : Bool) : Bool := loc || d.master

def Dev.ring (d : Dev) (n : Fin 16) : RingSt := d.tt.rings[n]
def Dev.setRing (d : Dev) (n : Fin 16) (r : RingSt) : Dev := { d with tt := { d.tt with rings := d.tt.rings.set n r } }

/-- Task entries in use, with the records on their way into the table (R245). -/
def Dev.entriesUsed (d : Dev) : Nat := d.tt.entries.length + d.tt.fetched.length

/-- The bytes a COMMAND record of the recorder holds (R421). -/
def Dev.recordCommand (d : Dev) (n : Nat) (r : List Byte) : Dev :=
  let load := decide (r.getD 0 0#8 = 2#8) && d.flt.recImages && decide (leNat ((r.drop 40).take 8) < 2 ^ 19)
  let img := if load then d.load (leNat ((r.drop 32).take 8)) (leNat ((r.drop 40).take 8)) else []
  let cfg := if load && leNat ((r.drop 48).take 8) != 0 then d.load (leNat ((r.drop 48).take 8)) 4096 else []
  d.record 1 (BitVec.ofNat 8 n :: List.replicate 15 0#8 ++ r ++ img ++ cfg)

/-- Fetch up to `k` new records of ring `n` (R242). -/
def fetchRing : Nat → Dev → Fin 16 → Dev
  | 0, d, _ => d
  | k + 1, d, n =>
    let r := d.ring n
    let rec_ := d.locRd (ringLoc d n.val) (cmdBase d n.val + 64 + 64 * r.cmdIdx) 64
    if 1024 ≤ d.entriesUsed ∨ (rec_.getD 1 0#8).getLsbD 0 ≠ r.cmdPh then d
    else
      let i := (r.cmdIdx + 1) % 2 ^ cmdLog d n.val
      let d := d.setRing n { r with cmdIdx := i, cmdPh := if i = 0 then !r.cmdPh else r.cmdPh, fetched := r.fetched + 1 }
      let d : Dev := { d with tt := { d.tt with fetched := d.tt.fetched ++ [(n.val, rec_)] } }
      fetchRing k (d.recordCommand n.val rec_) n

/-- One visit to a ring (R242). -/
def visitRing (d : Dev) (n : Fin 16) : Dev :=
  if ringOn d n.val && d.locOpen (ringLoc d n.val) then
    let before := (d.ring n).fetched
    let d := fetchRing 8 d n
    let r := d.ring n
    let d := if before < r.fetched then d.locWr (ringLoc d n.val) (cmdBase d n.val) (leBytes 8 r.fetched) else d
    d.setRing n { d.ring n with consumed := leNat (d.locRd (ringLoc d n.val) (cmdBase d n.val + 8) 8) }
  else d

/-! ## Records (R243, R244) -/

def recNat (r : List Byte) (off n : Nat) : Nat := leNat ((r.drop off).take n)

/-- The task entry a record describes. -/
def parseEntry (ring seq : Nat) (r : List Byte) : TEntry :=
  let fl := recNat r 9 1
  let sig := recNat r 12 4
  { seq := seq, ring := ring, op := recNat r 0 1, jobId := recNat r 2 2, tag := recNat r 4 4, cores := recNat r 8 1
    cls := bits fl 1 0, spread := bit fl 2, pl := bit fl 3, cpl := bit fl 4, irq := bit fl 5
    start := recNat r 10 2
    signal := if bit sig 31 then some (bits sig 30 24) else none
    waits := ((upto 4).map (fun i => recNat r (16 + 4 * i) 4)).filterMap (fun w =>
      if bit w 31 then some (bits w 30 24, bits w 23 0) else none)
    arg0 := recNat r 32 8, arg1 := recNat r 40 8, cfg := recNat r 48 8 }

/-- The rules of R244. -/
def recordOk (d : Dev) (r : List Byte) : Bool :=
  let e := parseEntry 0 0 r
  let fl := recNat r 9 1
  decide (1 ≤ e.op ∧ e.op ≤ 3) && recNat r 1 1 / 2 == 0 && e.cores / 64 == 0 && fl / 64 == 0 && e.start / 4096 == 0 &&
    bits (recNat r 12 4) 23 0 == 0 && recNat r 56 8 == 0 &&
    (if e.op = 1 then e.cores != 0 && e.cfg == 0 && (!e.pl || decide (1 ≤ e.arg1 ∧ e.arg1 ≤ 4096))
     else if e.op = 2 then
       e.cores != 0 && decide (e.arg1 < 2 ^ 19) && decide (0 < e.arg1) && e.arg1 % 64 == 0 &&
         decide (e.start + e.arg1 / 64 ≤ 4096) && d.reach e.arg0 e.arg1 && (e.cfg == 0 || d.reach e.cfg 4096)
     else e.cores == 0 && !e.spread && !e.pl && e.start == 0 && e.arg0 == 0 && e.arg1 == 0 && e.cfg == 0)

/-- The lowest free table index (DESIGN CHOICE, log 24). -/
def Dev.freeIndex (d : Dev) : Nat := ((upto 1024).find? (fun i => !d.tt.entries.any (fun e => e.1 == i))).getD 1024

def Dev.modEntry (d : Dev) (i : Nat) (f : TEntry → TEntry) : Dev :=
  { d with tt := { d.tt with entries := d.tt.entries.map (fun e => if e.1 = i then (e.1, f e.2) else e) } }
def Dev.dropEntry (d : Dev) (i : Nat) : Dev :=
  { d with tt := { d.tt with
      entries := d.tt.entries.filter (fun e => e.1 != i), finish := d.tt.finish.filter (· != i)
      holding := d.tt.holding.filter (· != i) } }

/-- The SIGNAL of a completed command: modulo 2^24 (R246). -/
def Dev.signal (d : Dev) (e : TEntry) : Dev :=
  match e.signal with
  | some c => d.incMod .ttCnt [c] 23 0 1
  | none => d

/-- Whether a status aborts (R419). -/
def aborting (st : Byte) : Bool :=
  st == 0x10#8 || st == 0x11#8 || st == 0x14#8 || st == 0x15#8 || st == 0x16#8 || st == 0x17#8 || st == 0x20#8 || st == 0x61#8

/-- A command completes (R245, R246): with CPL = 1 its entry waits for the completion record; else its SIGNAL is
applied and the entry freed. -/
def Dev.finish (d : Dev) (i : Nat) (st : Byte) (nf : BitVec 8) (ran : Nat) : Dev :=
  match d.entry i with
  | none => d
  | some e =>
    let d := if aborting st then d.trigger 1 else d
    if e.cpl then
      let d := d.modEntry i (fun e =>
        { e with phase := .finished, status := st, nflags := nf, ran := ran, done := d.tb })
      { d with tt := { d.tt with finish := d.tt.finish ++ [i] } }
    else (d.signal e).dropEntry i

/-- A record enters the table (R244, R245). -/
def Dev.enter (d : Dev) (ring : Nat) (r : List Byte) : Dev :=
  let i := d.freeIndex
  let e := parseEntry ring d.tt.fetchSeq r
  let d : Dev := { d with tt := { d.tt with entries := d.tt.entries ++ [(i, e)], fetchSeq := d.tt.fetchSeq + 1 } }
  if recordOk d r then d else d.finish i stCommandInvalid 0#8 0

/-- Records with a reserved OP at the front enter the table as they come (R244). -/
def drainBad : Nat → Dev → Dev
  | 0, d => d
  | k + 1, d =>
    match d.tt.fetched with
    | (n, r) :: rest =>
      if 1 ≤ recNat r 0 1 ∧ recNat r 0 1 ≤ 3 then d
      else
        let d : Dev := { d with tt := { d.tt with fetched := rest } }
        drainBad k (d.enter n r)
    | [] => d

/-- RING_POLL (R241, R242, R430). -/
def Dev.ringPoll (d : Dev) (host : List Host.Cell) : Dev :=
  let d := d.hostPut host
  if d.flag .ttCtl [] 0 && !d.flt.forced && d.flt.mario.isNone then
    let d := ([0, 1, 2, 3, 4, 5, 6, 7, 8, 9, 10, 11, 12, 13, 14, 15] : List (Fin 16)).foldl visitRing d
    drainBad d.tt.fetched.length d
  else d

/-- A record without its completion bit: its ring has stopped with a function reset (R431). -/
def noCompletion (r : List Byte) : List Byte := modAt r 9 (fun b => b &&& 0xEF#8)

/-- TASK, LOAD and MARK (R243-R245): the fetched record at the front, if it is this one, enters the table. -/
def Dev.takeRecord (d : Dev) (op ring : Nat) (r : List Byte) : Dev :=
  match d.tt.fetched with
  | (n, r') :: rest =>
    if n = ring ∧ (r' = r ∨ r' = noCompletion r) ∧ recNat r 0 1 = op then
      let d : Dev := { d with tt := { d.tt with fetched := rest } }
      drainBad rest.length (d.enter n r')
    else d
  | [] => d

/-! ## Readiness and dispatch (R246-R249) -/

/-- A WAIT word is satisfied. -/
def waitOk (d : Dev) (w : Nat × Nat) : Bool :=
  decide ((d.fld .ttCnt [w.1] 23 0 + 2 ^ 24 - w.2) % 2 ^ 24 < 2 ^ 23)

def TEntry.waitsOk (e : TEntry) (d : Dev) : Bool := e.waits.all (waitOk d)

/-- Entries in a phase other than finished. -/
def Dev.open_ (d : Dev) : List (Nat × TEntry) := d.tt.entries.filter (fun e => decide (e.2.phase ≠ .finished))

/-- A task on logical core `k` completes: the first since its step fell due lets the step run (R409). -/
def Dev.rotSeen (d : Dev) (k : Nat) : Dev :=
  if d.rotRuns k then { d with flt := { d.flt with rotReady := some k } } else d

/-- Logical core `k` runs no task and is in service; nothing is dispatched to it while its rotation step runs (R409). -/
def Dev.idleCore (d : Dev) (k : Nat) : Bool :=
  let c := d.slot (d.slotOf k)
  decide (c.mode = .idle) && !c.frozen && !d.flt.lost.contains k && !(d.flt.rotReady == some k && d.rotRuns k)

/-- A LOAD fetched before `seq` that is pending or running names core `k` (R248). -/
def Dev.loadBlocks (d : Dev) (seq k : Nat) : Bool :=
  d.open_.any (fun e => e.2.op == 2 && decide (e.2.seq < seq) && bit e.2.cores k)

/-- Ready for dispatch (R246, R248): some core it may start on is free of loads. -/
def TEntry.ready (e : TEntry) (d : Dev) : Bool :=
  e.waitsOk d && (if e.spread then (upto 6).all (fun k => !bit e.cores k || !d.loadBlocks e.seq k)
                  else (upto 6).any (fun k => bit e.cores k && !d.loadBlocks e.seq k))

/-- Insert by CLASS downward, then by fetch order. -/
def insOrder (x : Nat × TEntry) : List (Nat × TEntry) → List (Nat × TEntry)
  | [] => [x]
  | y :: r => if y.2.cls < x.2.cls ∨ (y.2.cls = x.2.cls ∧ x.2.seq < y.2.seq) then x :: y :: r else y :: insOrder x r

/-- Ready TASK entries in dispatch order (R247). -/
def Dev.order (d : Dev) : List (Nat × TEntry) :=
  (d.tt.entries.filter (fun e => decide (e.2.phase = .waiting) && e.2.op == 1 && e.2.ready d)).foldl
    (fun l e => insOrder e l) []

/-- The cores an entry starts on now, given those held by entries before it. -/
def startCores (d : Dev) (held : List Nat) (e : TEntry) : Option (List Nat) :=
  let free (k : Nat) : Bool := d.idleCore k && !held.contains k && !d.loadBlocks e.seq k
  if e.spread then
    let ks := (upto 6).filter (bit e.cores)
    if ks.all free then some ks else none
  else ((upto 6).find? (fun k => bit e.cores k && free k)).map (fun k => [k])

/-- What the first pass of dispatch answers: the entry to start with its cores, and the SPREAD entry that begins to
hold its cores (R247). -/
def pick (d : Dev) : List (Nat × TEntry) → List Nat → Bool → Option (Nat × List Nat) × Option Nat
  | [], _, _ => (none, none)
  | (i, e) :: r, held, seen =>
    match startCores d held e with
    | some ks => (some (i, ks), none)
    | none =>
      if e.spread && (!seen || d.tt.holding.contains i) then
        let mine := (upto 6).filter (fun k => bit e.cores k && d.idleCore k)
        let (a, h) := pick d r (held ++ mine) true
        (a, if seen then h else some i)
      else pick d r held seen

/-- An entry can run only on lost cores: CORE_LOST at dispatch (R408). -/
def TEntry.lostFor (e : TEntry) (d : Dev) : Bool :=
  let ks := (upto 6).filter (bit e.cores)
  if e.spread then ks.any (d.flt.lost.contains ·) else ks.all (d.flt.lost.contains ·)

/-- What an array's power state is made of (R152-R154). -/
def ArrSt.powered (a : ArrSt) : ArrSt := { pwr := a.pwr, step := a.step, idle := a.idle }

/-- What belongs to a physical slot whatever runs on it: its cycle count, its clock's frame, skip, stretch and droop
(R371-R373), its arrays' power, the jobs its energy is charged to (R390). -/
def CoreSt.slotPart (c : CoreSt) : CoreSt :=
  { totCyc := c.totCyc, pos := c.pos, skip := c.skip, skipOther := c.skipOther, stretch := c.stretch, stopped := c.stopped
    droop := c.droop, jobs := c.jobs, arrA := c.arrA.powered, arrB := c.arrB.powered }

/-- The state of a slot at task start (R81, R84, R129). -/
def startCore (c : CoreSt) (p k i : Nat) (e : TEntry) : CoreSt :=
  let s : Sparse W64 := [(1, BitVec.ofNat 64 e.arg0), (2, BitVec.ofNat 64 e.arg1), (3, BitVec.ofNat 64 (b2n e.pl)),
    (4, BitVec.ofNat 64 k), (5, BitVec.ofNat 64 i)].filter (fun x => x.2 != 0#64)
  let c0 : CoreSt :=
    { c.slotPart with
      mode := .running, pc := e.start, sregs := s, jobId := e.jobId, entry := i, plTask := e.pl, plAddr := e.arg0
      plLen := e.arg1, keySlot := p, jobs := c.jobs ++ [e.jobId] }
  { c0 with ckpt := c0.checkpoint }

/-- The registers of a slot that count for its present task alone: a task's start clears them (R129, R152, R201, R207,
R217). -/
def taskCounters : List Reg :=
  [.coreStallWait, .coreStallIssue, .coreArrRampWait, .coreWlkRdblk, .coreWlkWrblk, .coreWchStat, .coreConvEmpty]

/-- Start an instance of an entry on logical core `k`. -/
def Dev.startOn (d : Dev) (i : Nat) (e : TEntry) (k : Nat) : Dev :=
  match finSlot (d.slotOf k) with
  | none => d
  | some p =>
    let d := d.heldApply p
    let d := d.setCore p (startCore (d.core p) p.val k i e)
    let d : Dev := { d with com := { d.com with recs := d.com.recs.filter (fun x => x.1 != p.val) } }
    taskCounters.foldl (fun d r => d.setRg r [p.val] 0#32) d

/-- Dispatch runs (R414, R422): enabled, or a re-run is under way (DEDUCED, log 56); no device test. -/
def Dev.dispatchOn (d : Dev) : Bool := (d.flag .ttCtl [] 0 || d.flt.mario.isSome) && !d.flt.forced

/-- TASK_DISPATCH (R247, R408): the first entry in order that can start does; a ready entry that only lost cores could
run completes with CORE_LOST. -/
def Dev.taskDispatch (d : Dev) : Dev :=
  if !d.dispatchOn then d
  else
    match d.order.find? (fun e => e.2.lostFor d) with
    | some e => d.finish e.1 stCoreLost 0#8 0
    | none =>
      let (a, h) := pick d d.order [] false
      let d : Dev := { d with tt := { d.tt with
        holding := d.tt.holding ++ (h.toList.filter (fun i => !d.tt.holding.contains i)) } }
      match a with
      | none => d
      | some (i, ks) =>
        match d.entry i with
        | none => d
        | some e =>
          let d := d.modEntry i (fun e =>
            { e with phase := .running, live := ks, ran := (ks.map (fun k => 2 ^ k)).foldl (· + ·) 0 })
          let d : Dev := { d with tt := { d.tt with holding := d.tt.holding.filter (· != i) } }
          ks.foldl (fun d k => d.startOn i e k) d

/-- A LOAD may start (R248). -/
def TEntry.loadReady (e : TEntry) (d : Dev) : Bool :=
  e.waitsOk d && (upto 6).all (fun k => !bit e.cores k || d.idleCore k) &&
    !d.open_.any (fun x => x.2.op == 1 && decide (x.2.seq < e.seq) && (x.2.cores &&& e.cores) != 0)

/-- The first entry of a kind in fetch order that is waiting and accepted. -/
def Dev.firstWaiting (d : Dev) (op : Nat) (f : TEntry → Bool) : Option (Nat × TEntry) :=
  (d.tt.entries.filter (fun e => decide (e.2.phase = .waiting) && e.2.op == op && f e.2)).foldl (fun m e =>
    match m with
    | none => some e
    | some x => if e.2.seq < x.2.seq then some e else some x) none

/-- LOAD_START (R248, R408). -/
def Dev.loadStart (d : Dev) : Dev :=
  if !d.dispatchOn then d
  else
    match d.firstWaiting 2 (fun e => e.waitsOk d && (upto 6).any (fun k => bit e.cores k && d.flt.lost.contains k)) with
    | some (i, _) => d.finish i stCoreLost 0#8 0
    | none =>
      match d.firstWaiting 2 (fun e => e.loadReady d) with
      | some (i, _) => d.modEntry i (fun e => { e with phase := .running })
      | none => d

/-- LOAD_COMPLETE (R248): the image goes to bundles ENTRY onward of each named core, then the configuration image. -/
def Dev.loadComplete (d : Dev) (i : Nat) : Dev :=
  match d.entry i with
  | none => d
  | some e =>
    if e.op = 2 ∧ e.phase = .running then
      let img := d.load e.arg0 e.arg1
      let cfg := if e.cfg = 0 then [] else (upto 1024).map (fun w => BitVec.ofNat 32 (d.loadNat (e.cfg + 4 * w) 4))
      let d := ((upto 6).filter (bit e.cores)).foldl (fun d k =>
        (d.imWr k (64 * e.start) img).cfgImage (d.slotOf k) cfg) d
      d.finish i stOk 0#8 0
    else d

/-- MARK_COMPLETE (R249): the first MARK whose waits hold and whose ring has completed everything before it. -/
def Dev.markComplete (d : Dev) : Dev :=
  match d.firstWaiting 3 (fun e => e.waitsOk d && !d.open_.any (fun x => x.2.ring == e.ring && decide (x.2.seq < e.seq))) with
  | some (i, _) => d.finish i stOk 0#8 0
  | none => d

/-! ## Completion (R250, R251, R420) -/

/-- The rank of a code that does not abort (R420). -/
def infoRank (st : Byte) : Nat :=
  if st = stAccOverflow then 6 else if st = stEmptyOutput then 5 else if st = stDegenerate then 4
  else if st = stCoreTakenOver then 3 else if st = stTileReplayed then 2 else if st = stParityReplayed then 1 else 0

/-- How an instance ended (R79, R123, R404, R420). -/
def CoreSt.status (c : CoreSt) : Byte :=
  match c.abort with
  | some s => s
  | none =>
    let nf := c.nflags ||| c.nfUnion
    if c.carryBad then stPoisoned
    else if nf.getLsbD 0 || nf.getLsbD 1 then stAccOverflow
    else if c.emptyOut then stEmptyOutput
    else if nf.getLsbD 5 then stDegenerate
    else if c.taken then stCoreTakenOver
    else if c.replayed then stTileReplayed
    else if c.parity then stParityReplayed
    else stOk

/-- One status for a task of several instances (R250). -/
def taskStatus (l : List InstEnd) : Byte :=
  match (l.filter (fun e => aborting e.status)).foldl (fun (m : Option InstEnd) e =>
      match m with | none => some e | some x => if e.core < x.core then some e else some x) none with
  | some e => e.status
  | none => l.foldl (fun m e => if infoRank m < infoRank e.status then e.status else m) stOk

/-- An instance on logical core `k` has ended; the last one completes the task. -/
def Dev.instanceEnd (d : Dev) (i k : Nat) (st : Byte) (nf : BitVec 8) : Dev :=
  match d.entry i with
  | none => d
  | some e =>
    if !e.live.contains k then d
    else
      let ends := e.ends ++ [⟨k, st, nf⟩]
      let live := e.live.filter (· != k)
      let d := d.modEntry i (fun e => { e with live := live, ends := ends })
      if live.isEmpty then
        d.finish i (taskStatus ends) (ends.foldl (fun a x => a ||| x.nflags) 0#8) e.ran
      else d

/-- The core becomes idle: what a finished task leaves. A watch that is still outstanding goes with the task (DESIGN CHOICE,
log 80). -/
def CoreSt.retire (c : CoreSt) : CoreSt :=
  { c with mode := .idle, ended := false, abort := none, delay := none, watches := [], resident := [], nextDescs := []
           wlkFault := false, pc := 0, plTask := false, pend := [], bankRetry := false }

/-- TASK_COMPLETE (R89, R123, R196, R250): the task has ended and every transfer, atomic and matrix-slot operation is done;
the core reports and becomes idle. -/
def Dev.taskComplete (d : Dev) (p : Fin 7) : Dev :=
  let c := d.core p
  if c.busy && c.ended && !c.frozen && c.wk0.isEmpty && c.wk1.isEmpty && c.wk2.isEmpty && c.quiet then
    let d' := (d.reportTaken p).setCore p { c.retire with takenAt := none }
    (d'.instanceEnd c.entry (d.logicalOf p.val) c.status (c.nflags ||| c.nfUnion)).rotSeen (d.logicalOf p.val)
  else d

/-- Bytes of a completion record (R250). -/
def cplBytes (phase : Bool) (e : TEntry) : List Byte :=
  [e.status, BitVec.ofNat 8 (b2n phase), e.nflags, BitVec.ofNat 8 e.ran] ++ leBytes 4 e.tag ++ leBytes 2 e.jobId ++
    [BitVec.ofNat 8 e.ring, 0#8] ++ leBytes 4 e.done

/-- The completion ring is full (R251). -/
def Dev.cplFull (d : Dev) (n : Fin 16) : Bool :=
  decide (2 ^ cplLog d n.val ≤ (d.ring n).written - (d.ring n).consumed)

/-- Signalling after a record (R251). -/
def Dev.ringIrq (d : Dev) (n : Fin 16) (irq : Bool) : Dev :=
  if d.flag .ttRingIrq [n.val] 31 then
    let r := d.ring n
    if irq || decide (max 1 (d.fld .ttRingIrq [n.val] 15 8) ≤ r.unsig + 1) then
      (d.setRing n { r with unsig := 0, timer := false }).msix (d.fld .ttRingIrq [n.val] 21 16)
    else d.setRing n { r with unsig := r.unsig + 1, timer := decide (0 < d.fld .ttRingIrq [n.val] 7 0) }
  else d

/-- COMPLETION_RECORD_WRITE (R245, R246, R250, R251): the ring's oldest finished command. -/
def Dev.completionWrite (d : Dev) (n : Fin 16) : Dev :=
  let loc := ringLoc d n.val
  match d.tt.finish.find? (fun i => match d.entry i with | some e => e.ring == n.val | none => false) with
  | none => d
  | some i =>
    match d.entry i with
    | none => d
    | some e =>
      if d.cplFull n || !d.locOpen loc then d
      else
        let r := d.ring n
        let j := (r.cplIdx + 1) % 2 ^ cplLog d n.val
        let d := d.locWr loc (cplBase d n.val + 16 * r.cplIdx) (cplBytes r.cplPh e)
        let d := d.setRing n { r with
          cplIdx := j, cplPh := if j = 0 then !r.cplPh else r.cplPh, written := r.written + 1 }
        ((d.signal e).dropEntry i).ringIrq n e.irq

/-- IRQ_MODERATION_TIMEOUT (R251). -/
def Dev.irqTimeout (d : Dev) (n : Fin 16) : Dev :=
  let r := d.ring n
  if d.flag .ttRingIrq [n.val] 31 && r.timer then
    (d.setRing n { r with unsig := 0, timer := false }).msix (d.fld .ttRingIrq [n.val] 21 16)
  else d

/-! ## Registers of the unit (R268) -/

/-- A ring's extents allow it to be enabled. -/
def ringValid (d : Dev) (n : Nat) : Bool :=
  let size (l : Nat) : Bool := decide (4 ≤ l ∧ l ≤ 12)
  let within (a len : Nat) : Bool :=
    decide (a + len ≤ runtimeBase) || decide (commonsBase ≤ a ∧ a + len ≤ commonsBase + commonsSize)
  size (cmdLog d n) && size (cplLog d n) &&
    (!ringLoc d n || (within (cmdBase d n) (64 + 64 * 2 ^ cmdLog d n) && within (cplBase d n) (16 * 2 ^ cplLog d n)))

/-- A write of TT_RING_CFG (R268): while EN is 1 only EN counts; enabling resets indices and phases, or is refused. -/
def Dev.ringCfg (d : Dev) (n : Fin 16) (v : W32) : Dev :=
  if ringOn d n.val then
    if v.getLsbD 31 then d else d.setFld .ttRingCfg [n.val] 31 31 0
  else
    let d := d.plainWrite .ttRingCfg [n.val] (v &&& 0x7FFFFFFF#32)
    if !v.getLsbD 31 then d
    else if ringValid d n.val then
      (d.setFld .ttRingCfg [n.val] 31 31 1).setRing n { cmdPh := true, cplPh := true }
    else d.setFld .ttRingStat [n.val] 31 31 1

/-- TT_RING_POLL (R268): an INTERVAL outside 1-64 is ignored. -/
def Dev.ringPollWrite (d : Dev) (v : W32) : Dev :=
  let i := bits v.toNat 6 0
  if 1 ≤ i ∧ i ≤ 64 then d.setFld .ttRingPoll [] 6 0 i else d

/-- TT_BAR_DEV (R268): DISMISS at once, MASK once no device or system barrier has arrivals pending. -/
def Dev.barDevWrite (d : Dev) (v : W32) : Dev :=
  let d := d.setFld .ttBarDev [] 31 31 (bits v.toNat 31 31)
  let d : Dev := { d with bar := { d.bar with stage := some (bits v.toNat 5 0) } }
  d.barMaskApply

/-! ## Meanings -/

/-- TASK (R243-R245). -/
def execTask (ring : Fin 16) (r : List Byte) (s : State) : Host.Outcome State Fault Refusal :=
  onDev s (s.dev.takeRecord 1 ring.val r)
/-- LOAD (R243-R245). -/
def execLoad (ring : Fin 16) (r : List Byte) (s : State) : Host.Outcome State Fault Refusal :=
  onDev s (s.dev.takeRecord 2 ring.val r)
/-- MARK (R243-R245). -/
def execMark (ring : Fin 16) (r : List Byte) (s : State) : Host.Outcome State Fault Refusal :=
  onDev s (s.dev.takeRecord 3 ring.val r)
/-- TASK_DISPATCH (R247). -/
def execTaskDispatch (s : State) : Host.Outcome State Fault Refusal := onDev s s.dev.taskDispatch
/-- LOAD_START (R248). -/
def execLoadStart (s : State) : Host.Outcome State Fault Refusal := onDev s s.dev.loadStart
/-- LOAD_COMPLETE (R248). -/
def execLoadComplete (e : Fin 1024) (s : State) : Host.Outcome State Fault Refusal := onDev s (s.dev.loadComplete e.val)
/-- MARK_COMPLETE (R249). -/
def execMarkComplete (s : State) : Host.Outcome State Fault Refusal := onDev s s.dev.markComplete
/-- TASK_COMPLETE (R250). -/
def execTaskComplete (p : Fin 7) (s : State) : Host.Outcome State Fault Refusal := onDev s (s.dev.taskComplete p)
/-- COMPLETION_RECORD_WRITE (R250, R251). -/
def execCompletionRecordWrite (n : Fin 16) (s : State) : Host.Outcome State Fault Refusal := onDev s (s.dev.completionWrite n)
/-- IRQ_MODERATION_TIMEOUT (R251). -/
def execIrqModerationTimeout (n : Fin 16) (s : State) : Host.Outcome State Fault Refusal := onDev s (s.dev.irqTimeout n)
/-- TT_ENABLE (R268). -/
def execTtEnable (en : Bool) (s : State) : Host.Outcome State Fault Refusal := onDev s (s.dev.setFld .ttCtl [] 0 0 (b2n en))
/-- RING_ENABLE (R268). -/
def execRingEnable (n : Fin 16) (v : W32) (s : State) : Host.Outcome State Fault Refusal :=
  onDev s (s.dev.ringCfg n (v ||| 0x80000000#32))
/-- RING_DISABLE (R268). -/
def execRingDisable (n : Fin 16) (s : State) : Host.Outcome State Fault Refusal := onDev s (s.dev.ringCfg n 0#32)
/-- COUNTER_WRITE (R246). -/
def execCounterWrite (c : Fin 128) (v : BitVec 24) (s : State) : Host.Outcome State Fault Refusal :=
  onDev s (s.dev.setFld .ttCnt [c.val] 23 0 v.toNat)
/-- HELD_WRITE_APPLY (R151). -/
def execHeldWriteApply (p : Fin 7) (s : State) : Host.Outcome State Fault Refusal := onDev s (s.dev.heldApply p)

end Sys2Proof.Machine
end

