-- ==== Sys2Proof/Machine/SvcRing.lean ====
section
/-! DEFINITION. The service ring pair (R433, R434, R459): taking requests, writing responses and notices. -/

namespace Sys2Proof.Machine

def svcCmd (d : Dev) : Nat := hiLo (d.rg .pciSvcCmdHi []) (d.rg .pciSvcCmdLo [])
def svcRsp (d : Dev) : Nat := hiLo (d.rg .pciSvcRspHi []) (d.rg .pciSvcRspLo [])
def svcOn (d : Dev) : Bool := d.flag .pciSvcCfg [] 31
def svcLoc (d : Dev) : Bool := d.flag .pciSvcCfg [] 30
def svcCmdLog (d : Dev) : Nat := d.fld .pciSvcCfg [] 7 4
def svcRspLog (d : Dev) : Nat := d.fld .pciSvcCfg [] 11 8

/-- The response ring is full. -/
def svcFull (d : Dev) : Bool := decide (2 ^ svcRspLog d ≤ d.svc.written - d.svc.consumed)

/-- Write one 32-byte record, its PHASE in byte 1. -/
def Dev.svcPut (d : Dev) (r : List Byte) : Dev :=
  let i := (d.svc.rspIdx + 1) % 2 ^ svcRspLog d
  let d := d.locWr (svcLoc d) (svcRsp d + 32 * d.svc.rspIdx)
    (r.take 1 ++ [BitVec.ofNat 8 (b2n d.svc.rspPh)] ++ (r.drop 2).take 30)
  let d : Dev := { d with svc := { d.svc with
    rspIdx := i, rspPh := if i = 0 then !d.svc.rspPh else d.svc.rspPh, written := d.svc.written + 1 } }
  if d.flag .pciSvcCfg [] 29 then d.msix (d.fld .pciSvcCfg [] 21 16) else d

/-- Write what waits while there is room: responses first, then notices. -/
def svcFlush : Nat → Dev → Dev
  | 0, d => d
  | k + 1, d =>
    if !svcOn d || svcFull d || !d.locOpen (svcLoc d) then d
    else
      match d.svc.out, d.svc.notices with
      | r :: rest, _ =>
        let d : Dev := { d with svc := { d.svc with out := rest } }
        svcFlush k (d.svcPut r)
      | [], r :: rest =>
        let d : Dev := { d with svc := { d.svc with notices := rest } }
        svcFlush k (d.svcPut r)
      | [], [] => d

def Dev.svcGo (d : Dev) : Dev := svcFlush (d.svc.out.length + d.svc.notices.length) d

/-- A request completes (R434): STATUS, OP, TAG and a result of up to 24 bytes. -/
def Dev.reply (d : Dev) (op tag : Nat) (st : Byte) (result : List Byte) : Dev :=
  let r := [st, 0#8, BitVec.ofNat 8 op, 0#8] ++ leBytes 4 tag ++ (result ++ List.replicate 24 0#8).take 24
  let d : Dev := { d with svc := { d.svc with out := d.svc.out ++ [r] } }
  d.svcGo

/-- A notice (R433, R434): at most 64 wait, a further one replaces the oldest waiting. -/
def Dev.notice (d : Dev) (st : Byte) (result : List Byte) : Dev :=
  let r := [st, 0#8, 0x80#8, 0#8] ++ leBytes 4 0 ++ (result ++ List.replicate 24 0#8).take 24
  let l := if 64 ≤ d.svc.notices.length then d.svc.notices.drop 1 else d.svc.notices
  let d : Dev := { d with svc := { d.svc with notices := l ++ [r] } }
  d.svcGo

/-- A write of PCI_SVC_CFG (R459): while EN is 1 only EN counts; enabling resets indices and phases, or is refused. -/
def Dev.svcCfg (d : Dev) (v : W32) : Dev :=
  if svcOn d then
    if v.getLsbD 31 then d else d.setFld .pciSvcCfg [] 31 31 0
  else
    let d := if v.getLsbD 28 then d.setFld .pciSvcCfg [] 28 28 0 else d
    let d := d.plainWrite .pciSvcCfg [] (v &&& 0x6FFFFFFF#32)
    let ok (l : Nat) : Bool := decide (4 ≤ l ∧ l ≤ 12)
    if !v.getLsbD 31 then d
    else if ok (svcCmdLog d) && ok (svcRspLog d) then
      let d : Dev := { d with svc := { d.svc with
        cmdIdx := 0, cmdPh := true, fetched := 0, rspIdx := 0, rspPh := true, written := 0, consumed := 0 } }
      (d.setFld .pciSvcCfg [] 31 31 1).svcGo
    else d.setFld .pciSvcCfg [] 28 28 1

/-- Take up to `k` new requests (R433). -/
def takeReqs : Nat → Dev → Dev
  | 0, d => d
  | k + 1, d =>
    let r := d.locRd (svcLoc d) (svcCmd d + 64 + 64 * d.svc.cmdIdx) 64
    if svcFull d || (r.getD 1 0#8).getLsbD 0 != d.svc.cmdPh then d
    else
      let i := (d.svc.cmdIdx + 1) % 2 ^ svcCmdLog d
      takeReqs k { d with svc := { d.svc with
        cmdIdx := i, cmdPh := if i = 0 then !d.svc.cmdPh else d.svc.cmdPh, fetched := d.svc.fetched + 1
        taken := d.svc.taken ++ [r] } }

end Sys2Proof.Machine
end

