-- ==== Sys2Proof/Machine/Faults.lean ====
section
/-! DEFINITION. Errors, tile re-runs, the takeover by the understudy, rotation and self-test (R80, R85, R398-R410,
R416). -/

namespace Sys2Proof.Machine

/-! ## Re-run of a tile (R85) -/

/-- A transfer that starts over: nothing of it has been sent or has come back. -/
def Xfer.unstarted (x : Xfer) : Xfer :=
  { x with started := false, remote := false, sent := [], got := [], accepted := false, mdev := none, wrote := false }

/-- A recorded descriptor issued again: it sets no flag. -/
def CkDesc.again (x : CkDesc) : CkDesc :=
  ⟨x.walker, { x.xfer.unstarted with flag := none, reissue := true, empty := false, base := 0 }⟩

/-- The transfers of a walker among recorded descriptors, in their order. -/
def forWalker (l : List CkDesc) (w : Nat) : List Xfer := (l.filter (fun x => x.walker == w)).map (·.xfer)

/-- Steps 1-3 of R85: the checkpoint is restored; class R descriptors are issued again where the Satchel is lost, else
those of earlier tiles, or of a reload, still under way go on; class N descriptors are issued again; the write transfers
`wr` go on. Class T reads, and class N reads issued before the tile that the list records, are dropped and set no flag (DESIGN
CHOICE, log 34). -/
def CoreSt.restore (c : CoreSt) (lost : Bool) (wr : List Xfer) : CoreSt :=
  let k := c.ckpt
  let re := (if lost then k.resident else []).map CkDesc.again ++ k.next.map CkDesc.again
  let keep (l : List Xfer) : List Xfer :=
    if lost then [] else l.filter (fun x => x.cls == 2 && (x.reissue || decide (x.tile < k.tiles)))
  { c with
    mode := .rerun, reloading := true, ended := false, delay := none, pc := k.pc, sregs := k.sregs, mregs := k.mregs
    tally := k.tally, flags := k.flags, padv := k.padv, azp := k.azp, tiles := k.tiles, tagctr := k.tagctr
    nfUnion := c.nfUnion ||| c.nflags, nflags := k.nflags, vregs := [], div0 := none, div1 := none, atomics := []
    nAtomics := 0, resident := k.resident, nextDescs := [], pend := [], bankRetry := false
    arrA := c.arrA.zeroTile.still, arrB := c.arrB.zeroTile.still
    wk0 := keep c.wk0 ++ forWalker re 0, wk1 := keep c.wk1 ++ forWalker re 1, wk2 := wr
    barDone := max c.barDone c.barIdx, barIdx := 0 }

/-- A tile replay after a transient error (R85, R398): a core that runs no task has nothing to run again. -/
def Dev.replay (d : Dev) (p : Fin 7) (lost : Bool) : Dev :=
  let c := d.core p
  if c.active && c.abort.isNone then
    let wr := c.wk2.filter (fun x => x.released && decide (x.tile < c.ckpt.tiles))
    ({ d with rampReq := d.rampReq.filter (fun r => r.2.1 != p.val) } : Dev).setCore p { c.restore lost wr with replayed := true }
  else d

/-- Every transfer issued again has completed (R85 step 4). -/
def CoreSt.reloaded (c : CoreSt) : Bool := !(c.wk0 ++ c.wk1).any (·.reissue)

/-- Steps 5 and 6 of R85: the checkpointed flags, with those of the class N descriptors; the tile's watchdog starts
again. -/
def CoreSt.resume (c : CoreSt) : CoreSt :=
  let fl := c.ckpt.next.foldl (fun f x => match x.xfer.flag with | some i => f ||| (1#64 <<< i) | none => f) c.ckpt.flags
  { c with flags := fl, reloading := false, tileCyc := 0 }

/-- TILE_RERUN_RESUME (R85 steps 4-6). -/
def Dev.rerunResume (d : Dev) (p : Fin 7) : Dev :=
  let c := d.core p
  let mine := match d.flt.takeover with | some t => t.good == p.val | none => false
  if decide (c.mode = .rerun) && c.reloading && c.reloaded && !mine then d.setCore p c.resume else d

/-! ## Lost cores (R408) -/

/-- Every other task waiting in a barrier whose participants include logical core `k` ends with CORE_LOST; `entry` is the
task the core runs. -/
def Dev.loseBarriers (d : Dev) (k : Nat) (entry : Option Nat) : Dev :=
  (d.bar.arr.filter (fun a => !a.released && (if a.level = 0 then some a.entry == entry else bit d.barMask k))).foldl
    (fun d a => match finSlot a.slot with | some q => if (d.core q).busy then d.endTask q stCoreLost else d | none => d) d

/-- The takeover that slot `p` serves as the understudy of. -/
def Dev.serves (d : Dev) (p : Fin 7) : Option Takeover := d.flt.takeover.bind (fun t => if t.good = p.val then some t else none)

/-- A slot goes out of service with the writes held for it: what belongs to the physical slot stays, its clock and its arrays'
power among it. -/
def CoreSt.outOfService (c : CoreSt) (p : Fin 7) (held : List HeldWrite) : CoreSt :=
  { c.slotPart with mode := .fusedOff, jobId := c.jobId, entry := c.entry, keySlot := p.val, held := held }

/-- No understudy: the slot's logical core is lost. Its task ends, so the writes held for it take effect (R151); an aborting
code detected earlier stands before CORE_LOST (R420). CORE_STATE then reads STATE 5 with the LOGICAL of the map, which
still names the slot: the spec gives no STATE for a lost core (DESIGN CHOICE, log 87). -/
def Dev.loseCore (d : Dev) (p : Fin 7) : Dev :=
  let c := d.core p
  let k := d.logicalOf p.val
  let d := d.loseBarriers k (if c.busy then some c.entry else none)
  let d := (d.setCore p (c.outOfService p c.held)).heldApply p
  let d : Dev := { d with
    flt := { d.flt with takeover := if (d.serves p).isSome then none else d.flt.takeover
                        lost := if d.flt.lost.contains k then d.flt.lost else d.flt.lost ++ [k] }
    rampReq := d.rampReq.filter (fun r => r.2.1 != p.val)
    bar := { d.bar with arr := d.bar.arr.filter (fun a => a.slot != p.val) } }
  let d := d.log stCoreLost 0 p.val 0 c.entry
  if c.busy then d.instanceEnd c.entry k (c.abort.getD (if c.carryBad then stPoisoned else stCoreLost)) (c.nflags ||| c.nfUnion)
  else d

/-! ## Takeover (R403-R407) -/

/-- Complete the SLOT tests that `mine` picks with a status (R413). -/
def Dev.slotTestsEnd (d : Dev) (mine : TestReq → Bool) (st : Byte) : Dev :=
  let l := d.flt.tests.filter (fun t => t.kind == 1 && mine t)
  let d : Dev := { d with flt := { d.flt with tests := d.flt.tests.filter (fun t => !(t.kind == 1 && mine t)) } }
  l.foldl (fun d t => d.reply 0x11 t.tag st []) d

/-- There is no understudy any more: no slot can be tested, so every SLOT test that waits or runs completes with BUSY
(R413; the status of a test that is stopped is a DESIGN CHOICE, log 57). -/
def Dev.noUnderstudy (d : Dev) : Dev := d.slotTestsEnd (fun _ => true) stBusy

/-- A slot other than a mapped one goes out of service; it is no understudy any more (R42, R410), and a test of it has
failed. -/
def Dev.loseSpare (d : Dev) (p : Fin 7) : Dev :=
  let d := d.modCore p (fun c => { c with mode := .fusedOff })
  if d.spare = p.val then
    let d : Dev := { d with flt := { d.flt with rotOff := true } }
    ((d.setFld .sysCoreMap [] 20 18 7).slotTestsEnd (fun t => t.arg == p.val) stCoreLost).noUnderstudy
  else d

/-- A permanent fault of slot `p` (R403 step 1, R408): the slot is frozen and the understudy called on, its self-test
stopped; with none, or one already taking over, the core is lost. A slot lost while it takes over leaves none for the failed one. An atomic still on its way to Commons is discarded
unperformed (R258). `words`: the Satchel word that failed its check, kept
for the repair-port read of R404; a slot that is being taken over only adds to them. -/
def Dev.permanent (d : Dev) (p : Fin 7) (words : List Nat) : Dev :=
  let k := d.logicalOf p.val
  let own : Option Takeover := d.flt.takeover.bind (fun t => if t.bad = p.val then some t else none)
  if (d.core p).mode = .fusedOff then d
  else if let some t := own then { d with flt := { d.flt with takeover := some { t with words := t.words ++ words } } }
  else if 6 ≤ k then
    match (d.serves p).bind (fun t => finSlot t.bad) with
    | some b => ({ d with flt := { d.flt with takeover := none } } : Dev).loseSpare p |>.loseCore b
    | none => d.loseSpare p
  else if d.spare = 7 ∨ d.flt.takeover.isSome then d.loseCore p
  else
    let d := d.modCore p (fun c => { c with frozen := true, atomics := c.atomics.filter (fun a => a.result.isSome) })
    let d := d.modSlot d.spare (fun c => if c.mode = .selfTest then { c with mode := .standby } else c)
    ({ d with flt := { d.flt with
        takeover := some { bad := p.val, good := d.spare, lc := k, ts := d.tb, words := words } } } : Dev).noUnderstudy

/-- Memory with a range set to what an unlisted byte reads as. -/
def Memory.clear (m : Memory) (lo hi : Nat) : Memory :=
  { cells := m.cells.filter (fun e => !decide (lo ≤ e.1 ∧ e.1 < hi))
    undef := m.undef.flatMap (fun u =>
      (if u.1 < min u.2.1 lo then [(u.1, min u.2.1 lo, u.2.2)] else []) ++
      (if max u.1 hi < u.2.1 then [(max u.1 hi, u.2.1, u.2.2)] else [])) }

/-- Copy the instruction-memory mirror of logical core `k` into slot `p` (R401, R403 step 2, R409). -/
def Dev.copyImem (d : Dev) (k p : Nat) : Dev :=
  let src := d.imMirror.filter (fun e => decide (k * imemSize ≤ e.1 ∧ e.1 < (k + 1) * imemSize))
  let m := src.foldl (fun m e => m.wr (imBase p + (e.1 - k * imemSize)) e.2) (d.mem.clear (imBase p) (imBase p + imemSize))
  { d with mem := m }

/-- Copy the CORE-range image of logical core `k` into slot `p`'s registers. -/
def Dev.copyImage (d : Dev) (k p : Nat) : Dev :=
  let lo := 0x1000000 + p * 0x100000 + 0x4000
  let src := d.coreImg.filter (fun e => decide (k * 1024 ≤ e.1 ∧ e.1 < (k + 1) * 1024))
  let d : Dev := { d with regs := d.regs.filter (fun e => !decide (lo ≤ e.1 ∧ e.1 < lo + 0x1000)) }
  src.foldl (fun d e => match regAt (lo + 4 * (e.1 - k * 1024)) with | some (r, i) => d.setRg r i e.2 | none => d) d

/-- Rewrite the weight chain (R207, R407): the member before `old` names `new`, which takes over NEXT, EN and window. -/
def Dev.rechain (d : Dev) (old new : Nat) : Dev :=
  let d := (upto 7).foldl (fun d q =>
    if d.fld .coreWchCtl [q] 2 0 = old ∧ q ≠ old then d.setFld .coreWchCtl [q] 2 0 new else d) d
  (d.setRg .coreWchCtl [new] (d.rg .coreWchCtl [old])).setRg .coreWchWin [new] (d.rg .coreWchWin [old])

/-- The core map after logical core `k` moves to slot `new` (R41): SPARE, SEQ. -/
def Dev.remap (d : Dev) (k new spare : Nat) : Dev :=
  let m := (d.rg .sysCoreMap []).toNat
  d.setRg .sysCoreMap [] (BitVec.ofNat 32
    (setBits (setBits (setBits m (3 * k + 2) (3 * k) new) 20 18 spare) 31 28 (bits m 31 28 + 1)))

/-- The Satchel bytes a write transfer reads: its rows. -/
def nearRows (t : Xfer) : List (Nat × Nat) :=
  let x := parseDsc t.words
  x.rows.map (fun i => ((rowOf x none 0 (x.origin 0) i).near, (x.tl 0 * x.nf.bits + 7) / 8))

/-- Whether a write transfer reads a 32-bit Satchel word that failed its check (R404). -/
def readsWord (words : List Nat) (t : Xfer) : Bool :=
  (nearRows t).any (fun r => words.any (fun a => decide (a / 4 * 4 < r.1 + r.2) && decide (r.1 < a / 4 * 4 + 4)))

/-- Parts 1 and 2 of R404: the source bytes of a pending write move from the failed slot to the understudy. -/
def Dev.carry (d : Dev) (bad good : Nat) (t : Xfer) : Dev :=
  (nearRows t).foldl (fun d r => d.satWr good r.1 (d.satRd bad r.1 r.2)) d

/-- The writes held for slot `a`, as writes of slot `b`'s registers. -/
def heldMove (a b : Nat) (l : List HeldWrite) : List HeldWrite := l.map (fun h => (h.1 + b * 0x100000 - a * 0x100000, h.2))

/-- Held writes of a slot's spare maps, which belong to the physical slot (R149). -/
def HeldWrite.mapWrite (h : HeldWrite) : Bool :=
  match regAt h.1 with
  | some (r, _) => (spfuseAt r).isSome
  | none => false

/-- TAKEOVER_REMAP (R403 steps 2-4, R404, R406, R407). The task's own counters and the register writes held for it move
to the understudy with it (DESIGN CHOICE, log 88; so the image receives them in order, R401); spare-map writes stay with the
failed slot and take effect as it leaves its task (R149, R151). -/
def Dev.takeoverRemap (d : Dev) : Dev :=
  match d.flt.takeover with
  | none => d
  | some t =>
    match finSlot t.bad, finSlot t.good with
    | some b, some g =>
      if t.remapped then d
      else
        let d := (d.heldApply g).heldApply b
        let c := d.core b
        let u := d.core g
        let moved := heldMove t.bad t.good (c.held.filter (fun h => !h.mapWrite))
        let d := (((d.copyImem t.lc t.good).copyImage t.lc t.good).remap t.lc t.good 7).rechain t.bad t.good
        let d := d.setRg .coreHaloCtl [t.good] (d.rg .coreHaloCtl [t.bad])
        let d := taskCounters.foldl (fun d r => d.setRg r [t.good] (d.rg r [t.bad])) d
        let pend := c.wk2.filter (fun x => x.released && decide (x.tile < c.ckpt.tiles))
        let wr := pend.map Xfer.unstarted
        let d := pend.foldl (fun d x => d.carry t.bad t.good x) (d.undefine (satBase t.good) (satBase t.good + satchelSize))
        let d : Dev := { d with
          rampReq := d.rampReq.filter (fun r => r.2.1 != t.bad)
          com := { d.com with recs := (d.com.recs.filter (fun r => r.1 != t.good)).map (fun r => if r.1 = t.bad then (t.good, r.2) else r) }
          bar := { d.bar with arr := d.bar.arr.map (fun a => if a.slot = t.bad then { a with slot := t.good } else a) }
          flt := { d.flt with rotOff := true, takeover := if c.busy then some { t with remapped := true } else none } }
        let power (x : CoreSt) : CoreSt := { x with
          totCyc := u.totCyc, pos := u.pos, skip := u.skip, skipOther := u.skipOther, stretch := u.stretch, stopped := u.stopped
          droop := u.droop, frozen := false, taken := true, takenAt := some (t.bad, t.ts), jobs := u.jobs ++ [c.jobId]
          held := moved
          arrA := { x.arrA with pwr := u.arrA.pwr, step := u.arrA.step, idle := u.arrA.idle, waitsGrant := false }
          arrB := { x.arrB with pwr := u.arrB.pwr, step := u.arrB.step, idle := u.arrB.idle, waitsGrant := false } }
        let new : CoreSt :=
          if c.busy then
            if c.abort.isSome then power { c with wk0 := [], wk1 := [], wk2 := wr, atomics := [], arrA := c.arrA.still, arrB := c.arrB.still }
            else power { c.restore true wr with carryBad := c.carryBad || pend.any (readsWord t.words) }
          else { u with mode := .idle, jobId := c.jobId, entry := c.entry, keySlot := t.good, frozen := false
                        held := moved }
        let d := ((d.setCore g new).setCore b (c.outOfService b (c.held.filter HeldWrite.mapWrite))).heldApply b
        if c.busy then d else d.logTs t.ts stCoreTakenOver 0 t.bad 0 0
    | _, _ => d

/-- TAKEOVER_RELOAD_DONE (R403 steps 4 and 5, R404 part 4, R405): every transfer issued again and every pending write has
completed; the tile runs again and the watchdogs count again. The takeover is reported at the re-run's TILE or END (step
6), or here where the task was aborting and nothing runs again. -/
def Dev.reloadDone (d : Dev) : Dev :=
  match d.flt.takeover with
  | none => d
  | some t =>
    match finSlot t.good with
    | none => d
    | some g =>
      let c := d.core g
      if t.remapped && c.reloaded && c.wk2.isEmpty then
        let d := if c.abort.isSome then d.reportTaken g else d.setCore g c.resume
        { d with flt := { d.flt with takeover := none } }
      else d

/-! ## Detection (R398-R400, R416) -/

/-- The backed range a Commons address lies in: the stack address of its 256-byte granule's copy. -/
def backedBy (d : Dev) (addr : Nat) : Option Nat :=
  let o := addr - commonsBase
  (d.flt.backing.find? (fun b => decide (b.1 ≤ o ∧ o < b.1 + b.2.1))).map (fun b => b.2.2 + (o / 256 * 256 - b.1))

/-- A Commons word fails its check (R398): reloaded from its copy, or poisoned where the fault is permanent. -/
def Dev.commonsError (d : Dev) (addr : Nat) (perm : Bool) : Dev :=
  if addr < commonsBase ∨ commonsBase + commonsSize ≤ addr then d
  else
    match backedBy d addr with
    | some src => (d.store (addr / 256 * 256) (d.load src 256)).log stParityReplayed 1 (addr / 256 % 4) addr 0
    | none =>
      if perm then { d with poison := if d.poisoned addr then d.poison else poisonUnit addr :: d.poison } else d

/-- An instruction-memory word is rewritten from the mirror (R398, R401). -/
def Dev.imemError (d : Dev) (p : Fin 7) (addr : Nat) : Dev :=
  let k := d.logicalOf p.val
  let a := addr % imemSize / 4 * 4
  let d := if k < 6 then
      { d with mem := d.mem.wrN (imBase p.val + a) (rdCells 0#8 d.imMirror (k * imemSize + a) 4) } else d
  let d := d.modCore p (fun c => if c.busy then { c with parity := true } else c)
  d.log stParityReplayed 0 p.val addr (d.core p).entry

/-- A re-run with its event record (R398). -/
def Dev.replayLogged (d : Dev) (p : Fin 7) (lost : Bool) (addr : Nat) : Dev :=
  if (d.core p).active && !(d.core p).frozen then (d.replay p lost).log stTileReplayed 0 p.val addr (d.core p).entry else d

/-- A PLL loses lock (R400): until its spare has taken over, the core slots deliver no pulse; the Commons PLL stops Commons
and the network: no arbiter grants, no atomic is performed or returns, no walker transfer starts or completes (log 89). -/
def Dev.pllLoss (d : Dev) (commons : Bool) : Dev :=
  let d : Dev := if commons then { d with pwr := { d.pwr with commonsOff := true } }
    else { d with cores := d.cores.map (fun c => { c with stopped := true }), pwr := { d.pwr with pllOff := true } }
  d.log stClockSwitched (if commons then 1 else 0) 0 0 0

/-- The core PLL delivers pulses again: every slot starts a new frame (R371, R372). -/
def Dev.restart (d : Dev) : Dev :=
  let d : Dev := { d with cores := d.cores.map (fun c => { c with stopped := false }) }
  ([0, 1, 2, 3, 4, 5, 6] : List (Fin 7)).foldl Dev.boundary d

/-- A relock is under way (R376). -/
def PwrSt.relocking (w : PwrSt) : Bool := w.step.any (fun s => s.phase == 3)

/-- The core PLL delivers pulses unless it is being replaced or relocks. -/
def Dev.pulsesBack (d : Dev) : Dev := if d.pwr.pllOff || d.pwr.relocking then d else d.restart

/-- PLL_SWITCH_COMPLETE (R371, R400): the slots start a new frame at position 0, unless a relock still runs. -/
def Dev.pllDone (d : Dev) (commons : Bool) : Dev :=
  if commons then { d with pwr := { d.pwr with commonsOff := false } }
  else ({ d with pwr := { d.pwr with pllOff := false } } : Dev).pulsesBack

/-! ## Rotation and self-test (R409, R410) -/

/-- ROTATION_DUE (R409). -/
def Dev.rotationDue (d : Dev) : Dev :=
  if d.rotates then { d with flt := { d.flt with rotDue := true } } else d

/-- A logical core moves to the standby understudy, the writes held for both slots having taken effect (R151, R401); its old
slot enters self-test and SPARE names it. -/
def Dev.rotate (d : Dev) (k : Nat) : Dev :=
  match finSlot (d.slotOf k), finSlot d.spare with
  | some o, some n =>
    if (d.core o).mode = .idle ∧ (d.core n).mode = .standby ∧ !(d.core o).frozen then
      let jc := d.core o
      let d := (d.heldApply o).heldApply n
      let d := (((d.copyImem k n.val).copyImage k n.val).remap k n.val o.val).rechain o.val n.val
      let d := d.setRg .coreHaloCtl [n.val] (d.rg .coreHaloCtl [o.val])
      let d := (d.modCore n (fun c => { c with mode := .idle, jobId := jc.jobId, entry := jc.entry })).modCore o
        (fun c => { c with mode := .selfTest })
      d.undefine (satBase n.val) (satBase n.val + satchelSize)
    else d
  | _, _ => d

/-- ROTATION_STEP (R409): the step that is due, on a core on which a task has completed since. A SLOT test that still waits
makes the next step due at once (R413). -/
def Dev.rotationStep (d : Dev) : Dev :=
  let k := d.rotCore
  if d.flt.rotReady = some k ∧ d.rotRuns k then
    let d' := d.rotate k
    if d'.slotOf k = d.slotOf k then d
    else { d' with flt := { d'.flt with rotDue := d'.testCore.isSome, rotReady := none, rotNext := (k + 1) % 6 } }
  else d

/-- ROTATION_SKIP (R409): no task on the core completed within 1 s; the step passes on and the skip is logged. -/
def Dev.rotationSkip (d : Dev) : Dev :=
  let k := d.rotCore
  if d.flt.rotDue && d.flt.rotReady != some k then
    let d : Dev := { d with flt := { d.flt with
      rotNext := (k + 1) % 6
      rotReady := none
      tests := d.flt.tests.map (fun t => if t.kind == 1 && d.logicalOf t.arg == k then { t with passed := true } else t) } }
    d.log stOk 5 k 0 0
  else d

/-- Complete the SLOT tests of a slot (R413). -/
def Dev.slotTestDone (d : Dev) (p : Nat) (st : Byte) : Dev := d.slotTestsEnd (fun t => t.arg == p) st

/-- SELF_TEST_COMPLETE (R406, R410): a slot that passes becomes the understudy again; a repaired one is tested again; one
that fails goes out of service for good and rotation stops (R42). Fused map entries stay as they are (R150). -/
def Dev.selfTestDone (d : Dev) (p : Fin 7) (r : TestResult) : Dev :=
  let c := d.core p
  if (c.mode = .selfTest ∨ c.mode = .fusedOff) ∧ 6 ≤ d.logicalOf p.val ∧ d.fuses.badSlot ≠ some p ∧
      !d.flt.scrapped.contains p.val then
    match r with
    | .pass =>
      let d := (d.setCore p { c with mode := .standby, frozen := false }).setFld .sysCoreMap [] 20 18 p.val
      let d : Dev := { d with flt := { d.flt with rotOff := false } }
      d.slotTestDone p.val stOk
    | .repaired ra ca rb cb =>
      let i := [p.val]
      let put (d : Dev) (r : Reg) (v : W32) : Dev := d.setRg r i (d.fusedKeep r i v)
      put (put (put (put d .coreArrRowmapA ra) .coreArrColmapA ca) .coreArrRowmapB rb) .coreArrColmapB cb
    | .failed =>
      let d := (d.setCore p { c with mode := .fusedOff }).setFld .sysCoreMap [] 20 18 7
      let d : Dev := { d with flt := { d.flt with rotOff := true, scrapped := p.val :: d.flt.scrapped } }
      (d.slotTestDone p.val stCoreLost).noUnderstudy
  else d

/-! ## Meanings -/

/-- TILE_RERUN_RESUME (R85). -/
def execTileRerunResume (p : Fin 7) (s : State) : Host.Outcome State Fault Refusal := onDev s (s.dev.rerunResume p)
/-- TAKEOVER_REMAP (R403). -/
def execTakeoverRemap (s : State) : Host.Outcome State Fault Refusal := onDev s s.dev.takeoverRemap
/-- TAKEOVER_RELOAD_DONE (R403). -/
def execTakeoverReloadDone (s : State) : Host.Outcome State Fault Refusal := onDev s s.dev.reloadDone
/-- PLL_LOCK_LOSS (R400). -/
def execPllLockLoss (commons : Bool) (s : State) : Host.Outcome State Fault Refusal := onDev s (s.dev.pllLoss commons)
/-- PLL_SWITCH_COMPLETE (R400). -/
def execPllSwitchComplete (commons : Bool) (s : State) : Host.Outcome State Fault Refusal := onDev s (s.dev.pllDone commons)
/-- ROTATION_DUE (R409). -/
def execRotationDue (s : State) : Host.Outcome State Fault Refusal := onDev s s.dev.rotationDue
/-- ROTATION_STEP (R409). -/
def execRotationStep (s : State) : Host.Outcome State Fault Refusal := onDev s s.dev.rotationStep
/-- ROTATION_SKIP (R409). -/
def execRotationSkip (s : State) : Host.Outcome State Fault Refusal := onDev s s.dev.rotationSkip
/-- SELF_TEST_COMPLETE (R410). -/
def execSelfTestComplete (p : Fin 7) (r : TestResult) (s : State) : Host.Outcome State Fault Refusal :=
  onDev s (s.dev.selfTestDone p r)

end Sys2Proof.Machine
end

