-- ==== Sys2Proof/Machine/Media.lean ====
section
/-! DEFINITION. What capture, the ISP and the codecs share: open streams, pool buffers, image planes, frame records
(R269-R271, R276, R436). -/

namespace Sys2Proof.Machine

/-! ## Streams -/

/-- The entry at a key of a keyed list. -/
def keyed {V : Type} (l : List (Nat × V)) (k : Nat) : Option V := (l.find? (fun e => e.1 == k)).map (·.2)

/-- Replace or add the entry at a key. -/
def setKeyed {V : Type} (l : List (Nat × V)) (k : Nat) (v : V) : List (Nat × V) :=
  if l.any (fun e => e.1 == k) then l.map (fun e => if e.1 = k then (k, v) else e) else l ++ [(k, v)]

/-- Remove the entry at a key. -/
def dropKeyed {V : Type} (l : List (Nat × V)) (k : Nat) : List (Nat × V) := l.filter (fun e => e.1 != k)

def Dev.stream (d : Dev) (s : Nat) : Option StreamSt := keyed d.med.streams s
def Dev.setStream (d : Dev) (s : Nat) (x : StreamSt) : Dev :=
  { d with med := { d.med with streams := setKeyed d.med.streams s x } }
def Dev.modStream (d : Dev) (s : Nat) (f : StreamSt → StreamSt) : Dev :=
  match d.stream s with
  | some x => d.setStream s (f x)
  | none => d
def Dev.enc (d : Dev) (e : Nat) : Option EncSt := keyed d.med.encs e
def Dev.setEnc (d : Dev) (e : Nat) (x : EncSt) : Dev := { d with med := { d.med with encs := setKeyed d.med.encs e x } }

/-- Easel's samples that still hold frame buffers (R436): reserved or converting slots, and carried samples. -/
def AsmSt.held (a : AsmSt) : List ESample :=
  (a.batches.flatMap (fun b => b.slots.filterMap (fun x =>
    if x.st = .reserved ∨ x.st = .converting then x.smp.filter (!·.gone) else none))) ++ a.carried

/-- Easel holds a sample of pool buffer `b` of stream `s`. -/
def Dev.easelHolds (d : Dev) (s b : Nat) : Bool :=
  d.med.easel.asms.toList.any (fun a => a.held.any (fun x => x.stream == s && x.buf == b))

/-- A pool buffer has returned to the pool (R436). -/
def Dev.bufBack (d : Dev) (s : Nat) (x : StreamSt) (b : BufSt) : Bool :=
  !b.busy && !b.isRef && !d.easelHolds s b.ix &&
    (match b.recNo with | some n => decide (n < d.loadNat (x.recRing + 8) 8) | none => true)

/-- The buffers still in use. -/
def Dev.bufsInUse (d : Dev) (s : Nat) (x : StreamSt) : List BufSt := x.bufs.filter (fun b => !d.bufBack s x b)

/-- The first free buffer of a stream's pool (R276). -/
def Dev.freeBuf (d : Dev) (s : Nat) (x : StreamSt) : Option Nat :=
  (upto x.nbuf).find? (fun i => !(d.bufsInUse s x).any (fun b => b.ix == i))

/-- Take buffer `i`. -/
def Dev.takeBuf (d : Dev) (s : Nat) (x : StreamSt) (i : Nat) : StreamSt :=
  { x with bufs := d.bufsInUse s x ++ [{ ix := i }] }

def StreamSt.modBuf (x : StreamSt) (i : Nat) (f : BufSt → BufSt) : StreamSt :=
  { x with bufs := x.bufs.map (fun b => if b.ix = i then f b else b) }

/-- The address of pool buffer `i`. -/
def StreamSt.bufAt (x : StreamSt) (i : Nat) : Nat := x.pool + i * x.bufBytes

/-! ## Image planes (R270) -/

/-- Bytes per row and rows of each plane of a format. -/
def planesOf (fmt w h : Nat) : List (Nat × Nat) :=
  match fmt with
  | 0 => [(w, h), (2 * ceilDiv w 2, ceilDiv h 2)]
  | 1 => [(2 * w, h), (4 * ceilDiv w 2, ceilDiv h 2)]
  | 2 => [(w, h), (2 * ceilDiv w 2, h)]
  | 3 => [(w, h), (w, h), (w, h)]
  | 5 => [(3 * w, h)]
  | _ => [(w, h)]

/-- PITCH: the longest row, rounded up to 128 bytes. -/
def pitchOf (fmt w h : Nat) : Nat := ceilDiv ((planesOf fmt w h).foldl (fun m p => max m p.1) 0) 128 * 128

/-- Bytes of a buffer that holds the picture: plane k starts at PITCH x HEIGHT x k. -/
def imageBytes (fmt w h : Nat) : Nat :=
  let ps := planesOf fmt w h
  ((ps.zip (upto ps.length)).map (fun e => pitchOf fmt w h * h * e.2 + pitchOf fmt w h * e.1.2)).foldl max 0

/-- Bytes of an image's rows. -/
def rowBytes (fmt w h : Nat) : Nat := ((planesOf fmt w h).map (fun p => p.1 * p.2)).foldl (· + ·) 0

/-- Write bytes, but none outside the buffer (R271). -/
def Dev.putIn (d : Dev) (lo hi a : Nat) (bs : List Byte) : Dev :=
  if a < lo ∨ hi ≤ a then d else d.store a (bs.take (hi - a))

/-- Write the rows of one plane. -/
def putRows : Nat → Dev → Nat → Nat → Nat → Nat → Nat → List Byte → Dev
  | 0, d, _, _, _, _, _, _ => d
  | n + 1, d, lo, hi, a, pitch, row, bs =>
    putRows n (d.putIn lo hi a (bs.take row)) lo hi (a + pitch) pitch row (bs.drop row)

/-- Write an image whose planes' rows lie one after another in `bs` to a buffer of `len` bytes. -/
def Dev.putImage (d : Dev) (buf len fmt w h : Nat) (bs : List Byte) : Dev :=
  let p := pitchOf fmt w h
  let ps := planesOf fmt w h
  ((ps.zip (upto ps.length)).foldl (fun (st : Dev × List Byte) e =>
    (putRows e.1.2 st.1 buf (buf + len) (buf + p * h * e.2) p e.1.1 st.2, st.2.drop (e.1.1 * e.1.2))) (d, bs)).1

/-! ## Frame records (R270) -/

/-- The fields of a frame record. -/
structure FrameRec where
  ts : Nat
  stream : Nat
  flags : BitVec 8 := 0#8
  status : Byte := 0#8
  fmt : Nat
  w : Nat
  h : Nat
  no : Nat
  ns : Nat := 0
  buf : Nat
  pts : Nat := 0
  stats : Nat := 0
deriving DecidableEq, Repr

/-- The 64 bytes of a frame record. -/
def FrameRec.bytes (r : FrameRec) : List Byte :=
  leBytes 8 r.ts ++ [BitVec.ofNat 8 r.stream, r.flags, r.status, BitVec.ofNat 8 r.fmt] ++ leBytes 2 r.w ++ leBytes 2 r.h ++
    leBytes 2 (pitchOf r.fmt r.w r.h) ++ leBytes 2 r.no ++ leBytes 4 r.ns ++ leBytes 8 r.buf ++ leBytes 8 r.pts ++
    leBytes 8 r.stats ++ List.replicate 16 0#8

/-- Write a record and then advance the stream's record count (R270, R436); the recorder's FRAME record (R421). -/
def Dev.putRecord (d : Dev) (s : Nat) (x : StreamSt) (bs : List Byte) : Dev :=
  let d := d.store (x.recRing + 64 + 64 * (x.recCount % 2 ^ x.recLog)) bs
  let d := d.store x.recRing (leBytes 8 (x.recCount + 1))
  (d.setStream s { x with recCount := x.recCount + 1 }).record 3 bs

/-- A refusal (R284, R288): only its record is written. The spec gives its stamp, stream, status, PTS and BUF 0, and that
PITCH is a multiple of 128; the picture fields have no other stated content (log 44). -/
def Dev.refusal (d : Dev) (s : Nat) (st : Byte) (ts pts : Nat) : Dev :=
  match d.stream s with
  | none => d
  | some x =>
    let op (i : Nat) : Byte := Config.openByte d.free i
    let bs := leBytes 8 ts ++ [BitVec.ofNat 8 s, 0#8, st, BitVec.ofNat 8 ((op 11).toNat % 7)] ++ (upto 6).map (fun i => if i = 4 then op 16 &&& 0x80#8 else op (12 + i)) ++
      leBytes 2 x.fids ++ (upto 4).map (fun i => op (20 + i)) ++ leBytes 8 0 ++ leBytes 8 pts ++ leBytes 8 0 ++
      List.replicate 16 0#8
    d.nextFree.putRecord s x bs

/-! ## Work (R294) -/

/-- The length of an interval of LOAD in ns; the intervals run from reset (log 9). -/
def loadSpan : Nat := 100000000

/-- Unit `u` works now: it has worked through since the interval it was last seen in where that is this one or the one
before, or where it was `under` way meanwhile. -/
def Dev.worked (d : Dev) (u : Nat) (under : Bool) : Dev :=
  let k := d.now / loadSpan
  let first := match keyed d.med.busy u with
    | some (f, t) => if under || decide (k ≤ t + 1) then f else k
    | none => k
  { d with med := { d.med with busy := setKeyed d.med.busy u (first, k) } }

/-- A codec engine has a picture under way. -/
def Dev.engineBusy (d : Dev) (e : Nat) : Bool :=
  d.med.streams.any (fun x => x.2.engine == e && x.2.cur.isSome) || d.med.encs.any (fun x => x.2.engine == e && !x.2.jobs.isEmpty)

/-- A pipeline has a frame under way. -/
def Dev.pipeBusy (d : Dev) (i : Fin 2) : Bool :=
  d.med.pipes[i].queue.any (fun e => decide (0 < e.2.done)) ||
    d.med.streams.any (fun x => decide (x.1 < 16) && d.fld .capVcCfg [x.1] 28 28 == i.val && x.2.frame.any (fun f => decide (0 < f.done)))

/-- An engine works; a pipeline works. -/
def Dev.engineWorks (d : Dev) (e : Nat) : Dev := d.worked (2 + e) (d.engineBusy e)
def Dev.pipeWorks (d : Dev) (i : Fin 2) : Dev := d.worked i.val (d.pipeBusy i)

/-! ## Closing -/

/-- No frame of the stream is under way: the last record has been written. -/
def Dev.streamQuiet (d : Dev) (s : Nat) (x : StreamSt) : Bool :=
  x.frame.isNone && x.cur.isNone && x.pics.isEmpty && !d.med.pipes.toList.any (fun p => p.queue.any (fun e => e.1 == s))

/-- STREAMS of the engine's or pipeline's status register, kept in step with the open streams (R294). -/
def Dev.countStreams (d : Dev) : Dev :=
  let eng (e : Nat) : Nat :=
    (d.med.streams.filter (fun x => x.2.engine == e)).length + (d.med.encs.filter (fun x => x.2.engine == e)).length
  let d := (upto 7).foldl (fun d e => d.setFld .vidEngStat [e] 31 24 (eng e)) d
  let isp (i : Nat) : Nat := ((upto 16).filter (fun s =>
    d.flag .capVcCfg [s] 31 && !d.flag .capVcCfg [s] 27 && d.fld .capVcCfg [s] 28 28 == i)).length
  (upto 2).foldl (fun d i => d.setFld .ispPipeStat [i] 27 24 (isp i)) d

/-- Complete a STREAM_CLOSE whose last frame record has been written (R435). -/
def Dev.tryClose (d : Dev) (s : Nat) : Dev :=
  match d.stream s with
  | some x =>
    match x.closing with
    | some tag =>
      if d.streamQuiet s x then
        let d : Dev := { d with med := { d.med with streams := dropKeyed d.med.streams s } }
        d.countStreams.reply 0x02 tag stOk []
      else d
    | none => d
  | none => d

end Sys2Proof.Machine
end

