-- ==== Sys2Proof/Machine/Crypto.lean ====
section
/-! DEFINITION. SHA-256, HMAC, HKDF and ECDSA on P-256, as the standards R454 and R457 name define them (FIPS 180-4,
FIPS 198-1, RFC 5869, FIPS 186-5, RFC 6979); the constants are the standards' (PRESUMED, log 54). -/

namespace Sys2Proof.Machine

/-! ## SHA-256 -/

/-- Round constants. -/
def shaK : List W32 :=
  [0x428a2f98#32, 0x71374491#32, 0xb5c0fbcf#32, 0xe9b5dba5#32, 0x3956c25b#32, 0x59f111f1#32, 0x923f82a4#32, 0xab1c5ed5#32,
   0xd807aa98#32, 0x12835b01#32, 0x243185be#32, 0x550c7dc3#32, 0x72be5d74#32, 0x80deb1fe#32, 0x9bdc06a7#32, 0xc19bf174#32] ++
  [0xe49b69c1#32, 0xefbe4786#32, 0x0fc19dc6#32, 0x240ca1cc#32, 0x2de92c6f#32, 0x4a7484aa#32, 0x5cb0a9dc#32, 0x76f988da#32,
   0x983e5152#32, 0xa831c66d#32, 0xb00327c8#32, 0xbf597fc7#32, 0xc6e00bf3#32, 0xd5a79147#32, 0x06ca6351#32, 0x14292967#32] ++
  [0x27b70a85#32, 0x2e1b2138#32, 0x4d2c6dfc#32, 0x53380d13#32, 0x650a7354#32, 0x766a0abb#32, 0x81c2c92e#32, 0x92722c85#32,
   0xa2bfe8a1#32, 0xa81a664b#32, 0xc24b8b70#32, 0xc76c51a3#32, 0xd192e819#32, 0xd6990624#32, 0xf40e3585#32, 0x106aa070#32] ++
  [0x19a4c116#32, 0x1e376c08#32, 0x2748774c#32, 0x34b0bcb5#32, 0x391c0cb3#32, 0x4ed8aa4a#32, 0x5b9cca4f#32, 0x682e6ff3#32,
   0x748f82ee#32, 0x78a5636f#32, 0x84c87814#32, 0x8cc70208#32, 0x90befffa#32, 0xa4506ceb#32, 0xbef9a3f7#32, 0xc67178f2#32]

/-- The eight working words. -/
structure ShaSt where
  a : W32
  b : W32
  c : W32
  d : W32
  e : W32
  f : W32
  g : W32
  h : W32
deriving DecidableEq, Repr

def shaInit : ShaSt :=
  ⟨0x6a09e667#32, 0xbb67ae85#32, 0x3c6ef372#32, 0xa54ff53a#32, 0x510e527f#32, 0x9b05688c#32, 0x1f83d9ab#32, 0x5be0cd19#32⟩

def ror (x : W32) (n : Nat) : W32 := (x >>> n) ||| (x <<< (32 - n))

/-- One round with its constant and message word. -/
def shaRound (s : ShaSt) (kw : W32 × W32) : ShaSt :=
  let s1 := ror s.e 6 ^^^ ror s.e 11 ^^^ ror s.e 25
  let ch := (s.e &&& s.f) ^^^ (~~~s.e &&& s.g)
  let t1 := s.h + s1 + ch + kw.1 + kw.2
  let s0 := ror s.a 2 ^^^ ror s.a 13 ^^^ ror s.a 22
  let mj := (s.a &&& s.b) ^^^ (s.a &&& s.c) ^^^ (s.b &&& s.c)
  ⟨t1 + (s0 + mj), s.a, s.b, s.c, s.d + t1, s.e, s.f, s.g⟩

/-- Extend the message words by `n`; the newest is at the head. -/
def shaExtend : Nat → List W32 → List W32
  | 0, w => w
  | n + 1, w =>
    let x1 := w.getD 1 0#32
    let x14 := w.getD 14 0#32
    let s1 := ror x1 17 ^^^ ror x1 19 ^^^ (x1 >>> 10)
    let s0 := ror x14 7 ^^^ ror x14 18 ^^^ (x14 >>> 3)
    shaExtend n ((s1 + w.getD 6 0#32 + s0 + w.getD 15 0#32) :: w)

/-- A number from big-endian bytes, and back. -/
def beNat (bs : List Byte) : Nat := leNat bs.reverse
def beBytes (n x : Nat) : List Byte := (leBytes n x).reverse

/-- Compress one 64-byte block. -/
def shaBlock (s : ShaSt) (blk : List Byte) : ShaSt :=
  let w0 := (upto 16).map (fun i => BitVec.ofNat 32 (beNat ((blk.drop (4 * i)).take 4)))
  let w := (shaExtend 48 w0.reverse).reverse
  let r := (shaK.zip w).foldl shaRound s
  ⟨s.a + r.a, s.b + r.b, s.c + r.c, s.d + r.d, s.e + r.e, s.f + r.f, s.g + r.g, s.h + r.h⟩

/-- Compress `n` blocks. -/
def shaBlocks : Nat → ShaSt → List Byte → ShaSt
  | 0, s, _ => s
  | n + 1, s, bs => shaBlocks n (shaBlock s (bs.take 64)) (bs.drop 64)

/-- SHA-256 of a byte string. -/
def sha256 (m : List Byte) : List Byte :=
  let k := (119 - m.length % 64) % 64
  let p := m ++ [0x80#8] ++ List.replicate k 0#8 ++ beBytes 8 (8 * m.length)
  let s := shaBlocks (p.length / 64) shaInit p
  [s.a, s.b, s.c, s.d, s.e, s.f, s.g, s.h].flatMap (fun x => beBytes 4 x.toNat)

/-! ## HMAC and HKDF -/

/-- HMAC with SHA-256. -/
def hmac (key m : List Byte) : List Byte :=
  let k := if 64 < key.length then sha256 key else key
  let k := k ++ List.replicate (64 - k.length) 0#8
  sha256 (k.map (· ^^^ 0x5c#8) ++ sha256 (k.map (· ^^^ 0x36#8) ++ m))

/-- `n` output blocks of HKDF-Expand, from block number `i`. -/
def hkdfBlocks : Nat → Nat → List Byte → List Byte → List Byte → List Byte
  | 0, _, _, _, _ => []
  | n + 1, i, prk, info, t =>
    let t := hmac prk (t ++ info ++ [BitVec.ofNat 8 i])
    t ++ hkdfBlocks n (i + 1) prk info t

def hkdfExpand (prk info : List Byte) (len : Nat) : List Byte := (hkdfBlocks (ceilDiv len 32) 1 prk info []).take len

/-! ## P-256 -/

def pP : Nat := 0xFFFFFFFF00000001000000000000000000000000FFFFFFFFFFFFFFFFFFFFFFFF
def pN : Nat := 0xFFFFFFFF00000000FFFFFFFFFFFFFFFFBCE6FAADA7179E84F3B9CAC2FC632551
def pB : Nat := 0x5AC635D8AA3A93E7B3EBBD55769886BC651D06B0CC53B0F63BCE3C3E27D2604B
def pG : Nat × Nat :=
  (0x6B17D1F2E12C4247F8BCE6E563A440F277037D812DEB33A0F4A13945D898C296,
   0x4FE342E2FE1A7F9B8EE7EB4A7C0F9E162BCE33576B315ECECBB6406837BF51F5)

/-- b^e modulo m, for e below 2^fuel. -/
def powMod (m : Nat) : Nat → Nat → Nat → Nat
  | 0, _, _ => 1 % m
  | k + 1, b, e =>
    let h := powMod m k (b * b % m) (e / 2)
    if e % 2 = 1 then b * h % m else h

/-- The inverse modulo a prime of 256 bits. -/
def invMod (m x : Nat) : Nat := powMod m 256 (x % m) (m - 2)

def subMod (m a b : Nat) : Nat := (a % m + m - b % m) % m

/-- Point addition; none is the point at infinity. -/
def ptAdd : Option (Nat × Nat) → Option (Nat × Nat) → Option (Nat × Nat)
  | none, q => q
  | p, none => p
  | some (x1, y1), some (x2, y2) =>
    if x1 = x2 ∧ (y1 + y2) % pP = 0 then none
    else
      let l := if x1 = x2 then (3 * x1 * x1 + pP - 3) * invMod pP (2 * y1) % pP
        else subMod pP y2 y1 * invMod pP (subMod pP x2 x1) % pP
      let x3 := subMod pP (l * l) (x1 + x2)
      some (x3, subMod pP (l * subMod pP x1 x3) y1)

/-- k times a point, for k below 2^fuel. -/
def ptMul : Nat → Nat → Option (Nat × Nat) → Option (Nat × Nat)
  | 0, _, _ => none
  | n + 1, k, p =>
    let h := ptMul n (k / 2) (ptAdd p p)
    if k % 2 = 1 then ptAdd p h else h

/-- A key's coordinates: X then Y, big-endian (R457). -/
def keyOf (k : List Byte) : Nat × Nat := (beNat (k.take 32), beNat ((k.drop 32).take 32))

def onCurve (q : Nat × Nat) : Bool :=
  decide (q.1 < pP ∧ q.2 < pP) && q.2 * q.2 % pP == (q.1 * q.1 * q.1 + (pP - 3) * q.1 + pB) % pP

/-- Verify a signature over a digest (R457). -/
def ecdsaOk (key digest sig : List Byte) : Bool :=
  let q := keyOf key
  let r := beNat (sig.take 32)
  let s := beNat ((sig.drop 32).take 32)
  key.length == 64 && sig.length == 64 && onCurve q && decide (1 ≤ r ∧ r < pN ∧ 1 ≤ s ∧ s < pN) &&
    (let w := invMod pN s
     match ptAdd (ptMul 256 (beNat digest * w % pN) (some pG)) (ptMul 256 (r * w % pN) (some q)) with
     | some p => p.1 % pN == r
     | none => false)

/-- Find k as RFC 6979 derives it (steps g and h), with the first of `n` candidates in range that gives a signature. -/
def signTry : Nat → Nat → Nat → List Byte → List Byte → List Byte
  | 0, _, _, _, _ => List.replicate 64 0#8
  | n + 1, d, e, kk, v =>
    let v := hmac kk v
    let k := beNat v
    let r := match ptMul 256 k (some pG) with | some p => p.1 % pN | none => 0
    let s := invMod pN k * (e + r * d) % pN
    if 1 ≤ k ∧ k < pN ∧ r ≠ 0 ∧ s ≠ 0 then beBytes 32 r ++ beBytes 32 s
    else
      let kk := hmac kk (v ++ [0#8])
      signTry n d e kk (hmac kk v)

/-- Sign a digest with private key `d`, deterministically (RFC 6979); 64 candidates are tried. -/
def ecdsaSign (d : Nat) (digest : List Byte) : List Byte :=
  let e := beNat digest % pN
  let x := beBytes 32 d ++ beBytes 32 e
  let v := List.replicate 32 1#8
  let kk := hmac (List.replicate 32 0#8) (v ++ [0#8] ++ x)
  let v := hmac kk v
  let kk := hmac kk (v ++ [1#8] ++ x)
  signTry 64 d e kk (hmac kk v)

/-! ## Identity (R454) -/

/-- The text "H6 identity". -/
def idInfo : List Byte :=
  [0x48#8, 0x36#8, 0x20#8, 0x69#8, 0x64#8, 0x65#8, 0x6E#8, 0x74#8, 0x69#8, 0x74#8, 0x79#8]

/-- The identity private key. -/
def idKey (f : Fuses) : Nat :=
  beNat (hkdfExpand (hmac (List.replicate 32 0#8) f.uds) idInfo 48) % (pN - 1) + 1

/-- The identity public key, X then Y. -/
def idPub (f : Fuses) : List Byte :=
  match ptMul 256 (idKey f) (some pG) with
  | some p => beBytes 32 p.1 ++ beBytes 32 p.2
  | none => List.replicate 64 0#8

end Sys2Proof.Machine
end

