-- ==== Sys2Proof/Machine/Settings.lean ====
section
/-! DEFINITION. The settings store (R440-R444): header copies, image slots, the record log. -/

namespace Sys2Proof.Machine

/-! ## Header copies (R441) -/

def Dev.flashRd (d : Dev) (a n : Nat) : List Byte := rdCells 0xFF#8 d.flash a n
def Dev.flashWr (d : Dev) (a : Nat) (bs : List Byte) : Dev := { d with flash := wrCells 0xFF#8 d.flash a bs }

/-- Erase a range. -/
def Dev.flashErase (d : Dev) (lo hi : Nat) : Dev := { d with flash := d.flash.filter (fun e => !decide (lo ≤ e.1 ∧ e.1 < hi)) }

def slotSize : Nat := 0x900000
def areaSize : Nat := 0x40000

/-- A copy's magic and digest check. -/
def hdrValid (b : List Byte) : Bool := recNat b 0 4 == 0x48365353 && b.drop 32 == sha256 (b.take 32)

/-- The copy in force, with its place: the valid one with the higher GEN. -/
def Dev.curHdr (d : Dev) : Option (Nat × List Byte) :=
  let a := d.flashRd 0 64
  let b := d.flashRd 0x10000 64
  match hdrValid a, hdrValid b with
  | true, true => if recNat a 24 4 < recNat b 24 4 then some (0x10000, b) else some (0, a)
  | true, false => some (0, a)
  | false, true => some (0x10000, b)
  | false, false => none

/-- Rewrite the older copy with a new PREF and CHAINREC and the next GEN. -/
def Dev.newHdr (d : Dev) (pref chainRec : Nat) : Dev :=
  match d.curHdr with
  | none => d
  | some (at_, h) =>
    let b := h.take 6 ++ leBytes 1 pref ++ (h.drop 7).take 17 ++ leBytes 4 (recNat h 24 4 + 1) ++ leBytes 4 chainRec
    d.flashWr (if at_ = 0 then 0x10000 else 0) (b ++ sha256 b)

/-! ## Record log (R443, R444) -/

/-- A record whose digest checks: type, SEQ, place, payload, digest. -/
structure LogRec where
  type : Nat
  seq : Nat
  place : Nat
  data : List Byte
  digest : List Byte
deriving DecidableEq, Repr

/-- Bytes of a record with a payload of `n` bytes. -/
def recSize (n : Nat) : Nat := ceilDiv (40 + n) 16 * 16

/-- The record at a place, if its digest checks. -/
def Dev.logAt (d : Dev) (a : Nat) : Option LogRec :=
  let n := recNat (d.flashRd a 8) 2 2
  let b := d.flashRd a (40 + n)
  if n ≤ 4096 ∧ b.drop (8 + n) = sha256 (b.take (8 + n)) then
    some ⟨recNat b 0 2, recNat b 4 4, a, (b.drop 8).take n, b.drop (8 + n)⟩
  else none

/-- Scan an area from `a` to `hi`: the records that check, and where erased space begins. A record that cannot have the
length it names is skipped by 16 bytes (DESIGN CHOICE, log 55). -/
def scanLog : Nat → Dev → Nat → Nat → List LogRec × Nat
  | 0, _, a, _ => ([], a)
  | k + 1, d, a, hi =>
    let b := d.flashRd a 8
    let n := recNat b 2 2
    if recNat b 0 2 = 0xFFFF ∨ hi ≤ a then ([], a)
    else
      let next := if n ≤ 4096 then a + recSize n else a + 16
      let (l, e) := scanLog k d next hi
      match d.logAt a with
      | some r => (r :: l, e)
      | none => (l, e)

def Dev.area (d : Dev) (a : Nat) : List LogRec × Nat := scanLog 16384 d a (a + areaSize)

/-- The record log's records, and the active area with the end of its records (log 55: the second one where the first is
erased and it is not). -/
def Dev.logAll (d : Dev) (log : Nat) : List LogRec × Nat × Nat :=
  let (l0, e0) := d.area log
  let (l1, e1) := d.area (log + areaSize)
  if e0 = log ∧ e1 ≠ log + areaSize then (l0 ++ l1, log + areaSize, e1) else (l0 ++ l1, log, e0)

/-- The governing record of a type: the valid one with the highest SEQ. -/
def governs (l : List LogRec) (t : Nat) : Option LogRec :=
  l.foldl (fun m r => if r.type ≠ t then m else match m with
    | some x => if x.seq < r.seq then some r else some x
    | none => some r) none

/-- The governing record of a type in the store. -/
def Dev.governing (d : Dev) (t : Nat) : Option LogRec :=
  match d.curHdr with
  | some (_, h) => governs (d.logAll (recNat h 20 4)).1 t
  | none => none

/-- The bytes of a record, padded. -/
def padRec (b : List Byte) : List Byte := b ++ List.replicate (ceilDiv b.length 16 * 16 - b.length) 0xFF#8

/-- A record of the H6's own. -/
def mkRec (t seq : Nat) (payload : List Byte) : List Byte :=
  let b := leBytes 2 t ++ leBytes 2 payload.length ++ leBytes 4 seq ++ payload
  b ++ sha256 b

/-- Write records one after another; answers the end. -/
def writeRecs (d : Dev) (a : Nat) : List (List Byte) → Dev × Nat
  | [] => (d, a)
  | r :: rest => writeRecs (d.flashWr a (padRec r)) (a + (padRec r).length) rest

/-- Append a record: a full area is first compacted into the other one (R444). A new header copy with CHAINREC follows each
chain-defaults write, and a compaction that moves the governing one. -/
def Dev.logAppend (d : Dev) (r : List Byte) : Dev :=
  match d.curHdr with
  | none => d
  | some (_, h) =>
    let log := recNat h 20 4
    let (l, act, e) := d.logAll log
    let d :=
      if e + (padRec r).length ≤ act + areaSize then d.flashWr e (padRec r)
      else
        let other := if act = log then log + areaSize else log
        let gov := [1, 2, 3, 4, 5].filterMap (fun t => (governs l t).map (fun x => mkRec t x.seq x.data))
        let (d, e) := writeRecs (d.flashErase other (other + areaSize)) other gov
        (d.flashErase act (act + areaSize)).flashWr e (padRec r)
    match d.governing 1 with
    | some x => if x.place = recNat h 28 4 ∧ recNat r 0 2 ≠ 1 then d else d.newHdr (recNat h 6 1) x.place
    | none => d

/-- The SEQ of the H6's next record: above every record's. -/
def Dev.nextSeq (d : Dev) : Nat :=
  match d.curHdr with
  | some (_, h) => (d.logAll (recNat h 20 4)).1.foldl (fun m r => max m (r.seq + 1)) 1
  | none => 1

/-- Append a record of the H6's own. -/
def Dev.logOwn (d : Dev) (t : Nat) (payload : List Byte) : Dev := d.logAppend (mkRec t d.nextSeq payload)

/-! ## Row repairs (R338, R443) -/

/-- Every soft repair in effect, as the entries of a row-repairs record. -/
def Dev.repairList (d : Dev) : List Byte :=
  ((List.finRange 16).flatMap (fun c => (d.stk.chans[c]).soft.map (fun x =>
    c.val * 2 ^ 19 + x.1 * 2 ^ 18 + x.2.1 * 2 ^ 14 + x.2.2))).flatMap (leBytes 4)

def Dev.recordRepairs (d : Dev) : Dev := d.logOwn 5 (d.repairList.take 4096)

/-! ## Report card (R394, R443) -/

def dayNs : Nat := 86400000000000

/-- A margin differs from the stored record, and 24 h have passed since it was written. -/
def Dev.rcDue (d : Dev) : Bool :=
  d.fld .telRcard [] 15 0 != d.pwr.rcStored.toNat % 65536 && (match d.pwr.rcAt with | some t => decide (t + dayNs ≤ d.now) | none => true)

/-- REPORT_CARD_WRITE: margins, EXHAUSTED, days of service, daily counts. -/
def Dev.rcWrite (d : Dev) : Dev :=
  if !d.rcDue || d.curHdr.isNone then d
  else
    let m (k : Nat) : Nat := d.fld .telRcard [] (4 * k + 3) (4 * k)
    let old := match d.governing 4 with | some r => recNat r.data 8 4 | none => 0
    let days := old + (d.now - d.pwr.rcAt.getD 0) / dayNs
    let d := d.logOwn 4 ((upto 4).map (fun k => BitVec.ofNat 8 (m k)) ++ leBytes 1 (d.fld .telRcard [] 31 31) ++
      List.replicate 3 0#8 ++ leBytes 4 days ++ (upto 4).map (fun k => BitVec.ofNat 8 (d.pwr.daily.getD k 0)))
    { d with pwr := { d.pwr with rcStored := d.rg .telRcard [], rcAt := some d.now } }

/-! ## Meanings -/

/-- REPORT_CARD_WRITE (R394). -/
def execReportCardWrite (s : State) : Host.Outcome State Fault Refusal := onDev s s.dev.rcWrite

end Sys2Proof.Machine
end

