-- ==== Sys2Proof/Machine/Stack.lean ====
section
/-! DEFINITION. The stack controller (R318-R340): address map, queues, DRAM commands, refresh, row disturbance, retries,
retraining, row repair, panic of the real-time ports. A write reaches `mem` when its port accepts it, since every later
read consults the queue (R322, R323); the queues say when the dies see it. -/

namespace Sys2Proof.Machine

def Dev.chan (d : Dev) (c : Fin 16) : ChanSt := d.stk.chans[c]
/-- WQ and RQ follow the queues (R340). -/
def Dev.setChan (d : Dev) (c : Fin 16) (x : ChanSt) : Dev :=
  let d : Dev := { d with stk := { d.stk with chans := d.stk.chans.set c x } }
  (d.setFld .memChStat [c.val] 14 8 x.wq.length).setFld .memChStat [c.val] 6 0 x.rq.length

/-! ## Address map (R319, R320) -/

def mapHome (d : Dev) (i : Nat) : Nat := d.fld .memMap [i] 4 0
def mapExtra (d : Dev) (i e : Nat) : Nat := d.fld .memMap [i] (5 * e + 9) (5 * e + 5)

/-- The XOR of the extra bits of mapped bit `i`. -/
def mapFold (d : Dev) (a i : Nat) : Bool :=
  (upto 5).foldl (fun b e => let v := mapExtra d i e; if v = 0 then b else b ^^ bit a (v + 5)) false

def mapBit (d : Dev) (a i : Nat) : Nat := b2n (bit a (mapHome d i + 5) ^^ mapFold d a i)

/-- The free bits: named by no HOME, ascending. -/
def freeBits (d : Dev) : List Nat :=
  ((upto 29).filter (fun v => v != 0 && !(upto 9).any (fun i => mapHome d i == v))).map (· + 5)

def chanOf (d : Dev) (a : Nat) : Nat := mapBit d a 0 + 2 * mapBit d a 1 + 4 * mapBit d a 2 + 8 * mapBit d a 3
def pcOf (d : Dev) (a : Nat) : Nat := mapBit d a 4
def bankOf (d : Dev) (a : Nat) : Nat := 4 * (mapBit d a 5 + 2 * mapBit d a 6) + mapBit d a 7 + 2 * mapBit d a 8
def gather (a : Nat) (l : List Nat) : Nat := ((l.zip (upto l.length)).map (fun e => b2n (bit a e.1) * 2 ^ e.2)).foldl (· + ·) 0
def colOf (d : Dev) (a : Nat) : Nat := gather a ((freeBits d).take 5)
def rowOfAddr (d : Dev) (a : Nat) : Nat := gather a ((freeBits d).drop 5)

/-- The address of column 0 of a row: the map inverted (R338). -/
def rowAddr (d : Dev) (ch pc bank row : Nat) : Nat :=
  let fr := (((freeBits d).drop 5).zip (upto 14)).foldl (fun a e => a + b2n (bit row e.2) * 2 ^ e.1) 0
  let want (i : Nat) : Bool :=
    if i < 4 then bit ch i else if i = 4 then bit pc 0 else if i < 7 then bit bank (i - 3) else bit bank (i - 7)
  (upto 9).foldl (fun a i => a + b2n (want i ^^ mapFold d fr i) * 2 ^ (mapHome d i + 5)) fr

/-- The map is one the hardware applies (R320). -/
def mapOk (d : Dev) : Bool :=
  let homes := (upto 9).map (mapHome d)
  homes.all (fun h => decide (1 ≤ h ∧ h ≤ 28)) && decide homes.Nodup &&
    (upto 9).all (fun i =>
      let ex := ((upto 5).map (mapExtra d i)).filter (· != 0)
      ex.all (fun v => decide (v ≤ 28) && !homes.contains v) && decide ex.Nodup)

/-- STACK_ENABLE (R320). -/
def Dev.stackEnable (d : Dev) : Dev :=
  if d.stackOn then d
  else if mapOk d then d.setFld .memGctl [] 31 31 1 else d.setFld .memGctl [] 30 30 1

/-! ## Panic (R328) -/

/-- Bytes of a real-time port's buffer (R291). -/
def rtSize (p : Nat) : Nat :=
  if p < 4 then 131072 else if p < 6 then 1048576 else if p < 10 then 262144 else if p < 12 then 131072 else 262144

/-- What of a port's buffer output fills: all of it, of a codec's the output half. -/
def rtOut (p : Nat) : Nat := if p < 6 then rtSize p else rtSize p / 2

def Dev.rtUsed (d : Dev) (p : Nat) : Nat := spGet 0 d.stk.rt p

/-- The level of port `p` (R328): free space; of a codec the lower of held reference data and free output space, each as a
share of its half, scaled to the buffer. -/
def Dev.rtLevel (d : Dev) (p : Nat) : Nat :=
  if p < 6 then rtSize p - d.rtUsed p else 2 * (rtOut p - max (d.rtUsed p) (spGet 0 d.stk.rtRef p))

/-- Panic of port `p` at the present level: raised below THR / 64, cleared at (THR + 4) / 64 or the whole buffer. -/
def Dev.rtPanic (d : Dev) (p : Nat) : Dev :=
  let size := rtSize p
  let level := d.rtLevel p
  let thr := d.fld .memRtThr [p] 5 0
  let on := d.flag .memRtThr [p] 30
  if !d.flag .memRtThr [p] 31 then d.setFld .memRtThr [p] 30 30 0
  else if !on && decide (level * 64 < thr * size) then (d.setFld .memRtThr [p] 30 30 1).incMod .memRtThr [p] 15 8 1
  else if on && decide (min 64 (thr + 4) * size ≤ level * 64) then d.setFld .memRtThr [p] 30 30 0
  else d

/-- The buffer of port `p` holds `n` bytes, at most its size. -/
def Dev.rtSet (d : Dev) (p n : Nat) : Dev :=
  let d : Dev := { d with stk := { d.stk with rt := spSet 0 d.stk.rt p (min n (rtOut p)) } }
  d.rtPanic p
/-- `n` bytes of port `p`'s reference half are on their way, at most all of it. -/
def Dev.rtMissing (d : Dev) (p n : Nat) : Dev :=
  let d : Dev := { d with stk := { d.stk with rtRef := spSet 0 d.stk.rtRef p (min n (rtOut p)) } }
  d.rtPanic p
/-- The buffer of port `p` has no room for `n` bytes more. -/
def Dev.rtFull (d : Dev) (p n : Nat) : Bool := decide (rtOut p < d.rtUsed p + n)
def Dev.rtAdd (d : Dev) (p n : Nat) : Dev := d.rtSet p (d.rtUsed p + n)
def Dev.rtSub (d : Dev) (p n : Nat) : Dev := d.rtSet p (d.rtUsed p - n)

/-- `n` bytes of a bypass line wait in capture port `p`'s buffer for the stack. -/
def Dev.rtBypass (d : Dev) (p n : Nat) : Dev :=
  { d with stk := { d.stk with rtByp := spSet 0 d.stk.rtByp p (spGet 0 d.stk.rtByp p + n) } }.rtAdd p n
/-- The stack takes `n` bytes of port `p`: output of a pipeline or a codec, of a capture port what waits there for the stack and
not the lines that wait for a pipeline (R291, R328). -/
def Dev.rtTaken (d : Dev) (p n : Nat) : Dev :=
  if p < 4 then
    let n := min n (spGet 0 d.stk.rtByp p)
    { d with stk := { d.stk with rtByp := spSet 0 d.stk.rtByp p (spGet 0 d.stk.rtByp p - n) } }.rtSub p n
  else d.rtSub p n

/-- Requests of real-time port `p` carry its number as requester, at every arbiter and in the queues (DESIGN CHOICE, log 51). -/
def isPort (req cls : Nat) : Bool := decide (2 ≤ cls ∧ req < 13)

/-- The class a request has now: that of a real-time port is 3 while its panic is raised, else 2 (R328). -/
def rtClass (d : Dev) (req cls : Nat) : Nat :=
  if isPort req cls then (if d.flag .memRtThr [req] 30 then 3 else 2) else cls

/-! ## Pseudo-channels and banks -/

def ChanSt.pc (x : ChanSt) (p : Nat) : PcSt := if p = 0 then x.pc0 else x.pc1
def ChanSt.setPc (x : ChanSt) (p : Nat) (v : PcSt) : ChanSt := if p = 0 then { x with pc0 := v } else { x with pc1 := v }
def PcSt.bank (x : PcSt) (b : Nat) : BankSt := (keyed x.banks b).getD {}
def PcSt.setBank (x : PcSt) (b : Nat) (v : BankSt) : PcSt := { x with banks := setKeyed x.banks b v }
def PcSt.modBank (x : PcSt) (b : Nat) (f : BankSt → BankSt) : PcSt := x.setBank b (f (x.bank b))

/-! ## Acceptance (R322-R325) -/

/-- Write the bytes a mask names (R322). -/
def Dev.maskStore (d : Dev) (blk : Nat) (mask : BitVec 64) (data : List Byte) : Dev :=
  let m := (upto 64).foldl (fun m i => if mask.getLsbD i then m.wr (blk + i) (data.getD i 0#8) else m) d.mem
  { d with mem := m, poison := if mask = BitVec.allOnes 64 then clearPoison d.poison blk 64 else d.poison }

/-- Proctor's requester number (DESIGN CHOICE, log 51). -/
def proctorReq : Nat := 255

/-- A request this channel serves: the stack is in service, or Proctor asks (R339), and the block lies here. -/
def Dev.mine (d : Dev) (c : Fin 16) (req a : Nat) : Bool :=
  (d.stackOn || req == proctorReq) && decide (a < stackEnd) && chanOf d a == c.val

/-- The channel's arbiter grants the requester's read, or its write, this cycle, and the port has accepted nothing in it
(R322). -/
def State.portTakes (s : State) (c : Fin 16) (req : Nat) (write : Bool) : Bool :=
  let a := s.arbs[64 + c.val]
  a.holder.any (fun h => h.req == req && h.write == write) && (s.dev.chan c).took != some a.clock

/-- The port has accepted a request in this cycle of its arbiter. -/
def Dev.took (d : Dev) (c : Fin 16) (clock : Nat) : Dev := d.setChan c { d.chan c with took := some clock }

/-- The port accepts a write, a read: none while its queue is full (R323, R325). -/
def Dev.takesWrite (d : Dev) (c : Fin 16) : Bool := decide ((d.chan c).wq.length < 64)
def Dev.takesRead (d : Dev) (c : Fin 16) : Bool := decide ((d.chan c).rq.length < 64)

/-- STACK_WRITE_ACCEPT (R322, R323): merged with the entry of its block, or a new one. An
entry that has come to cover its block is what every later read is forwarded, so the block's poison no longer shows
(R336). -/
def Dev.writeAccept (d : Dev) (c : Fin 16) (req cls a : Nat) (mask : BitVec 64) (data : List Byte) : Dev :=
  let blk := a / 64 * 64
  let x := d.chan c
  let old := x.wq.find? (fun w => w.blk == blk)
  let whole := (old.map (fun w => w.mask ||| mask)).getD mask
  let wq := match old with
    | some w => x.wq.map (fun y => if y.blk = blk then { w with mask := whole, cls := max w.cls cls } else y)
    | none => x.wq ++ [{ blk := blk, mask := mask, req := req, cls := cls, at_ := (x.pc (pcOf d a)).cyc }]
  let d := (d.maskStore blk mask data).setChan c { x with wq := wq }
  let d : Dev := if whole = BitVec.allOnes 64 then { d with poison := clearPoison d.poison blk 64 } else d
  if isPort req cls then d.rtTaken req ((upto 64).countP mask.getLsbD) else d

/-- STACK_READ_ACCEPT (R322, R324, R325): forwarded from the write queue, held behind it, or queued for the die; its data
are those of every write accepted before it, of its one block. A class 2 or 3 read that comes in drain mode ends the drain
once the write queue holds fewer than 48 and the entry it may wait for is written (R327). -/
def Dev.readAccept (d : Dev) (c : Fin 16) (req cls : Nat) (at_ : Bytes) : Dev :=
  let blk := at_.addr / 64 * 64
  let x := d.chan c
  let data := d.load at_.addr (min at_.len (blk + 64 - at_.addr))
  let old := x.wq.find? (fun w => w.blk == blk)
  let e : REnt := { blk := blk, req := req, cls := cls, at_ := (x.pc (pcOf d blk)).cyc, data := data, behind := old.isSome
                    pz := d.poisoned blk, ends := x.drain && decide (2 ≤ cls) }
  if old.any (fun w => w.mask == BitVec.allOnes 64) then
    d.setChan c { x with last := some (req, blk, data, false), cut := x.cut || e.ends }
  else
    let d := d.setChan c { x with rq := x.rq ++ [e] }
    if isPort req cls ∧ 6 ≤ req then d.rtMissing req (spGet 0 d.stk.rtRef req + 64) else d

/-! ## DRAM commands (R326, R327, R329, R331-R334) -/

/-- A request as the scheduler sees it. -/
structure Cand where
  write : Bool
  blk : Nat
  req : Nat
  cls : Nat
  at_ : Nat
  first : Bool
deriving DecidableEq, Repr

/-- Read or drain mode after the present queues (R327): reads that ended a drain go first (DEDUCED, log 51), one that waits for
an entry once that is written; a drain ended by a read that was forwarded is over where nothing asks for one. -/
def ChanSt.mode (x : ChanSt) (d : Dev) : Bool :=
  let behind := x.rq.any (·.behind)
  let want := decide (48 ≤ x.wq.length) || (x.rq.isEmpty && !x.wq.isEmpty) || x.wq.any (fun w => rtClass d w.req w.cls == 3) || behind
  if x.rq.any (fun r => r.ends && !r.issued && !r.behind) && decide (x.wq.length < 48) then false
  else want || (x.drain && !x.cut && decide (16 < x.wq.length))

/-- The requests a pseudo-channel could serve in the mode it is in, oldest first; entries that reads wait for come
before the drain order (R324). -/
def ChanSt.cands (x : ChanSt) (d : Dev) (p : Nat) : List Cand :=
  if x.drain then
    (x.wq.filter (fun w => pcOf d w.blk == p)).map (fun w =>
      ⟨true, w.blk, w.req, rtClass d w.req w.cls, w.at_, x.rq.any (fun r => r.behind && r.blk == w.blk)⟩)
  else
    (x.rq.filter (fun r => pcOf d r.blk == p && !r.issued && !r.behind)).map (fun r => ⟨false, r.blk, r.req, rtClass d r.req r.cls, r.at_, false⟩)

/-- Every request that waits at a pseudo-channel, in whichever mode (R331): block and class. -/
def ChanSt.waiting (x : ChanSt) (d : Dev) (p : Nat) : List (Nat × Nat) :=
  ((x.wq.map (fun w => (w.blk, rtClass d w.req w.cls))) ++
    ((x.rq.filter (!·.issued)).map (fun r => (r.blk, rtClass d r.req r.cls)))).filter (fun e => pcOf d e.1 == p)

/-- Place in the order of R326: smaller first. -/
def Cand.rank (k : Cand) (d : Dev) (x : PcSt) : Nat :=
  let cls := if k.cls = 0 ∧ d.recess then 1 else k.cls
  if k.first then 0
  else if cls = 3 then 1 else if cls = 2 then 2
  else if cls = 1 then
    (if k.at_ + 4000 ≤ x.cyc then 3 else if (x.bank (bankOf d k.blk)).open_ = some (rowOfAddr d k.blk) then 4 else 5)
  else 6

/-- Insert by rank, after those of the same rank. -/
def insCand (d : Dev) (x : PcSt) (k : Cand) : List Cand → List Cand
  | [] => [k]
  | y :: r => if k.rank d x < y.rank d x then k :: y :: r else y :: insCand d x k r

/-- A DRAM command. -/
inductive DramOp where
  | pre (bank : Nat) | act (bank row : Nat) (k : Cand) | col (bank : Nat) (k : Cand) | ref (bank : Nat) | refAll
deriving DecidableEq, Repr

/-- A throttled requester must wait for its next activation of the bank (R333, R334). -/
def throttled (x : PcSt) (b : BankSt) (k : Cand) : Bool :=
  decide (k.cls < 2) && (keyed b.throt k.req).any (fun t => decide (x.cyc < t))

/-- tRRD and tFAW allow an activate. -/
def actOk (x : PcSt) : Bool :=
  x.acts.all (fun t => decide (t + 2 ≤ x.cyc)) && decide ((x.acts.filter (fun t => decide (x.cyc < t + 20))).length < 4)

/-- The command a request needs next, if the timing allows it. -/
def needs (d : Dev) (x : PcSt) (k : Cand) : Option DramOp :=
  let b := bankOf d k.blk
  let s := x.bank b
  let row := rowOfAddr d k.blk
  match s.open_ with
  | some r =>
    if r = row then (if s.nextCol ≤ x.cyc ∧ x.bus ≤ x.cyc then some (.col b k) else none)
    else if s.nextPre ≤ x.cyc then some (.pre b) else none
  | none => if s.nextAct ≤ x.cyc ∧ actOk x ∧ !throttled x s k then some (.act b row k) else none

/-- A refresh of a bank: the precharge or the refresh the timing allows. -/
def refStep (x : PcSt) (b : Nat) : Option DramOp :=
  let s := x.bank b
  match s.open_ with
  | some _ => if s.nextPre ≤ x.cyc then some (.pre b) else none
  | none => if s.nextAct ≤ x.cyc then some (.ref b) else none

/-- An all-bank refresh: every bank closed and ready, else a precharge. -/
def refAllStep (x : PcSt) : Option DramOp :=
  match (upto 16).find? (fun b => (x.bank b).open_.isSome && decide ((x.bank b).nextPre ≤ x.cyc)) with
  | some b => some (.pre b)
  | none => if (upto 16).all (fun b => (x.bank b).open_.isNone && decide ((x.bank b).nextAct ≤ x.cyc)) then some .refAll else none

/-- An all-bank refresh is due that nothing postpones any more: no bank is activated until it has been issued (R326, R331). -/
def refAllDue (d : Dev) (x : PcSt) (ks : List (Nat × Nat)) : Bool :=
  d.flag .memGctl [] 0 && (decide (9 ≤ x.owed) || (decide (0 < x.owed) && !ks.any (fun k => decide (2 ≤ k.2))))

def DramOp.isAct : DramOp → Bool
  | .act _ _ _ => true
  | _ => false

/-- The refresh that is forced: no longer postponed by class 2 or 3 requests, or the ninth (R331; a due refresh that
nothing postpones is forced, DEDUCED, log 52). -/
def forcedRef (d : Dev) (x : PcSt) (ks : List (Nat × Nat)) : Option DramOp :=
  let hold := ks.any (fun k => decide (2 ≤ k.2))
  if d.flag .memGctl [] 0 then (if refAllDue d x ks then refAllStep x else none)
  else
    let due := ((upto 16).map (fun i => (x.rot + i) % 16)).filter (fun b =>
      let o := (x.bank b).owed
      decide (9 ≤ o) || (decide (0 < o) && !hold))
    let idle := due.filter (fun b => !ks.any (fun k => bankOf d k.1 == b))
    (idle ++ due).findSome? (refStep x)

/-- A refresh pulled in early, while no request waits (R331). -/
def earlyRef (d : Dev) (x : PcSt) : Option DramOp :=
  if d.flag .memGctl [] 0 then (if x.early < 8 then refAllStep x else none)
  else (((upto 16).map (fun i => (x.rot + i) % 16)).filter (fun b => decide ((x.bank b).early < 8))).findSome? (refStep x)

/-- The command this cycle issues (R326). -/
def nextOp (d : Dev) (c : ChanSt) (p : Nat) : Option DramOp :=
  let x := c.pc p
  let ks := c.cands d p
  match forcedRef d x (c.waiting d p) with
  | some o => some o
  | none =>
    let wait := refAllDue d x (c.waiting d p)
    match (ks.foldl (fun l k => insCand d x k l) []).findSome? (fun k => (needs d x k).filter (fun o => !(wait && o.isAct))) with
    | some o => some o
    | none => if c.wq.isEmpty && c.rq.isEmpty then earlyRef d x else none

/-- The tracker's THRESH and the throttle spacing as they act (R340). -/
def rdThresh (d : Dev) : Nat := max 256 (d.fld .memRdCtl [] 15 0)
def rdGap (d : Dev) : Nat := 100 * max 1 (d.fld .memRdCtl [] 23 16)

/-- The entry with the lowestIx count, the first on a tie. -/
def lowestIx : List (Nat × Nat) → Nat
  | [] => 0
  | l => (((l.zip (upto l.length)).foldl (fun (m : Option (Nat × Nat)) e =>
      match m with
      | none => some (e.1.2, e.2)
      | some q => if e.1.2 < q.1 then some (e.1.2, e.2) else some q) none).map (·.2)).getD 0

/-- An activation in the tracker (R333, R334; an entry not listed has count 0 and stands after those listed): answers the bank, the neighbour refreshes it causes, whether a requester
was marked. -/
def track (d : Dev) (x : PcSt) (b : BankSt) (row : Nat) (k : Cand) : BankSt × Nat × Bool :=
  let tr := if b.tracker.any (fun e => e.1 == row) then b.tracker.map (fun e => if e.1 = row then (row, e.2 + 1) else e)
    else if b.tracker.length < 16 ∧ !b.tracker.any (fun e => e.2 == 0) then b.tracker ++ [(row, 1)]
    else modAt b.tracker (lowestIx b.tracker) (fun e => (row, e.2 + 1))
  let hit := tr.any (fun e => e.1 == row && decide (rdThresh d ≤ e.2))
  let tr := if hit then tr.map (fun e => if e.1 = row then (row, 0) else e) else tr
  let hot := b.hot.map (fun e => if e.1 = row then (row, e.2 + 1) else e)
  let more := hot.any (fun e => e.1 == row && decide (rdThresh d / 16 ≤ e.2))
  let hot := if more then hot.map (fun e => if e.1 = row then (row, 0) else e) else hot
  let mark := hit && decide (k.cls < 2) && (keyed b.throt k.req).isNone
  let throt := if mark then setKeyed b.throt k.req 0 else b.throt
  let throt := if (keyed throt k.req).isSome ∧ k.cls < 2 then setKeyed throt k.req (x.cyc + rdGap d) else throt
  let hot := if hit ∧ 2 ≤ k.cls ∧ !hot.any (fun e => e.1 == row) then hot ++ [(row, 0)] else hot
  ({ b with tracker := tr, throt := throt, hot := hot }, b2n hit + b2n more, mark)

/-- The bank is busy with `n` neighbour refreshes (R332-R334). -/
def BankSt.busy (b : BankSt) (cyc n : Nat) : BankSt :=
  if n = 0 then b
  else { b with nextAct := max b.nextAct (cyc + 92 * n), nextPre := max b.nextPre (cyc + 92 * n), nextCol := max b.nextCol (cyc + 92 * n) }

/-- The rows above and below a row. -/
def neighbours (row : Nat) : List Nat := (if 0 < row then [row - 1] else []) ++ (if row < 16383 then [row + 1] else [])

/-- The generator hits with probability 2^-K: its low K bits are 0 (DESIGN CHOICE, log 12). -/
def drawHits (d : Dev) (g : BitVec 32) : Bool := g.toNat % 2 ^ d.fld .memRdCtl [] 27 24 == 0

/-- An activate with the two guards against row disturbance. -/
def Dev.activate (d : Dev) (c : Fin 16) (p b row : Nat) (k : Cand) : Dev :=
  let ch := d.chan c
  let x := ch.pc p
  let s := x.bank b
  let s := { s with open_ := some row, nextCol := x.cyc + 14, nextPre := x.cyc + 32, nextAct := x.cyc + 46 }
  let pnr := d.flag .memRdCtl [] 31
  let (s, n, mark) := if d.flag .memRdCtl [] 30 then track d x s row k else (s, 0, false)
  let n := n + b2n (pnr && drawHits d ch.gen)
  let x := { (x.setBank b (s.busy x.cyc n)) with acts := (x.cyc :: x.acts).take 4 }
  let ch := { (ch.setPc p x) with
    gen := if pnr then Config.nextDraw ch.gen else ch.gen
    nbr := if n = 0 then ch.nbr else (neighbours row).map (fun r => (p, b, r)) }
  let d := (d.setChan c ch).incMod .memChRh [c.val] 31 16 n
  if mark then d.incMod .memChRh [c.val] 15 0 1 else d

/-- A column command: a read goes to the die; a write leaves the queue and is kept for 40 ns, and reads that waited for
its block may go. -/
def Dev.column (d : Dev) (c : Fin 16) (p b : Nat) (k : Cand) : Dev :=
  let ch := d.chan c
  let x := ch.pc p
  let x := { (x.modBank b (fun s => { s with nextPre := max s.nextPre (x.cyc + 4) })) with bus := x.cyc + 4 }
  let ch := ch.setPc p x
  if k.write then
    let w := ch.wq.filter (fun w => w.blk == k.blk)
    d.setChan c { ch with
      wq := ch.wq.filter (fun w => w.blk != k.blk)
      sent := ch.sent ++ w.map (fun w => { w with at_ := x.cyc + 4 })
      rq := ch.rq.map (fun r => if r.blk = k.blk then { r with behind := false } else r) }
  else
    let hit (r : REnt) : Bool := r.blk == k.blk && r.at_ == k.at_ && !r.issued && !r.behind
    let i := (ch.rq.findIdx? hit).getD ch.rq.length
    d.setChan c { ch with rq := modAt ch.rq i (fun r => { r with issued := true }) }

/-- DRAM_COMMAND_ISSUE (R326, R327): one controller cycle of a pseudo-channel; `hot` is what the channel's die reports
(R340). -/
def Dev.dramIssue (d : Dev) (c : Fin 16) (p : Nat) (hot : Bool) : Dev :=
  let d := d.setFld .memChStat [c.val] 28 28 (b2n hot)
  let ch := d.chan c
  let x := ch.pc p
  let ch := ch.setPc p { x with cyc := x.cyc + 1 }
  if d.fld .memChStat [c.val] 31 29 = 3 then d.setChan c ch
  else
    let m := ch.mode d
    let ch := if m = ch.drain then ch
      else { ch with drain := m, cut := false, pc0 := { ch.pc0 with bus := max ch.pc0.bus ch.pc0.cyc + 6 }, pc1 := { ch.pc1 with bus := max ch.pc1.bus ch.pc1.cyc + 6 } }
    let ch := { ch with sent := ch.sent.filter (fun w => w.tried || decide ((ch.pc (pcOf d w.blk)).cyc ≤ w.at_ + 40)) }
    let d := d.setChan c ch
    let x := ch.pc p
    match nextOp d ch p with
    | none => d
    | some (.pre b) =>
      d.setChan c (ch.setPc p (x.modBank b (fun s => { s with open_ := none, nextAct := max s.nextAct (x.cyc + 14) })))
    | some (.act b row k) => d.activate c p b row k
    | some (.col b k) => d.column c p b k
    | some (.ref b) =>
      let x := x.modBank b (fun s => { s with
        nextAct := x.cyc + 160, owed := s.owed - 1, early := if s.owed = 0 then s.early + 1 else s.early })
      d.setChan c (ch.setPc p { x with rot := (b + 1) % 16 })
    | some .refAll =>
      let y := (upto 16).foldl (fun y b => y.modBank b (fun s => { s with nextAct := x.cyc + 350 })) x
      d.setChan c (ch.setPc p { y with owed := x.owed - 1, early := if x.owed = 0 then x.early + 1 else x.early })

/-- REFRESH_DUE (R331): one taken early counts for it. -/
def Dev.refreshDue (d : Dev) (c : Fin 16) (p b : Nat) : Dev :=
  let ch := d.chan c
  let x := ch.pc p
  if d.flag .memGctl [] 0 then
    d.setChan c (ch.setPc p (if 0 < x.early then { x with early := x.early - 1 } else { x with owed := x.owed + 1 }))
  else
    d.setChan c (ch.setPc p (x.modBank b (fun s =>
      if 0 < s.early then { s with early := s.early - 1 } else { s with owed := s.owed + 1 })))

/-- TRACKER_WINDOW_RESET (R333). -/
def Dev.trackerReset (d : Dev) : Dev :=
  let clr (x : PcSt) : PcSt := { x with banks := x.banks.map (fun e => (e.1, { e.2 with tracker := [], throt := [], hot := [] })) }
  { d with stk := { d.stk with chans := d.stk.chans.map (fun c => { c with pc0 := clr c.pc0, pc1 := clr c.pc1 }) } }

/-! ## Repair (R338) -/

/-- Rows repaired in a bank of a channel: hard and soft. -/
def repaired (d : Dev) (c : Fin 16) (pc bank : Nat) : List Nat :=
  ((d.fuses.hardRepair.filter (fun x => x.1 == c.val && x.2.1 == pc && x.2.2.1 == bank)).map (fun x => x.2.2.2)) ++
    ((d.chan c).soft.filter (fun x => x.1 == pc && x.2.1 == bank)).map (fun x => x.2.2)

/-- SOFT and FREE follow the repairs (R340). -/
def Dev.repairCount (d : Dev) (c : Fin 16) : Dev :=
  let s := (d.chan c).soft.length
  let h := (d.fuses.hardRepair.filter (fun x => x.1 == c.val)).length
  d.setRg .memChRepair [c.val] (BitVec.ofNat 32 (s * 65536 + h * 256 + (64 - h - s)))

/-- A write of MEM_CH_PPR (R338, R340): all of it ignored while GO is 1 (DESIGN CHOICE, log 112); GO is refused where no spare is free or the row is
already repaired. -/
def Dev.pprWrite (d : Dev) (c : Fin 16) (v : W32) : Dev :=
  let i := [c.val]
  if d.flag .memChPpr i 31 then d
  else
    let d := d.plainWrite .memChPpr i (v &&& 0x7FFFFFFF#32)
    let pc := d.fld .memChPpr i 24 24
    let bank := d.fld .memChPpr i 23 20
    let row := d.fld .memChPpr i 13 0
    if !v.getLsbD 31 then d
    else if 2 ≤ (repaired d c pc bank).length ∨ (repaired d c pc bank).contains row then d.setFld .memChPpr i 29 29 1
    else d.setFld .memChPpr i 31 31 1

/-- The runtime asks for the repair of a row (R338): it writes MEM_CH_PPR, or keeps the row until GO is 0; where both
spares are used it reports the row's addresses (R439). -/
def Dev.askRepair (d : Dev) (c : Fin 16) (pc bank row : Nat) : Dev :=
  if (repaired d c pc bank).contains row then d
  else if 2 ≤ (repaired d c pc bank).length then
    d.notice stOk ([4#8, BitVec.ofNat 8 c.val, BitVec.ofNat 8 pc, BitVec.ofNat 8 bank] ++ leBytes 2 row ++
      List.replicate 2 0#8 ++ leBytes 8 (rowAddr d c.val pc bank row))
  else if d.flag .memChPpr [c.val] 31 then
    let x := d.chan c
    d.setChan c { x with todo := if x.todo.contains (pc, bank, row) then x.todo else x.todo ++ [(pc, bank, row)] }
  else d.pprWrite c (BitVec.ofNat 32 (2 ^ 31 + pc * 2 ^ 24 + bank * 2 ^ 20 + row))

/-- SOFT_REPAIR (R338): the spare takes the row's place, its data unchanged; the runtime records it, and asks again for the
rows it has kept: the first that can be repaired goes to MEM_CH_PPR, those after it stay kept. -/
def Dev.softRepair (d : Dev) (c : Fin 16) : Dev :=
  let i := [c.val]
  if d.flag .memChPpr i 31 then
    let r := (d.fld .memChPpr i 24 24, d.fld .memChPpr i 23 20, d.fld .memChPpr i 13 0)
    let x := d.chan c
    let d := (d.setChan c { x with soft := x.soft ++ [r], todo := [] }).repairCount c
    let d := ((d.setFld .memChPpr i 31 31 0).setFld .memChPpr i 30 30 1).recordRepairs
    x.todo.foldl (fun d t => d.askRepair c t.1 t.2.1 t.2.2) d
  else d

/-! ## Completion, retries, poison (R335, R336) -/

/-- A channel is retrained in place (R335): its requests wait until CHANNEL_RETRAIN_COMPLETE. -/
def Dev.retrainHere (d : Dev) (c : Fin 16) : Dev :=
  (d.setChan c { d.chan c with inPlace := true }).setFld .memChStat [c.val] 31 29 3

/-- STACK_READ_COMPLETE (R325, R335): the read that went to the die first has failed `bad` attempts, on a poisoned block
all. After four the channel is retrained, and the next such command delivers it, poisoned where all eight fail. -/
def Dev.readComplete (d : Dev) (c : Fin 16) (bad : Nat) : Dev :=
  let x := d.chan c
  match x.rq.find? (·.issued) with
  | none => d
  | some r =>
    let bad := if r.pz then 8 else bad
    if d.fld .memChStat [c.val] 31 29 = 3 then d
    else if 4 ≤ bad ∧ !r.tried then
      let i := (x.rq.findIdx? (·.issued)).getD 0
      ((d.setChan c { x with rq := modAt x.rq i (fun y => { y with tried := true }) }).incSat .memChErr [c.val] 7 0 3).retrainHere c
    else
      let pz := decide (8 ≤ bad)
      let n := if r.tried then min (max bad 4) 7 - 3 else bad
      let d := d.setChan c { x with rq := dropFirst (fun y => y.issued) x.rq, last := some (r.req, r.blk, r.data, pz) }
      let d := d.incSat .memChErr [c.val] 7 0 n
      let d := if isPort r.req r.cls ∧ 6 ≤ r.req then d.rtMissing r.req (spGet 0 d.stk.rtRef r.req - 64) else d
      if pz then
        (d.incSat .memChErr [c.val] 23 16 1).askRepair c (pcOf d r.blk) (bankOf d r.blk) (rowOfAddr d r.blk)
      else d

/-- Every read of a block that has been written poisoned is delivered poisoned (R336), those queued before it too; with
`whole`, but those that wait for the queued write that covers the block. -/
def Dev.poisonReads (d : Dev) (c : Fin 16) (blk : Nat) (whole : Bool) : Dev :=
  d.setChan c { d.chan c with rq := (d.chan c).rq.map (fun r =>
    if r.blk = blk ∧ !(whole && r.behind) then { r with pz := true } else r) }

/-- WRITE_PARITY_ERROR (R336): the oldest write of the last 40 ns, or the one the channel was retrained for, failed `bad` times. After four the channel is retrained,
and the next such command ends the attempts: after eight its block is poisoned. Where a queued write covers the whole block,
which every later read is forwarded and which clears the poison when it is sent, only the reads that the die serves before it
are poisoned. -/
def Dev.writeError (d : Dev) (c : Fin 16) (bad : Nat) : Dev :=
  let x := d.chan c
  match x.sent with
  | [] => d
  | w :: rest =>
    if d.fld .memChStat [c.val] 31 29 = 3 then d
    else if 4 ≤ bad ∧ !w.tried then
      ((d.setChan c { x with sent := { w with tried := true } :: rest }).incSat .memChErr [c.val] 15 8 3).retrainHere c
    else
      let n := if w.tried then min (max bad 4) 7 - 3 else max bad 1
      let d := (d.setChan c { x with sent := rest }).incSat .memChErr [c.val] 15 8 n
      if 8 ≤ bad then
        let rewritten := x.wq.any (fun y => y.blk == w.blk && y.mask == BitVec.allOnes 64)
        let d : Dev := { d with poison := if rewritten ∨ d.poisoned w.blk then d.poison else w.blk :: d.poison }
        (d.poisonReads c w.blk rewritten).incSat .memChErr [c.val] 23 16 1
      else d

/-- On-die corrections a die reports (R338, R340): counted; a row with 16 in 24 hours is repaired. -/
def Dev.rowFix (d : Dev) (e : RowFix) : Dev :=
  let d := d.incSat .memChOdecc [e.ch.val] 31 0 e.n
  let x := d.chan e.ch
  let old := x.fixed.filter (fun y => decide (d.now < y.2.2.2.1 + 86400000000000))
  let mine (y : Nat × Nat × Nat × Nat × Nat) : Bool := y.1 == e.pc && y.2.1 == e.bank && y.2.2.1 == e.row
  let sum := ((old.filter mine).map (fun y => y.2.2.2.2)).foldl (· + ·) e.n
  if 16 ≤ sum then
    (d.setChan e.ch { x with fixed := old.filter (fun y => !mine y) }).askRepair e.ch e.pc e.bank e.row
  else d.setChan e.ch { x with fixed := old ++ [(e.pc, e.bank, e.row, d.now, e.n)] }

/-! ## Retraining (R337) -/

/-- Real-time ports that have panic raised have requests queued to the channel. -/
def ChanSt.panicked (x : ChanSt) (d : Dev) : Bool :=
  x.wq.any (fun w => rtClass d w.req w.cls == 3) || x.rq.any (fun r => rtClass d r.req r.cls == 3)

/-- CHANNEL_RETRAIN (R337): it starts, or waits for a later window, at most 10 ms. -/
def Dev.retrain (d : Dev) (c : Fin 16) : Dev :=
  let x := d.chan c
  let asked := d.flt.tests.any (fun t => t.kind == 3 && t.arg == c.val)
  if !d.flag .memGctl [] 1 && !asked then d
  else if d.fld .memChStat [c.val] 31 29 ≠ 2 then d
  else
    let long := x.defer.any (fun t => decide (t + 10000000 ≤ d.now))
    if x.panicked d && !long then d.setChan c { x with defer := some (x.defer.getD d.now) }
    else (d.setChan c { x with defer := none }).setFld .memChStat [c.val] 31 29 3

/-- CHANNEL_RETRAIN_COMPLETE (R335, R337); the tests that asked for a periodic one complete (R413). -/
def Dev.retrainDone (d : Dev) (c : Fin 16) : Dev :=
  if (d.chan c).inPlace then (d.setChan c { d.chan c with inPlace := false }).setFld .memChStat [c.val] 31 29 2
  else if d.fld .memChStat [c.val] 31 29 = 3 then
    let mine (t : TestReq) : Bool := t.kind == 3 && t.arg == c.val
    let l := d.flt.tests.filter mine
    let d := d.setFld .memChStat [c.val] 31 29 2
    let d : Dev := { d with flt := { d.flt with tests := d.flt.tests.filter (fun t => !mine t) } }
    l.foldl (fun d t => d.reply 0x11 t.tag stOk []) d
  else d

/-! ## Meanings -/

/-- STACK_READ_ACCEPT (R322, R324). -/
def execStackReadAccept (c : Fin 16) (req : Nat) (cls : Fin 4) (a : Bytes) (s : State) : Host.Outcome State Fault Refusal :=
  onDev s (if s.portTakes c req false && s.dev.mine c req a.addr && s.dev.takesRead c then
    (s.dev.took c s.arbs[64 + c.val].clock).readAccept c req cls.val a else s.dev)
/-- STACK_WRITE_ACCEPT (R322, R323). -/
def execStackWriteAccept (c : Fin 16) (req : Nat) (cls : Fin 4) (a : Nat) (m : BitVec 64) (bs : List Byte) (s : State) :
    Host.Outcome State Fault Refusal :=
  onDev s (if s.portTakes c req true && s.dev.mine c req a && s.dev.takesWrite c then
    (s.dev.took c s.arbs[64 + c.val].clock).writeAccept c req cls.val a m bs else s.dev)
/-- DRAM_COMMAND_ISSUE (R326). -/
def execDramCommandIssue (c : Fin 16) (p : Fin 2) (hot : Bool) (s : State) : Host.Outcome State Fault Refusal :=
  onDev s (s.dev.dramIssue c p.val hot)
/-- STACK_READ_COMPLETE (R335). -/
def execStackReadComplete (c : Fin 16) (bad : Nat) (s : State) : Host.Outcome State Fault Refusal := onDev s (s.dev.readComplete c bad)
/-- WRITE_PARITY_ERROR (R336). -/
def execWriteParityError (c : Fin 16) (bad : Nat) (s : State) : Host.Outcome State Fault Refusal := onDev s (s.dev.writeError c bad)
/-- REFRESH_DUE (R331). -/
def execRefreshDue (c : Fin 16) (p : Fin 2) (b : Fin 16) (s : State) : Host.Outcome State Fault Refusal :=
  onDev s (s.dev.refreshDue c p.val b.val)
/-- TRACKER_WINDOW_RESET (R333). -/
def execTrackerWindowReset (s : State) : Host.Outcome State Fault Refusal := onDev s s.dev.trackerReset
/-- CHANNEL_RETRAIN (R337). -/
def execChannelRetrain (c : Fin 16) (s : State) : Host.Outcome State Fault Refusal := onDev s (s.dev.retrain c)
/-- CHANNEL_RETRAIN_COMPLETE (R337). -/
def execChannelRetrainComplete (c : Fin 16) (s : State) : Host.Outcome State Fault Refusal := onDev s (s.dev.retrainDone c)
/-- SOFT_REPAIR_REQUEST (R338). -/
def execSoftRepairRequest (c : Fin 16) (v : W32) (s : State) : Host.Outcome State Fault Refusal :=
  onDev s (s.dev.pprWrite c (v ||| 0x80000000#32))
/-- SOFT_REPAIR (R338). -/
def execSoftRepair (c : Fin 16) (s : State) : Host.Outcome State Fault Refusal := onDev s (s.dev.softRepair c)
/-- STACK_ENABLE (R320). -/
def execStackEnable (s : State) : Host.Outcome State Fault Refusal := onDev s s.dev.stackEnable
/-- MEM_ERR_CLEAR (R340). -/
def execMemErrClear (c : Fin 16) (s : State) : Host.Outcome State Fault Refusal :=
  onDev s ((s.dev.setFld .memChErr [c.val] 23 0 0).setRg .memChOdecc [c.val] 0#32)

end Sys2Proof.Machine
end

