-- ==== Sys2Proof/Machine/Arbiter.lean ====
section
/-! DEFINITION. The arbiters (R260-R264): one design for the 64 Commons banks, the 16 stack ports and the four Kwaos
outputs. -/

namespace Sys2Proof.Machine

/-- Bench entries of a requester. -/
def benchOf (l : List ArbReq) (r : Nat) : Nat := (l.filter (fun x => x.req == r)).length

/-- Park a losing request (R262): on the bench while it has room and holds fewer than 2 of the requester; else the
request stays presented and its port stalls. -/
def Arb.park (a : Arb) (r : ArbReq) : Arb :=
  if a.bench.length < 4 ∧ benchOf a.bench r.req < 2 then { a with bench := a.bench ++ [r] }
  else { a with stall := a.stall ++ [r] }

/-- What an arbiter learns in a cycle: its view of the block, and the cycle in which its channel's port last accepted a
request. -/
structure ArbEnv where
  now : ArbView := {}
  took : Option Nat := none
deriving DecidableEq, Repr

/-- A full queue of the stack channel holds the request (R323, R325). -/
def ArbView.held (v : ArbView) (r : ArbReq) : Bool := if r.write then v.wfull else v.rfull

/-- The view that the decision for this cycle goes by (R264): in native mode the present one, in H4 mode that of the cycle
before. -/
def Arb.view (a : Arb) (v : ArbEnv) : ArbView := if a.h4 then a.seen else v.now

/-- A request has been in a decision by now (R264): in native mode that of the cycle it is presented in; in H4 mode it is
visible to the decision of the next cycle, for the grant of the one after. -/
def Arb.decided (a : Arb) (x : ArbReq) : Bool := !a.h4 || decide (x.age + 2 ≤ a.clock)

/-- A request may be granted now (R262, R264): no older request of its requester waits on the bench, no full queue holds it,
and in H4 mode it was visible in the cycle before. -/
def Arb.eligible (a : Arb) (v : ArbView) (r : ArbReq) : Bool :=
  !v.held r && !a.bench.any (fun x => x.req == r.req && decide (x.age < r.age)) && a.decided r

/-- The class a request ranks as: class 0 as class 1 while a Recess window is open (R260, R411). -/
def ArbReq.rank (x : ArbReq) (up : Bool) : Nat := if up && x.cls == 0 then 1 else x.cls

/-- `x` is granted before `y` (R263): class, then age, then the lower requester number; `up` in a Recess window. -/
def ArbReq.before (x y : ArbReq) (up : Bool) : Bool :=
  decide (y.rank up < x.rank up) || (x.rank up == y.rank up && (decide (x.age < y.age) || (x.age == y.age && decide (x.req < y.req))))

/-- The first of a list under `before`. -/
def firstReq (up : Bool) : List ArbReq → Option ArbReq
  | [] => none
  | x :: r =>
    match firstReq up r with
    | none => some x
    | some y => if y.before x up then some y else some x

/-- The request the arbiter would grant. -/
def Arb.choice (a : Arb) (v : ArbView) : Option ArbReq := firstReq v.up ((a.bench ++ a.stall).filter (a.eligible v))

/-- Grant a request: it leaves the bench or its port. -/
def Arb.give (a : Arb) (r : ArbReq) : Arb :=
  { a with
    holder := some r
    bench := dropFirst (fun x => decide (x = r)) a.bench
    stall := if a.bench.contains r then a.stall else dropFirst (fun x => decide (x = r)) a.stall }

/-- Park what is presented, in order, while the bench takes it. -/
def parkAll (a : Arb) : List ArbReq → Arb
  | [] => a
  | r :: l => parkAll (a.park r) l

/-- The losers of a decision park (R262); a request no decision has seen yet stays presented, and a withdrawn one stays
visible for one more cycle at most (R264). -/
def Arb.settle (a : Arb) : Arb :=
  parkAll { a with stall := a.stall.filter (fun x => x.gone == some a.clock || (x.gone.isNone && !a.decided x)) }
    (a.stall.filter (fun x => x.gone.isNone && a.decided x))

/-- The requester withdraws what it presents and has not parked (R264): in H4 mode the decision already made or being made
can still fall on it. -/
def Arb.withdraw (a : Arb) (req : Nat) : Arb :=
  if a.h4 then { a with stall := a.stall.map (fun x => if x.req = req ∧ x.gone = none then { x with gone := some a.clock } else x) }
  else { a with stall := a.stall.filter (fun x => x.req != req) }

/-- The port of the requester stalls: it presents a request that has not been granted and has not parked (R262). -/
def Arb.stalled (a : Arb) (req : Nat) : Bool := a.stall.any (fun x => x.req == req && x.gone.isNone)

/-- ARBITER_REQUEST (R261-R263): a transfer of 1 to 16 beats is presented; its age counts from now. A stalled port presents nothing else.
The row also brings the withdrawal of R264, which has no row of its own (DESIGN CHOICE, log 94). -/
def Arb.request (a : Arb) (req cls : Nat) (what : Present) : Arb :=
  match what with
  | .withdraw => a.withdraw req
  | .transfer beats write =>
    if a.stalled req then a
    else { a with stall := a.stall ++ [{ req := req, cls := cls, beats := max 1 (min beats 16), write := write, age := a.clock }] }

/-- One beat of the transfer that holds the hall pass (R261); it lets go after its last. A full queue holds back a beat
that its port has not accepted in this cycle (R323). -/
def Arb.beat (a : Arb) (v : ArbEnv) : Arb :=
  match a.holder with
  | none => a
  | some h =>
    if v.now.held h && v.took != some a.clock then a
    else if h.moved + 1 < h.beats then { a with holder := some { h with moved := h.moved + 1 } } else { a with holder := none }

/-- A request of class 2 or 3 revokes a hall pass held at a lower class (R261), a withdrawn one that the decision still falls on
too (R264); the loser parks with its progress, and so does a holder whose queue has filled (R323). -/
def Arb.revoke (a : Arb) (v : ArbEnv) : Arb :=
  match a.holder with
  | some h =>
    if v.now.held h || (a.choice (a.view v)).any (fun c => decide (2 ≤ c.cls ∧ h.cls < c.cls)) then
      { a with holder := none }.park h
    else a
  | none => a

/-- The requests of a real-time port rank by its panic (R328). -/
def Arb.panicked (a : Arb) (v : ArbView) : Arb :=
  let f (r : ArbReq) : ArbReq := if isPort r.req r.cls then { r with cls := if v.panic.contains r.req then 3 else 2 } else r
  { a with holder := a.holder.map f, bench := a.bench.map f, stall := a.stall.map f }

/-- ARBITER_GRANT (R261-R264): one cycle of the arbiter: a beat moves, the hall pass may be revoked at the beat
boundary, a free arbiter grants, and the losers park. A grant to a withdrawn request is a lost cycle. In H4 mode the cycle's
decision goes by what was visible in the cycle before. -/
def Arb.cycle (a : Arb) (v : ArbEnv) : Arb :=
  let a := ((a.panicked (a.view v)).beat v).revoke v
  let a :=
    match a.holder, a.choice (a.view v) with
    | none, some c => if c.gone.isSome then { a with stall := dropFirst (fun x => decide (x = c)) a.stall } else a.give c
    | _, _ => a
  let a := a.settle
  { a with clock := a.clock + 1, seen := v.now }

/-- What arbiter `i` learns of the block: stack channel c's is number 64 + c. -/
def Dev.arbEnv (d : Dev) (i : Nat) : ArbEnv :=
  let c : Fin 16 := Fin.ofNat 16 (i - 64)
  let port := decide (64 ≤ i ∧ i < 80)
  { now := { up := d.recess, wfull := port && !d.takesWrite c, rfull := port && !d.takesRead c
             panic := (upto 13).filter (fun p => d.flag .memRtThr [p] 30) }
    took := if port then (d.chan c).took else none }

/-- The group of an arbiter (R268): 0 Commons banks, 1 stack ports, 2 Kwaos outputs. -/
def arbGroup (i : Nat) : Nat := if i < 64 then 0 else if i < 80 then 1 else 2

/-- ARB_MODE_CHANGE (R264, R268): the mode of TT_ARB_CTL reaches the arbiters of a group that have no hall pass
outstanding. -/
def arbMode (s : State) (g : Nat) : Vector Arb 84 :=
  s.arbs.mapIdx (fun i a => if arbGroup i = g ∧ a.holder.isNone then { a with h4 := s.dev.flag .ttArbCtl [] g } else a)

/-- ARBITER_REQUEST (R262, R263). -/
def execArbiterRequest (i : Fin 84) (req : Nat) (cls : Fin 4) (what : Present) (s : State) : Host.Outcome State Fault Refusal :=
  onArbs s (s.arbs.set i (s.arbs[i].request req cls.val what))
/-- ARBITER_GRANT (R261-R264); no cycle passes while Commons and the network have no clock (R400). -/
def execArbiterGrant (i : Fin 84) (s : State) : Host.Outcome State Fault Refusal :=
  onArbs s (if s.dev.pwr.commonsOff then s.arbs else s.arbs.set i (s.arbs[i].cycle (s.dev.arbEnv i.val)))
/-- ARB_MODE_CHANGE (R264, R268). -/
def execArbModeChange (g : Fin 3) (s : State) : Host.Outcome State Fault Refusal :=
  onArbs s (arbMode s g.val)

end Sys2Proof.Machine
end

