-- ==== Sys2Proof/Machine/ArrayPower.lean ====
section
/-! DEFINITION. Ramps of the matrix arrays (R152-R156) and the halo counters' clear (R238). -/

namespace Sys2Proof.Machine

def Dev.arr (d : Dev) (p : Fin 7) (i : Nat) : ArrSt := (d.core p).arr i
def Dev.modArr (d : Dev) (p : Fin 7) (i : Nat) (f : ArrSt → ArrSt) : Dev := d.modCore p (·.modArr i f)

/-- An MRUN is queued or running. -/
def ArrSt.hasRun (a : ArrSt) : Bool :=
  !a.runs.isEmpty || a.queue.any (fun o => match o with | .run _ => true | _ => false)

/-- ARRAY_IDLE_RAMP_DOWN (R153): no MRUN for IDLE_CYC core cycles; 0 never ramps down. -/
def Dev.idleRampDown (d : Dev) (p : Fin 7) (i : Nat) : Dev :=
  let a := d.arr p i
  let n := d.fld .coreArrIdle [p.val] 15 0
  if decide (a.pwr = .on) && !a.hasRun && n != 0 && decide (n ≤ a.idle) then d.modArr p i (fun a => { a with pwr := .down })
  else d

/-- ARRAY_RAMP_DOWN_STEP (R153, R154): one column step off; an array that waits for a grant steps no further. -/
def Dev.rampDownStep (d : Dev) (p : Fin 7) (i : Nat) : Dev :=
  let a := d.arr p i
  if decide (a.pwr = .down) && !a.waitsGrant && !d.arraysHeld then
    d.modArr p i (fun a => { a with step := a.step - 1, pwr := if a.step ≤ 1 then .gated else .down })
  else d

/-- Requests whose array still waits, in order. -/
def Dev.liveRamps (d : Dev) : List (Nat × Nat × Nat) :=
  d.rampReq.filter (fun r => ((d.slot r.2.1).arr r.2.2).waitsGrant)

/-- RAMP_GRANT (R154, R155, R377, R382): the first waiting request starts its ramp from the array's step, which with all
eight steps enabled is at its end; none while STATE is 1 or 2 or a relock is forced. -/
def Dev.rampGrant (d : Dev) : Dev :=
  let br := d.fld .pwrSupply [] 31 30
  match (if br = 1 ∨ br = 2 ∨ d.arraysHeld then [] else d.liveRamps) with
  | [] => d
  | (_, p, i) :: r =>
    let d : Dev := { d with rampReq := r }
    let d := d.modSlot p (fun c => c.modArr i (fun a =>
      { a with pwr := if 8 ≤ a.step then .on else .up, waitsGrant := false }))
    d.incMod .coreArrRamps [p] (if i = 0 then 15 else 31) (if i = 0 then 0 else 16) 1

/-- ARRAY_RAMP_UP_STEP (R154): one more column step; on after the eighth. -/
def Dev.rampUpStep (d : Dev) (p : Fin 7) (i : Nat) : Dev :=
  let a := d.arr p i
  if a.pwr = .up ∧ !d.arraysHeld then d.modArr p i (fun a => { a with step := a.step + 1, pwr := if 7 ≤ a.step then .on else .up })
  else d

/-- HALO_COUNTER_CLEAR (R238): the four halo counters become 0. -/
def Dev.haloClear (d : Dev) (p : Nat) : Dev :=
  ([Reg.coreHaloRdyUp, .coreHaloRdyDn, .coreHaloSpcUp, .coreHaloSpcDn] : List Reg).foldl
    (fun d r => d.setRg r [p] 0#32) d

/-- ARRAY_IDLE_RAMP_DOWN (R153). -/
def execArrayIdleRampDown (p : Fin 7) (arr : Fin 2) (s : State) : Host.Outcome State Fault Refusal :=
  onDev s (s.dev.idleRampDown p arr.val)
/-- ARRAY_RAMP_DOWN_STEP (R153). -/
def execArrayRampDownStep (p : Fin 7) (arr : Fin 2) (s : State) : Host.Outcome State Fault Refusal :=
  onDev s (s.dev.rampDownStep p arr.val)
/-- RAMP_GRANT (R155). -/
def execRampGrant (s : State) : Host.Outcome State Fault Refusal := onDev s s.dev.rampGrant
/-- ARRAY_RAMP_UP_STEP (R154). -/
def execArrayRampUpStep (p : Fin 7) (arr : Fin 2) (s : State) : Host.Outcome State Fault Refusal :=
  onDev s (s.dev.rampUpStep p arr.val)
/-- HALO_COUNTER_CLEAR (R238). -/
def execHaloCounterClear (p : Fin 7) (s : State) : Host.Outcome State Fault Refusal := onDev s (s.dev.haloClear p.val)

end Sys2Proof.Machine
end

