-- ==== Sys2Proof/Machine/Chain.lean ====
section
/-! DEFINITION. The management chain (R341-R346): roll call, closing, late joiners, ignored frames. -/

namespace Sys2Proof.Machine

/-- A chain frame (R342): TYPE 0 TOKEN, 1 FULL, 2 CLOSE. -/
def chainFrame (ty id count : Nat) : BitVec 32 :=
  BitVec.ofNat 32 (0xB * 2 ^ 28 + ty * 2 ^ 26 + id * 2 ^ 16 + count * 2 ^ 8 + ((id ^^^ count) ^^^ 0xA5))

/-- A received frame that R342 has ignored: SYNC, CHECK, TYPE or bits [25:24]. -/
def frameBad (f : BitVec 32) : Bool :=
  let x := f.toNat
  bits x 31 28 != 0xB || bits x 27 26 == 3 || bits x 25 24 != 0 ||
    bits x 7 0 != ((bits x 23 16 ^^^ bits x 15 8) ^^^ 0xA5)

def chState (d : Dev) : Nat := d.fld .chnStat [] 31 29
def chCount (d : Dev) : Nat := d.fld .chnStat [] 15 8
def chId (d : Dev) : Nat := d.fld .chnStat [] 7 0

/-- Change the outgoing frame, repeated from then on (R343). -/
def Dev.chainSend (d : Dev) (f : BitVec 32) : Dev :=
  { d with chn := { d.chn with frame := f, sending := true, sent := 1 } }

/-- Take an ID (R343, R347): enabled ports that waited for it begin to train (R445). -/
def Dev.takeId (d : Dev) (id : Nat) : Dev :=
  let d := ((d.setFld .chnStat [] 7 0 id).setFld .chnStat [] 31 29 1).setRg .chnTime [] (BitVec.ofNat 32 (d.now / 1000))
  ([0, 1, 2, 3] : List (Fin 4)).foldl (fun d k =>
    if d.flag .lnkCtl [k.val] 31 ∧ d.fld .lnkStat [k.val] 28 26 = 4 then d.train k else d) d

/-- Report BEYOND_ROSTER and send FULL (R343, R345). -/
def Dev.beyondRoster (d : Dev) : Dev :=
  let d := if chState d = 3 then d else (d.setFld .chnStat [] 31 29 3).log stBeyondRoster 8 0 0 0
  d.chainSend (chainFrame 1 0 0)

def Dev.setReturned (d : Dev) : Dev := { d with chn := { d.chn with returned := true } }

/-- Device 0 closes the roster with a count. -/
def Dev.closeRoster (d : Dev) (count : Nat) : Dev :=
  ((d.setFld .chnStat [] 15 8 count).setFld .chnStat [] 31 29 2).chainSend (chainFrame 2 0 count)

/-- A frame out of sequence (R344): device 0 makes no check. -/
def Dev.seqCheck (d : Dev) (id : Nat) : Dev :=
  if chId d ≠ 0 ∧ id + 1 ≠ chId d then d.setFld .chnStat [] 26 26 1 else d

/-- ROLL_CALL_START (R343): the head takes ID 0 and sends the first TOKEN. -/
def Dev.rollCall (d : Dev) : Dev :=
  if d.chn.head && d.ownId.isNone && !d.chn.started then
    let d : Dev := { d with chn := { d.chn with started := true } }
    (d.takeId 0).chainSend (chainFrame 0 0 0)
  else d

/-- TOKEN (R343, R344). -/
def Dev.tokenIn (d : Dev) (id : Nat) : Dev :=
  if d.ownId.isNone then
    if id ≤ 190 then (d.takeId (id + 1)).chainSend (chainFrame 0 (id + 1) 0) else d.beyondRoster
  else if chId d = 0 then d.setReturned.closeRoster (id + 1)
  else d.seqCheck id

/-- FULL (R343). -/
def Dev.fullIn (d : Dev) : Dev :=
  if d.ownId.isNone then d.beyondRoster
  else if chId d = 0 then (d.setReturned.closeRoster 192).setFld .chnStat [] 22 22 1
  else d

/-- CLOSE (R343-R345). -/
def Dev.closeIn (d : Dev) (id count : Nat) : Dev :=
  if d.ownId.isNone then
    if id ≤ 190 then
      let d := (d.takeId (id + 1)).setFld .chnStat [] 27 27 1
      ((d.setFld .chnStat [] 15 8 count).setFld .chnStat [] 31 29 2).chainSend (chainFrame 2 (id + 1) count)
    else d.beyondRoster
  else if chId d = 0 then
    let d := d.setReturned
    if chCount d < id + 1 then (d.closeRoster (id + 1)).setFld .chnStat [] 23 23 1 else d
  else if id + 1 ≠ chId d then d.seqCheck id
  else
    ((d.setFld .chnStat [] 15 8 count).setFld .chnStat [] 31 29 2).chainSend (chainFrame 2 (chId d) count)

/-- ROLL_CALL_TIMEOUT (R343, R346): nothing has come back to device 0. -/
def Dev.rollTimeout (d : Dev) : Dev :=
  if d.chn.started && !d.chn.returned && d.ownId == some 0 then (d.closeRoster 0).setFld .chnStat [] 25 25 1 else d

/-- CHAIN_NOCLK (R346): the head without a clock takes ID 0 with COUNT 1. -/
def Dev.noClk (d : Dev) : Dev :=
  if d.chn.head && d.ownId.isNone then
    (((d.takeId 0).setFld .chnStat [] 15 8 1).setFld .chnStat [] 31 29 2).setFld .chnStat [] 24 24 1
  else d

/-- CHAIN_FRAME_REPEAT (R343). -/
def Dev.frameRepeat (d : Dev) : Dev :=
  if d.chn.sending then { d with chn := { d.chn with sent := d.chn.sent + 1 } } else d

/-- ROLL_CALL_START (R343). -/
def execRollCallStart (s : State) : Host.Outcome State Fault Refusal := onDev s s.dev.rollCall
/-- TOKEN (R343). -/
def execToken (id : BitVec 8) (s : State) : Host.Outcome State Fault Refusal := onDev s (s.dev.tokenIn id.toNat)
/-- FULL (R343). -/
def execFull (s : State) : Host.Outcome State Fault Refusal := onDev s s.dev.fullIn
/-- CLOSE (R343, R345). -/
def execClose (id count : BitVec 8) (s : State) : Host.Outcome State Fault Refusal :=
  onDev s (s.dev.closeIn id.toNat count.toNat)
/-- CHAIN_FRAME_REPEAT (R343). -/
def execChainFrameRepeat (s : State) : Host.Outcome State Fault Refusal := onDev s s.dev.frameRepeat
/-- ROLL_CALL_TIMEOUT (R343). -/
def execRollCallTimeout (s : State) : Host.Outcome State Fault Refusal := onDev s s.dev.rollTimeout
/-- CHAIN_NOCLK (R346). -/
def execChainNoclk (s : State) : Host.Outcome State Fault Refusal := onDev s s.dev.noClk
/-- IGNORED_CHAIN_FRAME (R342): a bad frame counts in BADF, which stops at 63. -/
def execIgnoredChainFrame (f : BitVec 32) (s : State) : Host.Outcome State Fault Refusal :=
  onDev s (if frameBad f then s.dev.incSat .chnStat [] 21 16 1 else s.dev)

end Sys2Proof.Machine
end

