-- ==== Sys2Proof/Machine/EaselPixels.lean ====
section
/-! DEFINITION. Easel's pixel arithmetic and slot layout (R300, R301). -/

namespace Sys2Proof.Machine

/-- A number read from an assembler's block. -/
def AsmSt.n (a : AsmSt) (off len : Nat) : Nat := recNat a.blk off len
def AsmSt.batch (a : AsmSt) : Nat := a.n 0 1
def AsmSt.layout (a : AsmSt) : Nat := a.n 1 1
def AsmSt.ofmt (a : AsmSt) : EFmt := (efmtOf (a.n 2 1)).getD .uint8
def AsmSt.mode (a : AsmSt) : Nat := bits (a.n 3 1) 1 0
def AsmSt.matrix (a : AsmSt) : Nat := bits (a.n 3 1) 3 2
def AsmSt.area (a : AsmSt) : Bool := bit (a.n 3 1) 4
def AsmSt.letterbox (a : AsmSt) : Bool := bit (a.n 3 1) 5
def AsmSt.outW (a : AsmSt) : Nat := a.n 4 2
def AsmSt.outH (a : AsmSt) : Nat := a.n 6 2
def AsmSt.nbuf (a : AsmSt) : Nat := a.n 8 1
def AsmSt.slotBytes (a : AsmSt) : Nat := a.n 24 4
def AsmSt.pitch (a : AsmSt) : Nat := a.n 28 4
/-- NC (R296). -/
def AsmSt.nc (a : AsmSt) : Nat := if a.mode = 2 then 1 else 3
/-- The output zero point as a number. -/
def AsmSt.zp (a : AsmSt) : Int := if a.ofmt = .int8 then sgn 8 (a.n 9 1) else (a.n 9 1 : Nat)
def AsmSt.stride (a : AsmSt) : Nat := a.batch * a.slotBytes + 128 * ceilDiv a.batch 8
/-- The buffer of batch `b` (R296, R303). -/
def AsmSt.buffer (a : AsmSt) (b : Nat) : Nat := a.n 16 8 + (b % a.nbuf) * a.stride
/-- Channel `c` of a block's three FP32 values. -/
def AsmSt.f32At (a : AsmSt) (off c : Nat) : W32 := BitVec.ofNat 32 (a.n (off + 4 * c) 4)
/-- FILL of channel `c`, widened. -/
def AsmSt.fill (a : AsmSt) (c : Nat) : W32 := f32Of (fpDec fp16 (a.n (56 + 2 * c) 2))
/-- Bytes per element. -/
def AsmSt.ebytes (a : AsmSt) : Nat := a.ofmt.bits / 8

/-! ## Source samples -/

/-- Subsampled horizontally, vertically: component `c` of a format. -/
def subOf (fmt c : Nat) : Bool × Bool :=
  if c = 0 then (false, false) else if fmt = 0 ∨ fmt = 1 then (true, true) else if fmt = 2 then (true, false) else (false, false)

/-- Size of the plane of component `c`. -/
def compSize (x : ESample) (c : Nat) : Nat × Nat :=
  let (sh, sv) := subOf x.fmt c
  (if sh then ceilDiv x.w 2 else x.w, if sv then ceilDiv x.h 2 else x.h)

/-- Where the code of component `c` at a pixel of its plane lies; a Y8 frame has no chroma. -/
def srcAddr (x : ESample) (c ix iy : Nat) : Option Nat :=
  let p (k : Nat) : Nat := x.addr + x.pitch * x.h * k + iy * x.pitch
  match x.fmt with
  | 0 | 2 => some (if c = 0 then p 0 + ix else p 1 + 2 * ix + (c - 1))
  | 1 => some (if c = 0 then p 0 + 2 * ix else p 1 + 4 * ix + 2 * (c - 1))
  | 3 => some (p c + ix)
  | 5 => some (p 0 + 3 * ix + c)
  | _ => if c = 0 then some (p 0 + ix) else none

/-- Bytes of a code. -/
def codeBytes (fmt : Nat) : Nat := if fmt = 1 then 2 else 1

/-- Mid-grey of a format, normalised. -/
def greyCode (fmt : Nat) : W32 := if fmt = 1 then f32OfRat false 512 1023 0 else f32OfRat false 128 255 0

/-- A source pixel is poisoned. -/
def srcBad (d : Dev) (x : ESample) (c ix iy : Nat) : Bool :=
  (srcAddr x c ix iy).any (fun a => d.poisonedN a (codeBytes x.fmt))

/-- The normalised value of component `c` at a pixel of its plane: code / 255, or / 1,023 for 10 bits. A Y8 frame has
mid-grey chroma (DEDUCED, log 45); P010 keeps its code in the upper ten bits (PRESUMED, log 43); a poisoned pixel is concealed
with mid-grey, for which Easel has no reference picture (DEDUCED, log 98). -/
def srcAt (d : Dev) (x : ESample) (c ix iy : Nat) : W32 :=
  match srcAddr x c ix iy with
  | none => greyCode x.fmt
  | some a =>
    if d.poisonedN a (codeBytes x.fmt) then greyCode x.fmt
    else if x.fmt = 1 then f32OfRat false (d.loadNat a 2 / 64) 1023 0
    else f32OfRat false (d.loadNat a 1) 255 0

/-- floor of an FP32 value. -/
def f32Floor (x : W32) : Int :=
  match f32Dec x with
  | .fin s m e =>
    let n : Int := if 0 ≤ e then (m * 2 ^ e.toNat : Nat) else 0
    if 0 ≤ e then (if s then -n else n)
    else
      let q := m / 2 ^ (-e).toNat
      let r := m % 2 ^ (-e).toNat
      if s then -((q + (if r = 0 then 0 else 1) : Nat) : Int) else (q : Int)
  | _ => 0

def f32Half : W32 := 0x3F000000#32
def f32One : W32 := 0x3F800000#32

/-- a + rne(f x rne(b - a)), rounded. -/
def lerp (a f b : W32) : W32 := f32Add a (f32Mul f (f32Sub b a))

/-- Clamp a pixel index to the plane. -/
def pixIx (i : Int) (n : Nat) : Nat := (clampI i 0 ((n : Int) - 1)).toNat

/-- sample with AREA = 0 (R300). -/
def bilinear (d : Dev) (x : ESample) (c : Nat) (sx sy : W32) : W32 :=
  let (w, h) := compSize x c
  let u := f32Sub sx f32Half
  let v := f32Sub sy f32Half
  let i := f32Floor u
  let j := f32Floor v
  let fx := f32Sub u (f32OfInt i 0)
  let fy := f32Sub v (f32OfInt j 0)
  let px (i j : Int) : W32 := srcAt d x c (pixIx i w) (pixIx j h)
  lerp (lerp (px i j) fx (px (i + 1) j)) fy (lerp (px i (j + 1)) fx (px (i + 1) (j + 1)))

/-- The exact value (2 i + 1) / 2 lies within [s - len / (2 n), s + len / (2 n)). -/
def inBox (i : Nat) (s : W32) (len n : Nat) : Bool :=
  match fvAdd (fvMul (.fin false ((2 * i + 1) * n) 0) (.fin false 1 0)) (fvNeg (fvMul (.fin false (2 * n) 0) (f32Dec s))) with
  | .fin neg m e =>
    let k : Nat := if 0 ≤ e then m * 2 ^ e.toNat else m
    let l : Nat := if 0 ≤ e then len else len * 2 ^ (-e).toNat
    if neg then decide (k ≤ l) else decide (k < l)
  | _ => false

/-- The rows and columns of the plane whose pixel centres lie in the box of AREA = 1. -/
def areaBox (x : ESample) (cw ch c : Nat) (sx sy : W32) : List Nat × List Nat :=
  let (w, h) := compSize x c
  let (sh, sv) := subOf x.fmt c
  ((upto w).filter (fun i => inBox i sx x.reg.w ((if sh then 2 else 1) * cw)),
    (upto h).filter (fun j => inBox j sy x.reg.h ((if sv then 2 else 1) * ch)))

/-- sample with AREA = 1: the mean of the pixels whose centres lie in the box, in row-major order; the bilinear value
where there is none (R300). On a subsampled axis the box is half as long in plane pixels (DEDUCED, log 45). -/
def areaSample (d : Dev) (x : ESample) (cw ch c : Nat) (sx sy : W32) : W32 :=
  let (xs, ys) := areaBox x cw ch c sx sy
  let n := xs.length * ys.length
  if n = 0 then bilinear d x c sx sy
  else
    let sum := ys.foldl (fun a j => xs.foldl (fun a i => f32Add a (srcAt d x c i j)) a) 0#32
    f32Div sum (f32OfInt n 0)

/-! The standards' numbers (PRESUMED, log 45): luma weights of BT.601 and BT.709; limited range is 219 luma and 224 chroma
steps of 255 from code 16, at ten bits 876 and 896 of 1,023 from code 64; chroma is centred on code 128 or 512. -/

/-- The weights of red, green and blue in 1 / 10,000: matrices 0 and 1 are BT.601, 2 and 3 BT.709. -/
def lumaOf (m j : Nat) : Nat :=
  let w := if m < 2 then (2990, 5870, 1140) else (2126, 7152, 722)
  if j = 0 then w.1 else if j = 1 then w.2.1 else w.2.2

/-- Steps of a component's range and of the code: full range matrices are 1 and 3. -/
def rangeOf (m : Nat) (ten : Bool) (c : Nat) : Nat × Nat :=
  if m % 2 = 1 then (1, 1) else if ten then (if c = 0 then 876 else 896, 1023) else (if c = 0 then 219 else 224, 255)

/-- The offset of a component as a normalised value. -/
def offsetOf (m : Nat) (ten : Bool) (c : Nat) : W32 :=
  let n := if c = 0 then (if m % 2 = 1 then 0 else 16) else 128
  f32OfRat false (if ten then 4 * n else n) (if ten then 1023 else 255) 0

/-- The FP32 coefficient nearest to that of input `j` (red, green, blue) in output `c` (Y, U, V). -/
def coefForward (m : Nat) (ten : Bool) (c j : Nat) : W32 :=
  let (r, q) := rangeOf m ten c
  if c = 0 then f32OfRat false (r * lumaOf m j) (q * 10000) 0
  else
    let own := if c = 1 then 2 else 0
    let den := 2 * (10000 - lumaOf m own)
    if j = own then f32OfRat false (r * (10000 - lumaOf m own)) (q * den) 0 else f32OfRat true (r * lumaOf m j) (q * den) 0

/-- The FP32 coefficient nearest to that of input `j` (Y, U, V) in output `c` (red, green, blue). -/
def coefInverse (m : Nat) (ten : Bool) (c j : Nat) : W32 :=
  let (r, q) := rangeOf m ten j
  if j = 0 then f32OfRat false q r 0
  else
    let own := if j = 1 then 2 else 0
    let k := 2 * (10000 - lumaOf m own)
    if c = own then f32OfRat false (q * k) (r * 10000) 0
    else if c = 1 then f32OfRat true (q * k * lumaOf m own) (r * 10000 * lumaOf m 1) 0
    else 0#32

/-- The rne sum, in the order of the inputs, of rne products (R300). -/
def matrixSum (t : Nat → W32) : W32 := f32Add (f32Add (t 0) (t 1)) (t 2)

/-- Output `c` of the forward matrix; its offset is added last (DEDUCED, log 45). -/
def colourForward (m : Nat) (ten : Bool) (c : Nat) (v : Nat → W32) : W32 :=
  f32Add (matrixSum (fun j => f32Mul (coefForward m ten c j) (v j))) (offsetOf m ten c)

/-- Output `c` of the inverse matrix; the inputs' offsets are taken off first (DEDUCED, log 45). -/
def colourInverse (m : Nat) (ten : Bool) (c : Nat) (v : Nat → W32) : W32 :=
  matrixSum (fun j => f32Mul (coefInverse m ten c j) (f32Sub (v j) (offsetOf m ten j)))

/-- colour of R300: the inputs are Y, U, V, or R, G, B of an RGB888 frame. Answers the channels of the assembler's mode. -/
def colour (a : AsmSt) (fmt : Nat) (v : Nat → W32) : List W32 :=
  let ten := decide (fmt = 1)
  let yuv (c : Nat) : W32 := if fmt = 5 then colourForward a.matrix ten c v else v c
  let rgb (c : Nat) : W32 := if fmt = 5 then v c else colourInverse a.matrix ten c v
  match a.mode with
  | 0 => [rgb 0, rgb 1, rgb 2]
  | 1 => [rgb 2, rgb 1, rgb 0]
  | 2 => [yuv 0]
  | _ => [yuv 0, yuv 1, yuv 2]

/-- clamp(x, 0, 1) of an FP32 value: x itself within the bounds, so -0 stays. -/
def f32Clamp01 (x : W32) : W32 := if f32Lt x 0#32 then 0#32 else if f32Lt f32One x then f32One else x

/-- Scaled size and offset in the output (R300): cw, ch, ox, oy. -/
def fitBox (a : AsmSt) (r : ERegion) : Nat × Nat × Nat × Nat :=
  if a.letterbox then
    let wide := decide (a.outW * r.h ≤ a.outH * r.w)
    let cw := if wide then a.outW else max 1 (rndAway (r.w * a.outH) r.h)
    let ch := if wide then max 1 (rndAway (r.h * a.outW) r.w) else a.outH
    (cw, ch, (a.outW - cw) / 2, (a.outH - ch) / 2)
  else (a.outW, a.outH, 0, 0)

/-- The source point of output pixel (u, v) (R300); none where the output is filled. -/
def srcPoint (a : AsmSt) (x : ESample) (u v : Nat) : Option (W32 × W32) :=
  let (cw, ch, ox, oy) := fitBox a x.reg
  if u < ox ∨ ox + cw ≤ u ∨ v < oy ∨ oy + ch ≤ v then none
  else
    let h16 (n : Nat) : W32 := f32Of (fpDec fp16 n)
    let pos (i n : Nat) : W32 := f32Sub (f32Div (f32OfRat false (2 * i + 1) 2 0) (f32OfInt n 0)) f32Half
    let px0 := pos (u - ox) cw
    let px := if x.reg.flip then px0 ^^^ 0x80000000#32 else px0
    let py := pos (v - oy) ch
    let q (p0 p1 : Nat) : W32 := f32Add (f32Mul (h16 p0) px) (f32Mul (h16 p1) py)
    let s (q : W32) (len : Nat) (off : Int) : W32 := f32Add (f32Mul (f32Add q f32Half) (f32OfInt len 0)) (f32OfInt off 0)
    let sx := s (q x.reg.a00 x.reg.a01) x.reg.w (x.reg.x + x.reg.dx)
    some (sx, s (q x.reg.a10 x.reg.a11) x.reg.h (x.reg.y + x.reg.dy))

/-- A source point in the plane of component `c`. -/
def planePoint (x : ESample) (c : Nat) (p : W32 × W32) : W32 × W32 :=
  let (hh, vv) := subOf x.fmt c
  (if hh then f32Mul p.1 f32Half else p.1, if vv then f32Mul p.2 f32Half else p.2)

/-- The pixels of a plane that a sample at a source point is made of. -/
def srcPixels (a : AsmSt) (x : ESample) (c : Nat) (p : W32 × W32) : List (Nat × Nat) :=
  let (cw, ch, _, _) := fitBox a x.reg
  let (sx, sy) := planePoint x c p
  let (xs, ys) := if a.area then areaBox x cw ch c sx sy else ([], [])
  if xs.isEmpty ∨ ys.isEmpty then
    let (w, h) := compSize x c
    let i := f32Floor (f32Sub sx f32Half)
    let j := f32Floor (f32Sub sy f32Half)
    [j, j + 1].flatMap (fun j => [i, i + 1].map (fun i => (pixIx i w, pixIx j h)))
  else ys.flatMap (fun j => xs.map (fun i => (i, j)))

/-- The components the assembler's mode reads of a frame. -/
def compsOf (a : AsmSt) (fmt : Nat) : List Nat := if a.mode = 2 ∧ fmt ≠ 5 then [0] else [0, 1, 2]

/-- The conversion of a sample reads a poisoned pixel (R399). -/
def Dev.sampleHarmed (d : Dev) (a : AsmSt) (x : ESample) : Bool :=
  !d.poison.isEmpty && (upto a.outH).any (fun v => (upto a.outW).any (fun u => (srcPoint a x u v).any (fun p =>
    (compsOf a x.fmt).any (fun c => (srcPixels a x c p).any (fun e => srcBad d x c e.1 e.2)))))

/-- The channels of output pixel (u, v) before MEAN and SCALE (R300). -/
def outPixel (d : Dev) (a : AsmSt) (x : ESample) (u v : Nat) : List W32 :=
  match srcPoint a x u v with
  | none => (upto a.nc).map a.fill
  | some p =>
    let (cw, ch, _, _) := fitBox a x.reg
    let h16 (n : Nat) : W32 := f32Of (fpDec fp16 n)
    let at_ (c : Nat) : W32 :=
      let (sx, sy) := planePoint x c p
      if a.area then areaSample d x cw ch c sx sy else bilinear d x c sx sy
    (colour a x.fmt at_).map (fun c => f32Clamp01 (f32Add (f32Mul c (h16 x.reg.contrast)) (h16 x.reg.bright)))

/-- Byte offset of element (c, y, x) of a slot (R301). -/
def elemOff (a : AsmSt) (c y x : Nat) : Nat :=
  match a.layout with
  | 0 => c * a.outH * a.pitch + y * a.pitch + x * a.ebytes
  | 1 => y * a.pitch + (x * a.nc + c) * a.ebytes
  | _ => y * a.pitch + (x * 16 + c) * a.ebytes

/-- The element that stands for zero: code ZP, or +0 (R301). -/
def AsmSt.zeroElem (a : AsmSt) : Nat := if a.ofmt.isInt then a.n 9 1 else 0

/-- Lanes a pixel occupies. -/
def AsmSt.lanes (a : AsmSt) : Nat := if a.layout = 2 then 16 else a.nc

/-- Write one pixel's elements: channels `cs`, the lanes beyond them zero. -/
def putPixel (d : Dev) (a : AsmSt) (slot y x : Nat) (cs : List Nat) : Dev :=
  (upto a.lanes).foldl (fun d c => d.store (slot + elemOff a c y x) (leBytes a.ebytes (cs.getD c a.zeroElem))) d

/-- Write the slot of a converted sample (R300, R301): MEAN and SCALE, then narrow. -/
def Dev.putSample (d0 d : Dev) (a : AsmSt) (slot : Nat) (x : ESample) : Dev :=
  (upto a.outH).foldl (fun d v => (upto a.outW).foldl (fun d u =>
    let cs := (outPixel d0 a x u v).zip (upto 3)
    putPixel d a slot v u (cs.map (fun e =>
      (a.ofmt.enc a.zp (f32Dec (f32Mul (f32Sub e.1 (a.f32At 32 e.2)) (a.f32At 44 e.2)))).1))) d) d

/-- Write an ABSENT slot (R301). -/
def Dev.putAbsent (d : Dev) (a : AsmSt) (slot : Nat) : Dev :=
  (upto a.outH).foldl (fun d v => (upto a.outW).foldl (fun d u => putPixel d a slot v u []) d) d

end Sys2Proof.Machine
end

