-- ==== Sys2Proof/Machine/Easel.lean ====
section
/-! DEFINITION. Easel: stream-table entries, recipes, reservation, batches, records, age, lateness and groups
(R295-R310, R316). -/

namespace Sys2Proof.Machine

def Dev.asm (d : Dev) (a : Fin 16) : AsmSt := d.med.easel.asms[a]
def Dev.setAsm (d : Dev) (a : Fin 16) (x : AsmSt) : Dev :=
  { d with med := { d.med with easel := { d.med.easel with asms := d.med.easel.asms.set a x } } }
/-- An assembler number as an index. -/
def finAsm (a : Nat) : Fin 16 := Fin.ofNat 16 a
def Dev.asmOn (d : Dev) (a : Nat) : Bool := d.flag .easelAsmCtl [a] 31
def Dev.modEasel (d : Dev) (f : EaselSt → EaselSt) : Dev := { d with med := { d.med with easel := f d.med.easel } }

/-- All bytes of a range are 0. -/
def zeros (b : List Byte) (off len : Nat) : Bool := recNat b off len == 0

/-! ## Records and decisions (R306, R421) -/

/-- The record ring is full. -/
def asmFull (d : Dev) (a : AsmSt) : Bool := decide (2 ^ a.n 72 1 ≤ a.recCount - d.loadNat (a.n 64 8) 8)

/-- Write a 32-byte record: bytes 2-31, then 0 and 1. -/
def Dev.asmRecord (d : Dev) (a : Fin 16) (kind : Nat) (body : List Byte) : Dev :=
  let x := d.asm a
  let i := (x.recIdx + 1) % 2 ^ x.n 72 1
  let d := d.store (x.n 64 8 + 64 + 32 * x.recIdx)
    ([BitVec.ofNat 8 kind, BitVec.ofNat 8 (b2n x.recPh)] ++ (body ++ List.replicate 30 0#8).take 30)
  d.setAsm a { x with recIdx := i, recPh := if i = 0 then !x.recPh else x.recPh, recCount := x.recCount + 1 }

/-- A notice; one that finds the ring full is discarded and counted (R306). -/
def Dev.asmNotice (d : Dev) (a : Fin 16) (st : Byte) (stream id ts : Nat) : Dev :=
  if asmFull d (d.asm a) then d.incSat .easelAsmStat [a.val] 31 24 1
  else d.asmRecord a 2 ([st, BitVec.ofNat 8 stream] ++ leBytes 4 id ++ leBytes 8 ts)

/-- A DECISION record (R421); the place of a reserved byte before the batch number is PRESUMED (log 47). -/
def Dev.decision (d : Dev) (id stream region kind batch slot : Nat) : Dev :=
  d.record 5 (leBytes 4 id ++ [BitVec.ofNat 8 stream, BitVec.ofNat 8 region, BitVec.ofNat 8 kind, 0#8] ++ leBytes 4 batch ++
    [BitVec.ofNat 8 slot, 0#8, 0#8, 0#8])

def noId : Nat := 0xFFFFFFFF

/-- A stream an assembler serves: it stands in the DECISION records of slots without a sample (log 56). -/
def asmStream (d : Dev) (a : Fin 16) : Nat :=
  (d.med.easel.binds.findSome? (fun e => match e.2 with
    | .bound b => if b.asm = a.val then some e.1 else none
    | .refused _ => none)).getD 0

/-! ## Re-runs (R422) -/

/-- A DECISION record still to come: kind, sample, and where given its batch and slot. -/
def RecEnt.isDecision (r : RecEnt) (kind id stream region : Nat) : Bool :=
  r.kind == 5 && recNat r.data 6 1 == kind && recNat r.data 0 4 == id && recNat r.data 4 1 == stream &&
    recNat r.data 5 1 == region

/-- The recording still decides so about the sample in slot `i` of batch `n`. -/
def Dev.toCome (d : Dev) (kind : Nat) (x : ESample) (n i : Nat) : Bool :=
  match d.flt.mario with
  | some m => m.left.any (fun r => r.isDecision kind x.id x.stream x.region && recNat r.data 8 4 == n && recNat r.data 12 1 == i)
  | none => false

/-- The recording's RECIPE record of a frame. -/
def isRecipe (s no : Nat) (r : RecEnt) : Bool := recNat r.data 0 1 == s && recNat r.data 1 2 == no

/-! ## Assembler blocks (R296) -/

/-- Bytes from a slot's start to the end of the last element that the layout places (R301). -/
def AsmSt.placed (a : AsmSt) : Nat :=
  let rows (lanes : Nat) : Nat := (a.outH - 1) * a.pitch + a.outW * lanes * a.ebytes
  match a.layout with
  | 0 => (a.nc - 1) * a.outH * a.pitch + rows 1
  | 1 => rows a.nc
  | _ => rows 16

/-- The rules of R296's table: PITCH holds a row and SLOT_BYTES all that R301 places. -/
def asmBlockOk (d : Dev) (b : List Byte) : Bool :=
  let a : AsmSt := { blk := b }
  let o := a.n 2 1
  let isz := a.slotBytes
  decide (1 ≤ a.batch ∧ a.batch ≤ 64) && decide (a.layout ≤ 2) && [0, 1, 5, 6, 7].contains o && decide (a.n 3 1 < 64) &&
    decide (1 ≤ a.outW ∧ a.outW ≤ 4096) && decide (1 ≤ a.outH ∧ a.outH ≤ 4096) && decide (1 ≤ a.nbuf ∧ a.nbuf ≤ 16) &&
    (a.ofmt.isInt || a.n 9 1 == 0) && decide (100 ≤ a.n 12 4 ∧ a.n 12 4 ≤ 1000000) && a.n 16 8 % 128 == 0 &&
    isz % 128 == 0 && a.pitch % 16 == 0 && zeros b 62 2 && decide (4 ≤ a.n 72 1 ∧ a.n 72 1 ≤ 12) && zeros b 73 55 &&
    decide (a.outW * (if a.layout = 0 then 1 else if a.layout = 1 then a.nc else 16) * a.ebytes ≤ a.pitch) && decide (a.placed ≤ isz) &&
    d.reach (a.n 16 8) (a.nbuf * a.stride) && d.reach (a.n 64 8) (64 + 32 * 2 ^ a.n 72 1)

/-! ## Stream-table entries (R295, R310) -/

/-- The entry of stream `s` that was accepted, while its assembler is enabled. -/
def Dev.bindOf (d : Dev) (s : Nat) : Option EBind :=
  match keyed d.med.easel.binds s with
  | some (.bound b) => if d.asmOn b.asm then some b else none
  | _ => none

/-- Accepted members of group `g`: stream and entry. -/
def Dev.members (d : Dev) (g : Nat) : List (Nat × EBind) :=
  d.med.easel.binds.filterMap (fun e =>
    match e.2 with
    | .bound b => if b.group = some g ∧ d.asmOn b.asm then some (e.1, b) else none
    | .refused _ => none)

def Dev.stabAt (d : Dev) (s : Nat) : Nat := hiLo (d.rg .easelStabHi []) (d.rg .easelStabLo []) + 32 * s

/-- The rules of R295 and R310 for the entry `e` of stream `s`. Easel must reach every entry of the recipe ring, and at
DEFAULT the 576 bytes of a whole recipe (R297). -/
def entryOk (d : Dev) (s : Nat) (e : List Byte) : Bool :=
  let a := recNat e 0 1 % 16
  let g := recNat e 1 1
  let m := recNat e 2 1
  let rl := recNat e 3 1
  let n := d.fld .easelGrpCfg [g % 16] 18 16
  bits (recNat e 0 1) 6 4 == 0 && bits g 6 4 == 0 && decide (m ≤ 7) && decide (4 ≤ rl ∧ rl ≤ 12) && zeros e 24 8 &&
    (recNat e 8 8 == 0 || d.reach (recNat e 8 8) (64 + 576 * 2 ^ rl)) && d.reach (recNat e 16 8) 576 &&
    !(decide (s < 16) && d.flag .capVcCfg [s] 27) &&
    (!bit g 7 || (decide (m ≤ n) && decide (n + 1 ≤ (d.asm (finAsm a)).batch) &&
      (d.members (g % 16)).all (fun x => x.1 == s || (x.2.asm == a && x.2.member != m))))

/-- Read the entry of stream `s`, if it names an enabled assembler: accepted, or refused with ERR. An entry that Easel does not
reach is not read; its access counts where it falls in the Proctor region (R36). -/
def Dev.readEntry (d : Dev) (s : Nat) : Dev :=
  let e := d.load (d.stabAt s) 32
  let a := recNat e 0 1 % 16
  if !d.reach (d.stabAt s) 32 then d.viol (d.stabAt s)
  else if !bit (recNat e 0 1) 7 || !d.asmOn a then d
  else if entryOk d s e then
    let g := recNat e 1 1
    d.modEasel (fun x => { x with binds := setKeyed x.binds s (.bound {
      asm := a, group := if bit g 7 then some (g % 16) else none, member := recNat e 2 1, rlog := recNat e 3 1
      maxAge := recNat e 4 4, recipe := recNat e 8 8, dflt := recNat e 16 8 }) })
  else
    ((d.violAny [recNat e 8 8, recNat e 16 8]).modEasel (fun x => { x with binds := setKeyed x.binds s (.refused a) })).setFld
      .easelAsmCtl [a] 30 30 1

/-- A record of stream `s` arrives: its entry is read if it names an assembler that has seen none since its enable (R295). -/
def Dev.firstRecord (d : Dev) (s : Nat) : Dev :=
  let fresh := (upto 16).filter (fun a => d.asmOn a && !d.med.easel.seen.contains (s, a))
  if fresh.isEmpty then d
  else
    let d := d.modEasel (fun x => { x with seen := x.seen ++ fresh.map (fun a => (s, a)) })
    if !d.reach (d.stabAt s) 32 || fresh.contains (recNat (d.load (d.stabAt s) 1) 0 1 % 16) then d.readEntry s else d

/-- ASSEMBLER_ENABLE (R295, R296, R316). -/
def Dev.asmEnable (d : Dev) (a : Fin 16) : Dev :=
  if d.asmOn a.val then d
  else
    let base := hiLo (d.rg .easelAsmBaseHi [a.val]) (d.rg .easelAsmBaseLo [a.val])
    let b := d.load base 128
    if d.reach base 128 && asmBlockOk d b then
      let names (e : Nat × BindSt) : Bool := match e.2 with | .bound x => x.asm == a.val | .refused x => x == a.val
      let again := (d.med.easel.binds.filter names).map (·.1)
      let d := (d.setAsm a { blk := b }).setFld .easelAsmCtl [a.val] 31 31 1
      let d := d.modEasel (fun x => { x with
        binds := x.binds.filter (fun e => !names e), sets := x.sets.filter (fun y => y.asm != a.val)
        seen := x.seen.filter (fun e => e.2 != a.val) ++ again.map (fun s => (s, a.val)) })
      ((upto 144).filter (again.contains ·)).foldl Dev.readEntry d
    else (d.violAny [base, recNat b 16 8, recNat b 64 8]).setFld .easelAsmCtl [a.val] 30 30 1

/-- ASSEMBLER_DISABLE (R310, R316): no more reservations, its groups are released. -/
def Dev.asmDisable (d : Dev) (a : Fin 16) : Dev :=
  (d.setFld .easelAsmCtl [a.val] 31 31 0).modEasel (fun x => { x with sets := x.sets.filter (fun y => y.asm != a.val) })

/-- GROUP_CONFIG_WRITE (R310). -/
def Dev.groupWrite (d : Dev) (g : Fin 16) (v : W32) : Dev :=
  if (d.members g.val).isEmpty then d.plainWrite .easelGrpCfg [g.val] v else d

/-! ## Recipes (R297-R299) -/

def parseRegion (r : List Byte) (i : Nat) : ERegion :=
  let o := 64 + 32 * i
  { x := recNat r o 2, y := recNat r (o + 2) 2, w := recNat r (o + 4) 2, h := recNat r (o + 6) 2
    dx := sgn 16 (recNat r (o + 8) 2), dy := sgn 16 (recNat r (o + 10) 2), bright := recNat r (o + 12) 2
    contrast := recNat r (o + 14) 2, a00 := recNat r (o + 16) 2, a01 := recNat r (o + 18) 2, a10 := recNat r (o + 20) 2
    a11 := recNat r (o + 22) 2, flip := bit (recNat r (o + 24) 1) 0 }

def recipeN (r : List Byte) : Nat := recNat r 2 1

/-- No reserved value in a recipe. -/
def recipeOk (r : List Byte) : Bool :=
  recNat r 0 1 == 1 && decide (recNat r 1 1 < 2) && decide (1 ≤ recipeN r ∧ recipeN r ≤ 16) && decide (recNat r 3 1 < 4) &&
    zeros r 6 2 && zeros r 12 52 && (upto (recipeN r)).all (fun i =>
      let g := parseRegion r i
      decide (1 ≤ g.w ∧ g.w ≤ 8192 ∧ 1 ≤ g.h ∧ g.h ≤ 8192) && decide (recNat r (64 + 32 * i + 24) 1 < 2) &&
        zeros r (64 + 32 * i + 25) 7)

/-- Compare an exact value with an integer: v ≤ n. -/
def fvLe (v : FV) (n : Int) : Bool :=
  match fvAdd v (fvOfInt (-n)) with
  | .fin neg m _ => neg || m == 0
  | .inf neg => neg
  | .nan => false
def fvGe (v : FV) (n : Int) : Bool := fvLe (fvNeg v) (-n)

/-- A region that is not refused (R298, R300). -/
def regionOk (a : AsmSt) (fw fh : Nat) (g : ERegion) : Bool :=
  let m (x : Nat) : FV := fpDec fp16 x
  let inR (x : Nat) : Bool := fvLe (m x) 2 && fvGe (m x) (-2)
  let det := fvAdd (fvMul (m g.a00) (m g.a11)) (fvNeg (fvMul (m g.a01) (m g.a10)))
  let x0 : Int := (g.x : Int) + g.dx
  let y0 : Int := (g.y : Int) + g.dy
  let ident := g.a00 == 0x3C00 && g.a11 == 0x3C00 && fvLe (m g.a01) 0 && fvGe (m g.a01) 0 && fvLe (m g.a10) 0 && fvGe (m g.a10) 0
  inR g.a00 && inR g.a01 && inR g.a10 && inR g.a11 && fvLe det 4 && fvGe (fvMul det (fvOfInt 4)) 1 &&
    decide (0 < x0 + g.w ∧ x0 < fw ∧ 0 < y0 + g.h ∧ y0 < fh) && (!a.area || ident)

/-- Which entry a frame uses (R298), its group's rule included: the recipe, or none for the default. -/
def pickRecipe : Nat → Dev → Nat → EBind → Nat → Nat → Dev × EBind × Option (List Byte)
  | 0, d, _, b, _, _ => (d, b, none)
  | k + 1, d, s, b, no, ts =>
    let r := d.load (b.recipe + 64 + 576 * b.idx) 576
    if b.recipe = 0 ∨ bit (recNat r 1 1) 0 ≠ b.ph then (d, b, none)
    else
      let i := (b.idx + 1) % 2 ^ b.rlog
      let b' : EBind := { b with idx := i, ph := if i = 0 then !b.ph else b.ph, count := b.count + 1 }
      let used := d.store b.recipe (leBytes 8 (b.count + 1))
      let df := (recNat r 4 2 + 65536 - no) % 65536
      if !recipeOk r || (b.group.isSome && recipeN r != 1) then
        (used.asmNotice (finAsm b.asm) stCommandInvalid s noId ts, b', none)
      else if !bit (recNat r 3 1) 0 || df = 0 then (used, b', some r)
      else if df < 32768 then (d, b, none)
      else pickRecipe k (used.asmNotice (finAsm b.asm) stCommandInvalid s noId ts) s b' no ts

/-! ## Reservation (R303, R309) -/

/-- Pad a batch with slots that hold nothing and close it. -/
def EBatch.pad (b : EBatch) (cap : Nat) : EBatch :=
  { b with slots := b.slots ++ List.replicate (cap - b.slots.length) { st := .absent, smp := none }, closed := true }

/-- Where the next reservation falls: batch number and slot. -/
def AsmSt.nextSlot (a : AsmSt) : Nat × Nat :=
  match a.batches.getLast? with
  | some b => if b.closed then (a.next, 0) else (b.num, b.slots.length)
  | none => (a.next, 0)

/-- Reserve the next free slot: the open batch, or a new one whose budget runs from now. -/
def AsmSt.put (a : AsmSt) (tb : Nat) (x : ESlot) : AsmSt :=
  let x : ESlot := { x with smp := x.smp.map (fun y => { y with place := a.nextSlot }) }
  let fresh : AsmSt := { a with
    next := a.next + 1, batches := a.batches ++ [{ num := a.next, opened := tb, slots := [x], closed := a.batch == 1 }] }
  match a.batches.getLast? with
  | some b =>
    if b.closed then fresh
    else { a with batches := a.batches.dropLast ++
      [{ b with slots := b.slots ++ [x], closed := decide (a.batch ≤ b.slots.length + 1) }] }
  | none => fresh

/-- The open batch has fewer than `n` free slots: it stops taking reservations (R309). -/
def AsmSt.makeRoom (a : AsmSt) (n : Nat) : AsmSt :=
  match a.batches.getLast? with
  | some b =>
    if !b.closed && decide (a.batch < b.slots.length + n) then
      { a with batches := a.batches.dropLast ++ [b.pad a.batch] }
    else a
  | none => a

/-- Change slot `i` of batch `n`. -/
def AsmSt.modSlot (a : AsmSt) (n i : Nat) (f : ESlot → ESlot) : AsmSt :=
  { a with batches := a.batches.map (fun b => if b.num = n then { b with slots := modAt b.slots i f } else b) }

def AsmSt.slotAt (a : AsmSt) (n i : Nat) : Option ESlot :=
  ((a.batches.find? (fun b => b.num == n)).map (·.slots[i]?)).join

/-- WINDOW of a group in ns (R316). -/
def grpWindow (d : Dev) (g : Nat) : Nat :=
  let w := d.fld .easelGrpCfg [g] 15 0
  1000 * (if 1 ≤ w ∧ w ≤ 33000 then w else 33000)

/-- The FSYNC output all members of a group name, while no member has lost its trigger and the output has a window
(R309; no window: DEDUCED, log 48). -/
def grpTrigger (d : Dev) (g : Nat) : Option Nat :=
  match d.members g with
  | [] => none
  | (s, _) :: r =>
    let f (s : Nat) : Nat := if s < 16 then d.fld .capVcCfg [s] 26 24 else 4
    let lost (s : Nat) : Bool := d.flag .capVcStat [s] 30
    if f s < 4 ∧ 0 < d.fld .capFsyncCfg [f s] 21 10 ∧ !lost s ∧ r.all (fun x => f x.1 == f s && !lost x.1) then some (f s)
    else none

/-- The reach of a set opened by a frame (R309): WINDOW; in a re-run, where no edge is known, WIN of a triggered group
(DEDUCED, log 56). -/
def setReach (d : Dev) (g : Nat) : Nat :=
  match d.flt.mario, grpTrigger d g with
  | some _, some f => 1000 * d.fld .capFsyncCfg [f] 21 10
  | _, _ => grpWindow d g

/-- PERIOD, WIDTH and WIN of an FSYNC output in us as they act (R279, R293). -/
def fsyncPeriod (d : Dev) (n : Nat) : Nat := max 1000 (d.fld .capFsyncPer [n] 19 0)
def fsyncWidth (d : Dev) (n : Nat) : Nat :=
  let w := max 1 (d.fld .capFsyncCfg [n] 9 0)
  if w < fsyncPeriod d n then w else fsyncPeriod d n - 1
def fsyncWin (d : Dev) (n : Nat) : Nat :=
  let w := d.fld .capFsyncCfg [n] 21 10
  if w < fsyncPeriod d n then w else fsyncPeriod d n - 1

/-- How long after its key a set opened now closes (R309). -/
def setSpan (d : Dev) (g : Nat) (trig : Bool) : Nat :=
  match (if trig then grpTrigger d g else none) with
  | some f => 1000 * fsyncWin d f
  | none => setReach d g

/-- Put a group member's sample into the set it belongs to, opening the set if need be (R309). Of several open sets whose
window holds its TS and which lack the member it joins the oldest, and a frame outside every trigger window, or a second one of
a member in one window, joins no set (DEDUCED, log 48). -/
def Dev.joinSet (d : Dev) (g : Nat) (b : EBind) (x : ESample) : Dev :=
  let ai := finAsm b.asm
  let n := d.fld .easelGrpCfg [g] 18 16 + 1
  let mine (y : ESet) : Bool := y.group == g && !y.members.contains b.member
  let spot : Option (Bool × Nat × Option ESet × Bool) :=
    match (if d.flt.mario.isSome then none else grpTrigger d g) with
    | some f =>
      let w := d.med.fsync[Fin.ofNat 4 f]
      match w.edge with
      | some e =>
        if w.window then
          let here := d.med.easel.sets.filter (fun y => y.group == g && y.trig && y.key == e)
          some (true, e, here.find? mine, !here.isEmpty && (here.find? mine).isNone)
        else none
      | none => none
    | none =>
      let ok (y : ESet) : Bool := mine y && !y.trig && decide (y.key ≤ x.ts ∧ x.ts ≤ y.key + setReach d g)
      some (false, x.ts, d.med.easel.sets.find? ok, false)
  match spot with
  | none => d
  | some (_, _, _, true) => d
  | some (_, _, some y, false) =>
    let a := d.asm ai
    let x := { x with set := y.id, place := (y.batch, y.base + b.member) }
    let d := d.modEasel (fun e => { e with sets := e.sets.map (fun z =>
      if z = y then { z with members := z.members ++ [b.member] } else z) })
    if (a.slotAt y.batch (y.base + b.member)).any (fun z => z.st = .reserved) then
      d.setAsm ai (a.modSlot y.batch (y.base + b.member) (fun z => { z with smp := some x }))
    else d.setAsm ai { a with carried := a.carried ++ [{ x with carried := true }] }
  | some (trig, key, none, false) =>
    let a := (d.asm ai).makeRoom n
    let (bn, base) := a.nextSlot
    let no := d.med.easel.setNo + 1
    let x := { x with set := no }
    let a := (upto n).foldl (fun a i => a.put d.tb
      { st := .reserved, smp := if i = b.member then some x else none, member := i }) a
    (d.setAsm ai a).modEasel (fun e => { e with setNo := no, sets := e.sets ++
      [{ group := g, key := key, trig := trig, asm := b.asm, batch := bn, base := base, n := n, members := [b.member], id := no
         due := key + setSpan d g trig }] })

/-- The recipe a frame uses and whether it is the default: from the rings, or in a re-run from the recording (R298,
R422). `some none`: no recipe can be used. `none`: the recording applied none. -/
def Dev.frameRecipe (d : Dev) (s no ts : Nat) (b : EBind) : Dev × Option (Option (List Byte × Bool)) :=
  match d.flt.mario with
  | some m =>
    match m.recipes.find? (isRecipe s no) with
    | some r =>
      ({ d with flt := { d.flt with mario := some { m with recipes := dropFirst (isRecipe s no) m.recipes } } },
        some (some (r.data.drop 16, bit (recNat r.data 3 1) 0)))
    | none => (d, none)
  | none =>
    let (d, b, r) := pickRecipe (2 ^ b.rlog) d s b no ts
    let d := d.modEasel (fun e => { e with binds := setKeyed e.binds s (.bound b) })
    let dr := d.load b.dflt 576
    let dflt := if recipeOk ([dr.getD 0 0#8, 0#8] ++ dr.drop 2) && (b.group.isNone || recipeN dr == 1) then some dr else none
    (d, some ((r.or dflt).map (fun x => (x, r.isNone))))

/-- SAMPLE_RESERVE (R298, R299, R303): a frame of stream `s` starts; its recipe is chosen, its regions reserve slots. -/
def Dev.easelStart (d : Dev) (s fid no ts buf fw fh : Nat) : Dev :=
  match d.bindOf s with
  | none => d
  | some b =>
    let ai := finAsm b.asm
    match d.frameRecipe s no ts b with
    | (d, none) => d
    | (d, some none) => d.asmNotice ai stCommandInvalid s noId ts
    | (d, some (some (rec_, isDflt))) =>
      let d := d.record 4 ([BitVec.ofNat 8 s] ++ leBytes 2 no ++ [BitVec.ofNat 8 (b2n isDflt)] ++
        List.replicate 12 0#8 ++ rec_.take (64 + 32 * recipeN rec_))
      (upto (recipeN rec_)).foldl (fun d i =>
        let g := parseRegion rec_ i
        if !regionOk (d.asm ai) fw fh g then d.asmNotice ai stCommandInvalid s noId ts
        else
          let a := d.asm ai
          let idv := bit (recNat rec_ 3 1) 1
          let id := if idv then (recNat rec_ 8 4 + i) % 2 ^ 32 else a.ids
          let x : ESample := { id := id, stream := s, region := i, fid := fid, buf := buf, ts := ts, reg := g }
          let d := d.setAsm ai { a with ids := if idv then a.ids else (a.ids + 1) % 2 ^ 32 }
          match b.group with
          | some gr => d.joinSet gr b { x with member := b.member }
          | none => d.setAsm ai ((d.asm ai).put d.tb { st := .reserved, smp := some x })) d

/-! ## Frame records arrive (R295, R303, R304) -/

/-- Change the samples of a frame in an assembler's slots and its carried samples. -/
def AsmSt.mapFrame (a : AsmSt) (s fid : Nat) (f : ESample → ESample) : AsmSt :=
  let g (x : ESample) : ESample := if x.stream = s ∧ x.fid = fid then f x else x
  { a with
    batches := a.batches.map (fun b => { b with slots := b.slots.map (fun z =>
      if z.st = .absent then z else { z with smp := z.smp.map g }) })
    carried := a.carried.map g }

/-- The samples of a frame that Easel holds. -/
def Dev.frameSamples (d : Dev) (s fid : Nat) : List (Nat × ESample) :=
  (upto 16).flatMap (fun ai => ((d.asm (finAsm ai)).held.filter (fun x => x.stream == s && x.fid == fid)).map (fun x => (ai, x)))

/-- An assembler's samples of a frame become ready with its record; those carried reserve a slot in the open batch, or, while
the assembler reserves no more, are released. -/
def AsmSt.arrive (a : AsmSt) (on : Bool) (tb s fid : Nat) (r : FrameRec) : AsmSt :=
  let a := a.mapFrame s fid (fun x => { x with
    ready := true, addr := r.buf, fmt := r.fmt, w := r.w, h := r.h, pitch := pitchOf r.fmt r.w r.h
    conceal := r.flags.getLsbD 6, untrig := r.flags.getLsbD 5 })
  let (now, wait) := a.carried.partition (·.ready)
  let a := { a with carried := wait }
  if on then now.foldl (fun a x => a.put tb { st := .reserved, smp := some x, member := x.member }) a else a

/-- A frame's record arrives: its samples become ready in the assembler they were reserved in, whatever the stream's entry
names by now (R303); a frame without samples of a stream whose entry is refused is released unused and counted (R310). -/
def Dev.easelRecord (d : Dev) (s fid : Nat) (r : FrameRec) : Dev :=
  let d := d.firstRecord s
  if (d.frameSamples s fid).isEmpty then
    match keyed d.med.easel.binds s with
    | some (.refused a) => d.incSat .easelAsmStat [a] 23 16 1
    | _ => d
  else
    d.modEasel (fun e => { e with asms := e.asms.mapIdx (fun i a =>
      if a.held.any (fun x => x.stream == s && x.fid == fid) then a.arrive (d.asmOn i) d.tb s fid r else a) })

/-- A frame is not recorded: its samples never become ready, hold no buffer and are not carried (DEDUCED, log 48); a slot
keeps the sample it held. -/
def Dev.easelDrop (d : Dev) (s fid : Nat) : Dev :=
  let mine (x : ESample) : Bool := x.stream == s && x.fid == fid
  { d with med := { d.med with easel := { d.med.easel with
      asms := d.med.easel.asms.map (fun a => { a with
        batches := a.batches.map (fun b => { b with slots := b.slots.map (fun z =>
          if z.st = .reserved then { z with smp := z.smp.map (fun x => if mine x then { x with gone := true } else x) } else z) })
        carried := a.carried.filter (fun x => !mine x) }) } } }

/-! ## Conversion (R302, R303, R307) -/

/-- The buffer of batch `b` is free (R303). -/
def bufFree (d : Dev) (a : AsmSt) (b : Nat) : Bool :=
  decide (b < a.nbuf) || !bit (a.n 11 1) 7 || waitOk d (bits (a.n 11 1) 6 0, (b - a.nbuf + 1) % 2 ^ 24)

/-- The first sample an assembler could convert: batch and slot. -/
def workOf (d : Dev) (a : AsmSt) : Option (Nat × Nat) :=
  if asmFull d a then none
  else a.batches.findSome? (fun b =>
    if !bufFree d a b.num then none
    else ((upto b.slots.length).find? (fun i => match b.slots[i]? with
      | some z => decide (z.st = .reserved) && z.smp.any (fun x => x.ready && !d.toCome 3 x b.num i)
      | none => false)).map (fun i => (b.num, i)))

/-- A sample is being converted. -/
def Dev.converting (d : Dev) : Option (Nat × Nat × Nat) :=
  (upto 16).findSome? (fun ai => (d.asm (finAsm ai)).batches.findSome? (fun b =>
    ((upto b.slots.length).find? (fun i => b.slots[i]?.any (fun z => z.st = .converting))).map (fun i => (ai, b.num, i))))

/-- SAMPLE_CONVERT (R302, R307): the next assembler in round robin that has work ready; a sample too old is dropped. -/
def Dev.sampleConvert (d : Dev) : Dev :=
  if d.converting.isSome then d
  else
    match (upto 16).findSome? (fun k =>
        let ai := (d.med.easel.last + 1 + k) % 16
        (workOf d (d.asm (finAsm ai))).map (fun w => (ai, w))) with
    | none => d
    | some (ai, n, i) =>
      let d := d.modEasel (fun e => { e with last := ai })
      let a := d.asm (finAsm ai)
      match (a.slotAt n i).bind (·.smp) with
      | none => d
      | some x =>
        let age := match keyed d.med.easel.binds x.stream with | some (.bound b) => b.maxAge | _ => 0
        if (age ≠ 0 ∧ 1000 * age < d.tb - x.ts ∧ d.flt.mario.isNone) ∨ d.toCome 1 x n i then
          let d := d.setAsm (finAsm ai) (a.modSlot n i (fun z => { z with st := .absent, stale := true }))
          let d := d.incSat .easelAsmStat [ai] 15 0 1
          (d.decision x.id x.stream x.region 1 n i).asmNotice (finAsm ai) stStaleDropped x.stream x.id x.ts
        else d.setAsm (finAsm ai) (a.modSlot n i (fun z => { z with st := .converting }))

/-- SAMPLE_CONVERT_COMPLETE (R300, R301): a sample converted from poisoned pixels is marked concealed (R399; DEDUCED,
log 98). -/
def Dev.convertDone (d : Dev) : Dev :=
  match d.converting with
  | none => d
  | some (ai, n, i) =>
    let a := d.asm (finAsm ai)
    match (a.slotAt n i).bind (·.smp) with
    | none => d
    | some x =>
      let harm := d.sampleHarmed a x
      let d := d.putSample d a (a.buffer n + i * a.slotBytes) x
      d.setAsm (finAsm ai) (a.modSlot n i (fun z =>
        { z with st := .converted, smp := z.smp.map (fun y => { y with conceal := y.conceal || harm }) }))

/-! ## Budgets and batches (R304-R306) -/

/-- BATCH_BUDGET_EXPIRE (R304): unready slots become ABSENT, their samples are carried. -/
def Dev.budgetExpire (d : Dev) (ai : Fin 16) : Dev :=
  let a := d.asm ai
  match a.batches.find? (fun b => !b.expired) with
  | none => d
  | some b =>
    if d.flt.mario.isSome then d
    else
      let unready (z : ESlot) : Bool := decide (z.st = .reserved) && !z.smp.any (·.ready)
      let gone := (b.slots.zip (upto b.slots.length)).filter (fun e => unready e.1)
      let b' := { b with slots := b.slots.map (fun z => if unready z then { z with st := .absent } else z), expired := true }
      let a' := { a with
        batches := a.batches.map (fun y => if y.num = b.num then b'.pad a.batch else y)
        carried := a.carried ++ gone.filterMap (fun e => (e.1.smp.filter (!·.gone)).map (fun x => { x with carried := true })) }
      let d := gone.foldl (fun d e => match e.1.smp.filter (!·.gone) with
        | some x => d.decision x.id x.stream x.region 3 b.num e.2
        | none => d.decision noId (asmStream d ai) 0 4 b.num e.2) (d.setAsm ai a')
      ((upto a.batch).drop b.slots.length).foldl (fun d i => d.decision noId (asmStream d ai) 0 4 b.num i) d

/-- A manifest entry (R305); what a slot that never held a sample came from has no stated content (log 44). -/
def manifest (free i : Nat) (z : ESlot) : List Byte :=
  let abs := decide (z.st = .absent)
  match z.smp with
  | some x =>
    let fl := b2n abs + 2 * b2n x.late + 4 * b2n x.carried + 8 * b2n x.partial_ + 16 * b2n z.stale + 32 * b2n x.conceal +
      64 * b2n x.untrig
    leBytes 4 x.id ++ [BitVec.ofNat 8 x.stream, BitVec.ofNat 8 x.region, BitVec.ofNat 8 fl, BitVec.ofNat 8 x.member] ++ leBytes 8 x.ts
  | none =>
    let op (k : Nat) : Byte := Config.openByte free (16 * i + k)
    leBytes 4 noId ++ [op 4, op 5 &&& 0x0F#8, BitVec.ofNat 8 (b2n abs), BitVec.ofNat 8 z.member] ++ (upto 8).map (fun k => op (8 + k))

/-- Recorded decisions about the batch are still to come (R422). -/
def Dev.batchWaits (d : Dev) (ai : Fin 16) (b : EBatch) : Bool :=
  match d.flt.mario with
  | some m => m.left.any (fun r =>
      r.kind == 5 && (match d.bindOf (recNat r.data 4 1) with | some e => e.asm == ai.val | none => false) &&
        (if recNat r.data 6 1 = 2 then b.slots.any (fun z => z.smp.any (fun x =>
            x.id == recNat r.data 0 4 && x.stream == recNat r.data 4 1 && x.region == recNat r.data 5 1))
         else recNat r.data 8 4 == b.num))
  | none => false

/-- BATCH_COMPLETE (R304-R306): the oldest batch, once every slot is converted or ABSENT, its buffer free and its record
ring not full: ABSENT slots, manifest, record, counter. -/
def Dev.batchComplete (d : Dev) (ai : Fin 16) : Dev :=
  let a := d.asm ai
  match a.batches with
  | [] => d
  | b :: rest =>
    let fin (z : ESlot) : Bool := decide (z.st = .converted) || decide (z.st = .absent)
    if !b.closed || !b.slots.all fin || asmFull d a || !bufFree d a b.num || d.batchWaits ai b then d
    else
      let buf := a.buffer b.num
      let ix := b.slots.zip (upto b.slots.length)
      let d := ix.foldl (fun d e => if e.1.st = .absent then d.putAbsent a (buf + e.2 * a.slotBytes) else d) d
      let d := d.store (buf + a.batch * a.slotBytes) (ix.flatMap (fun e => manifest d.free e.2 e.1))
      let d := d.nextFree.setAsm ai { a with batches := rest }
      let held := (b.slots.filter (fun z => decide (z.st = .converted))).length
      let d := d.asmRecord ai 1 ([stOk, BitVec.ofNat 8 held] ++ leBytes 4 b.num ++ leBytes 8 buf)
      if bit (a.n 10 1) 7 then d.incMod .ttCnt [bits (a.n 10 1) 6 0] 23 0 1 else d

/-! ## Late pictures and groups (R308, R309) -/

/-- LATE_DECODE (R308): the picture under way is late; each decision names the sample's batch and slot (R421; of one carried
those it had, DEDUCED, log 47). -/
def Dev.lateDecode (d : Dev) (s : Nat) : Dev :=
  match d.stream s with
  | some x =>
    match x.cur with
    | some p =>
      if x.avgN < 8 ∨ p.late ∨ d.flt.mario.isSome then d
      else
        let l := d.frameSamples s p.fid
        let d := d.setStream s { x with cur := some { p with late := true } }
        let d := { d with med := { d.med with easel := { d.med.easel with
          asms := d.med.easel.asms.map (fun a => a.mapFrame s p.fid (fun y => { y with late := true })) } } }
        l.foldl (fun d e => (d.decision e.2.id s e.2.region 2 e.2.place.1 e.2.place.2).asmNotice (finAsm e.1) stLateSample s e.2.id e.2.ts) d
    | none => d
  | none => d

/-- The samples of set `y` that have left its slots, reserved again in another batch: where, and which. -/
def AsmSt.strays (a : AsmSt) (y : ESet) : List (Nat × Nat × ESample) :=
  a.batches.flatMap (fun b => (b.slots.zip (upto b.slots.length)).filterMap (fun e =>
    if y.id = 0 ∨ e.1.st = .absent ∨ (b.num = y.batch ∧ y.base ≤ e.2 ∧ e.2 < y.base + y.n) then none
    else (e.1.smp.filter (fun x => x.set == y.id)).map (fun x => (b.num, e.2, x))))

/-- The open set of a group that is due first (R309); of two due together the older. -/
def dueSet (l : List ESet) (g : Nat) : Option ESet :=
  (l.filter (fun y => y.group == g)).foldl (fun m y => match m with
    | some z => if y.due < z.due then some y else some z
    | none => some y) none

/-- The same region of the same frame. -/
def ESample.same (x y : ESample) : Bool := x.stream == y.stream && x.fid == y.fid && x.region == y.region

/-- GROUP_SET_CLOSE (R309): the open set of the group that is due first. Its samples are those in its slots, those carried, and
those that have reserved again; what a batch already emitted holds cannot change. -/
def Dev.setClose (d : Dev) (g : Fin 16) : Dev :=
  match dueSet d.med.easel.sets g.val with
  | none => d
  | some y =>
    let miss := (upto y.n).filter (fun i => !y.members.contains i)
    if d.flt.mario.isSome ∧ !miss.isEmpty then d
    else
      let ai := finAsm y.asm
      let d := d.modEasel (fun e => { e with sets := dropFirst (fun z => z == y) e.sets })
      if miss.isEmpty then d
      else
        let a := d.asm ai
        let of (i : Nat) : Option ESample := (a.slotAt y.batch (y.base + i)).bind (·.smp)
        let away := a.strays y
        let own := (y.members.filterMap of).filter (fun x => !away.any (fun e => e.2.2.same x))
        let mine (x : ESample) : Bool := y.id != 0 && x.set == y.id
        let loose := a.carried.filter (fun x => mine x && !own.any x.same)
        let first := (own ++ away.map (·.2.2) ++ loose).head?
        let stream := (first.map (·.stream)).getD (((d.members g.val).head?.map (·.1)).getD 0)
        let ts := (first.map (·.ts)).getD y.key
        let drop := d.flag .easelGrpCfg [g.val] 31
        let gone := if drop then upto y.n else miss
        let a := gone.foldl (fun a i => a.modSlot y.batch (y.base + i) (fun z => { z with st := .absent })) a
        let part (z : ESlot) : ESlot := { z with smp := z.smp.map (fun x => { x with partial_ := true }) }
        let a := if drop then { a with carried := a.carried.filter (fun x => !mine x) }
          else y.members.foldl (fun a i => a.modSlot y.batch (y.base + i) part) { a with carried := a.carried.map (fun x =>
              if mine x then { x with partial_ := true } else x) }
        let a := away.foldl (fun a e => a.modSlot e.1 e.2.1 (fun z => if drop then { z with st := .absent } else part z)) a
        let d := d.setAsm ai a
        let kind := if drop then 6 else 5
        let d := (own ++ loose).foldl (fun d x => d.decision x.id x.stream x.region kind y.batch (y.base + x.member)) d
        let d := away.foldl (fun d e => d.decision e.2.2.id e.2.2.stream e.2.2.region kind e.1 e.2.1) d
        let d := miss.foldl (fun d i => d.decision noId (asmStream d ai) 0 4 y.batch (y.base + i)) d
        d.asmNotice ai stGroupPartial stream noId ts

/-! ## Meanings -/

/-- ASSEMBLER_ENABLE (R296). -/
def execAssemblerEnable (a : Fin 16) (s : State) : Host.Outcome State Fault Refusal := onDev s (s.dev.asmEnable a)
/-- ASSEMBLER_DISABLE (R316). -/
def execAssemblerDisable (a : Fin 16) (s : State) : Host.Outcome State Fault Refusal := onDev s (s.dev.asmDisable a)
/-- ASM_STAT_CLEAR (R316). -/
def execAsmStatClear (a : Fin 16) (s : State) : Host.Outcome State Fault Refusal :=
  onDev s (s.dev.setRg .easelAsmStat [a.val] 0#32)
/-- GROUP_CONFIG_WRITE (R310). -/
def execGroupConfigWrite (g : Fin 16) (v : W32) (s : State) : Host.Outcome State Fault Refusal := onDev s (s.dev.groupWrite g v)
/-- SAMPLE_CONVERT (R302, R307). -/
def execSampleConvert (s : State) : Host.Outcome State Fault Refusal := onDev s s.dev.sampleConvert
/-- SAMPLE_CONVERT_COMPLETE (R300-R302). -/
def execSampleConvertComplete (s : State) : Host.Outcome State Fault Refusal := onDev s s.dev.convertDone
/-- BATCH_BUDGET_EXPIRE (R304). -/
def execBatchBudgetExpire (a : Fin 16) (s : State) : Host.Outcome State Fault Refusal := onDev s (s.dev.budgetExpire a)
/-- BATCH_COMPLETE (R304-R306). -/
def execBatchComplete (a : Fin 16) (s : State) : Host.Outcome State Fault Refusal := onDev s (s.dev.batchComplete a)
/-- LATE_DECODE (R308). -/
def execLateDecode (t : Fin 144) (s : State) : Host.Outcome State Fault Refusal := onDev s (s.dev.lateDecode t.val)
/-- GROUP_SET_CLOSE (R309). -/
def execGroupSetClose (g : Fin 16) (s : State) : Host.Outcome State Fault Refusal := onDev s (s.dev.setClose g)

end Sys2Proof.Machine
end

