-- ==== Sys2Proof/Machine/Capture.lean ====
section
/-! DEFINITION. CSI-2 capture, the capture timebase and the FSYNC triggers (R272-R280, R293). -/

namespace Sys2Proof.Machine

/-! ## Data types and lines (R273, R275) -/

/-- Bits of a RAW data type. -/
def rawBits (dt : Nat) : Option Nat :=
  if dt = 0x2A then some 8 else if dt = 0x2B then some 10 else if dt = 0x2C then some 12 else if dt = 0x2D then some 14
  else if dt = 0x2E then some 16 else none

def dtYuv : Nat := 0x1E
def dtRgb : Nat := 0x24
def dtUser (dt : Nat) : Bool := decide (0x30 ≤ dt ∧ dt ≤ 0x37)

/-- A code of R273's table. -/
def dtKnown (dt : Nat) : Bool := (rawBits dt).isSome || dt == dtYuv || dt == dtRgb || dtUser dt

/-- Pixels per group and low bits per pixel of a packed RAW type (PRESUMED, log 43: CSI-2's packing). -/
def rawGroup (n : Nat) : Nat × Nat := if n = 10 then (4, 2) else if n = 12 then (2, 4) else if n = 14 then (4, 6) else (1, 0)

/-- Pixel codes of a packed RAW line of `k` groups at most. -/
def unpackRaw : Nat → Nat → List Byte → List Nat
  | 0, _, _ => []
  | k + 1, n, bs =>
    if n = 16 then
      match bs with
      | a :: b :: r => (a.toNat + 256 * b.toNat) :: unpackRaw k n r
      | _ => []
    else
      let (g, lo) := rawGroup n
      let len := g + g * lo / 8
      if bs.length < len then []
      else
        let t := leNat ((bs.drop g).take (g * lo / 8))
        (upto g).map (fun i => (bs.getD i 0#8).toNat * 2 ^ lo + bits t (lo * i + lo - 1) (lo * i) % 2 ^ lo) ++
          unpackRaw k n (bs.drop len)

/-- Pack pixel codes again: `k` groups at most. -/
def packRaw : Nat → Nat → List Nat → List Byte
  | 0, _, _ => []
  | _ + 1, _, [] => []
  | k + 1, n, cs =>
    if n = 16 then leBytes 2 (cs.headD 0) ++ packRaw k n (cs.drop 1)
    else
      let (g, lo) := rawGroup n
      let c := cs.take g
      let t := ((upto g).map (fun i => (c.getD i 0 % 2 ^ lo) * 2 ^ (lo * i))).foldl (· + ·) 0
      (upto g).map (fun i => BitVec.ofNat 8 (c.getD i 0 / 2 ^ lo)) ++ leBytes (g * lo / 8) t ++ packRaw k n (cs.drop g)

/-- The codes of a line's payload: pixels of a RAW type, bytes of any other. -/
def lineCodes (dt : Nat) (bs : List Byte) : List Nat :=
  match rawBits dt with
  | some n => unpackRaw bs.length n bs
  | none => bs.map (·.toNat)

/-- Codes per pixel, as (codes, pixels) of the smallest group. -/
def codesFor (dt w : Nat) : Nat := if dt = dtYuv then 2 * w else if dt = dtRgb then 3 * w else w

/-- Code `i` beyond the end of a line: its last pixel again (R275). -/
def padCode (dt : Nat) (c : List Nat) (i : Nat) : Nat :=
  let n := c.length
  if dt = dtYuv then
    match i % 4 with
    | 0 => c.getD ((n - 1) / 4 * 4) 0
    | 2 => c.getD ((n - 1) / 4 * 4 + 2) (c.getD ((n - 1) / 4 * 4) 0)
    | _ => c.getD (if n % 2 = 0 then n - 1 else n - 2) 0
  else if dt = dtRgb then c.getD (n / 3 * 3 - 3 + i % 3) 0
  else c.getD (n - 1) 0

/-- Pad or truncate a line against WIDTH: the codes, SHORT, LONG. -/
def fitLine (dt w : Nat) (c : List Nat) : List Nat × Bool × Bool :=
  let n := codesFor dt w
  if c.length < n then (c ++ ((upto (n - c.length)).map (fun i => padCode dt c (c.length + i))), true, false)
  else (c.take n, false, decide (n < c.length))

/-- Bytes of a line as received (FORMAT 6). -/
def lineBytes (dt : Nat) (c : List Nat) : List Byte :=
  match rawBits dt with
  | some n => (packRaw c.length n c).take (ceilDiv (c.length * n) 8)
  | none => c.map (BitVec.ofNat 8)

/-! ## Stream configuration (R273, R293) -/

def vcOn (d : Dev) (s : Nat) : Bool := d.flag .capVcCfg [s] 31
def vcPort (d : Dev) (s : Nat) : Nat := d.fld .capVcCfg [s] 30 29
def vcByp (d : Dev) (s : Nat) : Bool := d.flag .capVcCfg [s] 27
def vcPipe (d : Dev) (s : Nat) : Fin 2 := Fin.ofNat 2 (d.fld .capVcCfg [s] 28 28)
def vcDt (d : Dev) (s : Nat) : Nat := d.fld .capVcCfg [s] 19 14
def vcVc (d : Dev) (s : Nat) : Nat := d.fld .capVcCfg [s] 23 20
def vcSync (d : Dev) (s : Nat) : Nat := d.fld .capVcCfg [s] 26 24

/-- The configuration that will be in force: the held one where there is one. -/
def vcNext (d : Dev) (s : Nat) : Nat := ((keyed d.med.vcHold s).getD (d.rg .capVcCfg [s])).toNat

/-- Enabling stream `s` with configuration `v` is allowed (R273, R293, R436). -/
def vcOk (d : Dev) (s v : Nat) : Bool :=
  let dt := bits v 19 14
  let others := (upto 16).filter (fun t => t != s && vcOn d t)
  (d.stream s).any (fun x => x.kind == 0) && dtKnown dt && (!dtUser dt || bit v 27) && decide (bits v 26 24 ≤ 4) &&
    others.all (fun t => bits (vcNext d t) 30 29 != bits v 30 29 || bits (vcNext d t) 23 20 != bits v 23 20 ||
      bits (vcNext d t) 19 14 != dt) &&
    (bit v 27 || decide ((others.filter (fun t => !bit (vcNext d t) 27 && bits (vcNext d t) 28 28 == bits v 28 28)).length < 8))

/-- The enabled streams of a port and virtual channel. -/
def streamsAt (d : Dev) (port vc : Nat) : List Nat :=
  (upto 16).filter (fun s => vcOn d s && vcPort d s == port && vcVc d s == vc && (d.stream s).isSome)

def Dev.dropped (d : Dev) (s : Nat) : Dev := d.incSat .capVcStat [s] 23 12 1

/-! ## Frames (R275, R276, R282) -/

/-- An ISP parameter block is refused (R283): frame width and height as received. -/
def blockOk (b : List Byte) (w h : Nat) : Bool :=
  let sc := bit (recNat b 1 1) 7
  let ow := recNat b 52 2
  let oh := recNat b 54 2
  recNat b 0 1 == 1 && decide (recNat b 2 1 < 4) && decide (recNat b 3 1 < 16) && bits (recNat b 3 1) 1 0 != 3 && zeros b 14 2 &&
    zeros b 22 2 && zeros b 49 3 && zeros b 56 8 && zeros b 2114 62 &&
    (!sc || decide (ceilDiv w 8 ≤ ow ∧ ow ≤ w ∧ ceilDiv h 8 ≤ oh ∧ oh ≤ h))

/-- Size and format of the frames a pipeline makes under a parameter block (R281, R283). -/
def ispShape (x : StreamSt) (b : List Byte) : Nat × Nat × Nat :=
  let fmt := if bits (recNat b 3 1) 1 0 = 2 then 5 else bits (recNat b 3 1) 1 0
  if bit (recNat b 1 1) 7 then (fmt, recNat b 52 2, recNat b 54 2) else (fmt, x.width, x.height)

/-- Size and format of a capture stream's frames under a parameter block. -/
def outShape (d : Dev) (s : Nat) (x : StreamSt) (b : List Byte) : Nat × Nat × Nat :=
  if vcByp d s then
    let dt := vcDt d s
    (6, ceilDiv (codesFor dt x.width * (rawBits dt).getD 8) 8, x.height)
  else ispShape x b

/-- Bytes a line of the frame takes in the port's receive buffer (R291). -/
def CapFrame.lineLen (f : CapFrame) : Nat := (lineBytes f.dt (f.lines.headD [])).length

/-- The missing lines are copies of the last one received (R275). -/
def fillLines (f : CapFrame) (h : Nat) : CapFrame :=
  let n := h - f.lines.length
  if n = 0 then f else { f with lines := f.lines ++ List.replicate n (f.lines.getLastD []), flags := f.flags ||| 0x02#8 }

/-- A bypass frame's record and buffer. -/
def Dev.bypFrame (d : Dev) (s : Nat) (x : StreamSt) (f : CapFrame) : Dev :=
  let (fmt, w, h) := outShape d s x []
  let d := d.putImage (x.bufAt f.buf) x.bufBytes fmt w h (f.lines.flatMap (lineBytes f.dt))
  let r : FrameRec := { ts := f.ts, stream := s, flags := f.flags, fmt := fmt, w := w, h := h, no := f.no, buf := x.bufAt f.buf }
  let d := d.putRecord s (x.modBuf f.buf (fun b => { b with busy := false, recNo := some x.recCount })) r.bytes
  let d := if f.flags = 0#8 then d else d.incSat .capVcStat [s] 11 0 1
  d.easelRecord s f.fid r

/-- The open frame of stream `s` closes (R275): without a line it is not recorded; else it goes to its pipeline, or,
bypassing, is recorded. -/
def Dev.closeFrame (d : Dev) (s : Nat) (extra : BitVec 8) : Dev :=
  match d.stream s with
  | none => d
  | some x =>
    match x.frame with
    | none => d
    | some f =>
      if f.lines.isEmpty then
        let d := d.setStream s { (x.modBuf f.buf (fun b => { b with busy := false })) with frame := none }
        ((d.dropped s).easelDrop s f.fid).tryClose s
      else
        let f := fillLines { f with flags := f.flags ||| extra } x.height
        let d := d.setStream s { x with frame := none }
        if vcByp d s then (d.bypFrame s { x with frame := none } f).tryClose s
        else
          let p := vcPipe d s
          let q : PipeSt := { d.med.pipes[p] with queue := d.med.pipes[p].queue ++ [(s, f)] }
          { d with med := { d.med with pipes := d.med.pipes.set p q } }

/-- Register writes held for a stream take effect (R275, R293). -/
def Dev.applyVc (d : Dev) (s : Nat) : Dev :=
  match keyed d.med.vcHold s with
  | some v =>
    let d : Dev := { d with med := { d.med with vcHold := dropKeyed d.med.vcHold s } }
    (d.plainWrite .capVcCfg [s] v).countStreams
  | none => d

/-- Count trigger runs and move TLOST (R280). -/
def Dev.trigRun (d : Dev) (s : Nat) (good : Bool) : Dev :=
  match d.stream s with
  | none => d
  | some x =>
    let g := if good then x.good + 1 else 0
    let b := if good then 0 else x.bad + 1
    let d := d.setStream s { x with good := min g 3, bad := min b 3 }
    if 3 ≤ g then d.setFld .capVcStat [s] 30 30 0 else if 3 ≤ b then d.setFld .capVcStat [s] 30 30 1 else d

/-- The trigger check of a frame start (R280): whether it sets UNTRIG. -/
def Dev.trigStart (d : Dev) (s : Nat) : Dev × Bool :=
  let n := vcSync d s
  if n < 4 ∧ 0 < d.fld .capFsyncCfg [n] 21 10 then
    let i : Fin 4 := Fin.ofNat 4 n
    let w := d.med.fsync[i]
    if w.window then
      let d : Dev := { d with med := { d.med with fsync := d.med.fsync.set i { w with hits := w.hits ++ [s] } } }
      (d.trigRun s true, false)
    else (d.trigRun s false, true)
  else (d, false)

/-- A frame opens on stream `s` (R276, R278, R280, R282): buffer, stamp, parameter block, Easel's slots. A poisoned
parameter block is damaged data (R399): the last accepted one serves, and the frame sets CRC (DEDUCED, log 98). -/
def Dev.openFrame (d : Dev) (s no : Nat) : Dev :=
  let (d, untrig) := d.trigStart s
  match d.stream s with
  | none => d
  | some x =>
    match (if d.flt.forced then none else d.freeBuf s x) with
    | none => d.dropped s
    | some i =>
      let byp := vcByp d s
      let ptr := d.loadNat x.param 8
      let new := d.load ptr 2176
      let mapped := ptr % 64 == 0 && d.reach x.param 8 && d.reach ptr 2176
      let harm := !byp && mapped && (d.poisonedN x.param 8 || d.poisonedN ptr 2176)
      let ok := byp || harm || (mapped && blockOk new x.width x.height)
      let blk := if byp then some [] else if ok && !harm then some new else x.block
      let d := if byp || mapped then d else d.violAny [ptr]
      match blk with
      | none => d.dropped s
      | some b =>
        let fl : BitVec 8 := (if ok then 0#8 else 0x80#8) ||| (if harm then 0x01#8 else 0#8) ||| (if untrig then 0x20#8 else 0#8)
        let f : CapFrame := { fid := x.fids, ts := d.tb, no := no, dt := vcDt d s, port := vcPort d s, flags := fl, buf := i, block := b }
        let x := { (d.takeBuf s x i) with
          fids := x.fids + 1, frame := some f, block := if byp then x.block else some b }
        let (_, w, h) := outShape d s x b
        (d.setStream s x).easelStart s f.fid no d.tb i w h

/-- What a packet header does before its payload counts (R274): corrected, or discarded. -/
def Dev.header (d : Dev) (port : Nat) (hdr : Fin 3) : Dev × Bool :=
  match hdr with
  | 0 => (d, true)
  | 1 => (d.incSat .capPortErr [port] 7 0 1, true)
  | 2 => (d.incSat .capPortErr [port] 15 8 1, false)

/-- The open frames of streams set OVF (R276). -/
def Dev.overflow (d : Dev) (ss : List Nat) : Dev :=
  ss.foldl (fun d s => d.modStream s (fun x => { x with frame := x.frame.map (fun f => { f with flags := f.flags ||| 0x08#8 }) })) d

def portOn (d : Dev) (p : Nat) : Bool := d.flag .capPortCfg [p] 31

/-- Port writes held until a frame start take effect (R293). -/
def Dev.applyPort (d : Dev) (p : Nat) : Dev :=
  match keyed d.med.portHold p with
  | some v =>
    let d : Dev := { d with med := { d.med with portHold := dropKeyed d.med.portHold p } }
    d.plainWrite .capPortCfg [p] v
  | none => d

/-- CSI_FRAME_START (R274-R276). A frame start lost to a full buffer costs its frame, which counts as dropped
(DEDUCED, log 40). -/
def Dev.csiStart (d : Dev) (port vc no : Nat) (hdr : Fin 3) (full : Bool) : Dev :=
  let full := full || d.rtFull port 1
  if !portOn d port then d
  else
    let (d, go) := d.header port hdr
    if !go then d
    else
      let ss := streamsAt d port vc
      if full then
        let open_ := ss.filter (fun s => (d.stream s).any (fun x => x.frame.isSome))
        (ss.filter (fun s => !open_.contains s)).foldl Dev.dropped (d.overflow open_)
      else
        let d := d.applyPort port
        let d := ss.foldl (fun d s => (d.closeFrame s 0x10#8).applyVc s) d
        (ss.filter (fun s => vcOn d s && vcPort d s == port && vcVc d s == vc)).foldl (fun d s => d.openFrame s no) d

/-- One line for one stream. -/
def Dev.addLine (d : Dev) (s : Nat) (crcBad : Bool) (bs : List Byte) : Dev :=
  d.modStream s (fun x => { x with frame := x.frame.map (fun f =>
    let c := lineCodes f.dt bs
    let fl : BitVec 8 := if crcBad then f.flags ||| 0x01#8 else f.flags
    if c.isEmpty then { f with flags := fl }
    else if x.height ≤ f.lines.length then { f with flags := fl ||| 0x04#8 }
    else
      let (c, sh, lg) := fitLine f.dt x.width c
      { f with lines := f.lines ++ [c], got := f.got + 1
               flags := fl ||| (if sh then 0x02#8 else 0#8) ||| (if lg then 0x04#8 else 0#8) }) })

/-- The level of a port's receive buffer follows a line of stream `s` (R276, R291, R328): a line that a frame keeps takes its
place there until the pipeline takes it, a bypass line until the stack has taken its bytes. A line of a discarded frame, or
beyond HEIGHT, takes none. `before` is the stream's frame before the line. -/
def Dev.lineLevel (d : Dev) (s : Nat) (before : Option CapFrame) : Dev :=
  match before, (d.stream s).bind (·.frame) with
  | some g, some f =>
    if f.got = g.got then d
    else if vcByp d s then d.rtBypass f.port f.lineLen
    else d.rtAdd f.port f.lineLen
  | _, _ => d

/-- CSI_LINE_PACKET (R273-R276). A packet finds the receive buffer full where the model's level leaves it no room, or where
`full` says so (what the level does not count takes room too: log 51). -/
def Dev.csiLine (d : Dev) (port vc dt : Nat) (hdr : Fin 3) (crcBad full : Bool) (bs : List Byte) : Dev :=
  let full := full || d.rtFull port bs.length
  if !portOn d port then d
  else
    let (d, go) := d.header port hdr
    if !go then d
    else
      let ss := (streamsAt d port vc).filter (fun s => vcDt d s == dt)
      if full then d.overflow ss
      else
        let d := if crcBad && !ss.isEmpty then d.incSat .capPortErr [port] 23 16 1 else d
        ss.foldl (fun d s =>
          let before := (d.stream s).bind (·.frame)
          (d.addLine s crcBad bs).lineLevel s before) d

/-- CSI_FRAME_END (R275, R276). -/
def Dev.csiEnd (d : Dev) (port vc : Nat) (hdr : Fin 3) (full : Bool) : Dev :=
  let full := full || d.rtFull port 1
  if !portOn d port then d
  else
    let (d, go) := d.header port hdr
    if !go then d
    else
      let ss := streamsAt d port vc
      if full then d.overflow ss else ss.foldl (fun d s => d.closeFrame s 0#8) d

/-! ## Enables (R273, R275, R293) -/

/-- A write of CAP_PORT_CFG: refused with CFGERR, held while the port is enabled, or stored (R293). A read shows the values in
force while a write is held; a refused write of EN = 1 to a port that is enabled is dropped whole, so that the port goes on
as it was (DESIGN CHOICE, log 113). -/
def Dev.portCfg (d : Dev) (p : Fin 4) (v : W32) : Dev :=
  let ok := decide (bits v.toNat 17 16 ≠ 3) && decide (80 ≤ bits v.toNat 12 0 ∧ bits v.toNat 12 0 ≤ 4500)
  let unhold (d : Dev) : Dev := { d with med := { d.med with portHold := dropKeyed d.med.portHold p.val } }
  if !v.getLsbD 31 then (unhold d).plainWrite .capPortCfg [p.val] v
  else if !ok then
    let d := d.setFld .capPortErr [p.val] 30 30 1
    if portOn d p.val then d else d.plainWrite .capPortCfg [p.val] (v &&& 0x7FFFFFFF#32)
  else if portOn d p.val then { d with med := { d.med with portHold := setKeyed d.med.portHold p.val v } }
  else d.plainWrite .capPortCfg [p.val] v

/-- A write of CAP_VC_CFG (R273, R275, R293): EN = 0 closes the open frame at once as a short frame; a refused enable
sets CFGERR of the port it names. A read shows the values in force while a write is held; a refused write of EN = 1 to a
stream that is enabled is dropped whole, so that the stream goes on as it was (DESIGN CHOICE, log 113). -/
def Dev.vcCfg (d : Dev) (s : Fin 16) (v : W32) : Dev :=
  let unhold (d : Dev) : Dev := { d with med := { d.med with vcHold := dropKeyed d.med.vcHold s.val } }
  if !v.getLsbD 31 then
    (((unhold (d.closeFrame s.val 0x02#8)).plainWrite .capVcCfg [s.val] v).countStreams).tryClose s.val
  else if !vcOk d s.val v.toNat then
    let d := d.setFld .capPortErr [bits v.toNat 30 29] 30 30 1
    if vcOn d s.val then d else d.plainWrite .capVcCfg [s.val] (v &&& 0x7FFFFFFF#32)
  else if vcOn d s.val then { d with med := { d.med with vcHold := setKeyed d.med.vcHold s.val v } }
  else (d.plainWrite .capVcCfg [s.val] v).countStreams

/-- STREAM_CLOSE of a capture stream disables it (DEDUCED, log 49). -/
def Dev.vcStop (d : Dev) (s : Nat) : Dev :=
  let d := d.closeFrame s 0x02#8
  let d : Dev := { d with med := { d.med with vcHold := dropKeyed d.med.vcHold s } }
  (d.setFld .capVcCfg [s] 31 31 0).countStreams

/-! ## Timebase (R277, R278) -/

def tbSrc (d : Dev) : Nat := d.fld .capTbCtl [] 1 0

/-- The instant of an output's first edge (R279): with ALIGN the next whole second; without, not stated. -/
def fsyncFirst (d : Dev) (n : Nat) : Option Nat :=
  if d.flag .capFsyncCfg [n] 29 then some ((d.tb / 1000000000 + 1) * 1000000000) else none

/-- After a load the outputs time their next edge as a first one (DESIGN CHOICE, log 46). -/
def Dev.fsyncAfresh (d : Dev) : Dev :=
  { d with med := { d.med with fsync := Vector.ofFn (fun n : Fin 4 =>
      let w := d.med.fsync[n]
      if w.due.isSome then { w with due := fsyncFirst d n.val } else w) } }

/-- Load the counter from CAP_TB_SET. -/
def Dev.tbLoad (d : Dev) : Dev :=
  let t := (d.rg .capTbSet []).toNat * 1000000000
  let d : Dev := { d with tb := t, med := { d.med with tbSlew := 0, tbFrac := 0 } }
  (d.setFld .capTbCtl [] 2 2 0).fsyncAfresh

/-- counter - the nearest multiple of 10^9; half way the lower multiple (DESIGN CHOICE, log 46). -/
def ppsError (tb : Nat) : Int :=
  let r := tb % 1000000000
  if r ≤ 500000000 then (r : Int) else (r : Int) - 1000000000

/-- PPS_EDGE (R277, R278): an accepted edge applies a pending load, or steers by slew or step. -/
def Dev.ppsEdge (d : Dev) : Dev :=
  if tbSrc d < 2 then d
  else if d.med.lastPps.any (fun t => decide (d.now < t + 999000000)) then d
  else
    let d : Dev := { d with med := { d.med with lastPps := some d.now, tbHold := none } }
    let d := d.setFld .capTbCtl [] 30 30 0
    if d.flag .capTbCtl [] 2 then d.tbLoad
    else
      let e := ppsError d.tb
      let lock := decide (-1000 ≤ e ∧ e ≤ 1000) && (tbSrc d == 2 || d.med.tb10m)
      let d := if lock then d.setFld .capTbCtl [] 31 31 1 else d
      if e < -1000000 then
        let d : Dev := { d with tb := d.tb + (-e).toNat, med := { d.med with tbSlew := 0 } }
        d.incMod .capTbCtl [] 15 8 1
      else { d with med := { d.med with tbSlew := e } }

/-- PPS_HOLDOVER (R277): the counter keeps the rate it has now, slewed or not. -/
def Dev.ppsHoldover (d : Dev) : Dev :=
  if tbSrc d < 2 then d
  else
    let d : Dev := { d with med := { d.med with tbHold := some (d.med.tbHold.getD d.med.tbSlew) } }
    (d.setFld .capTbCtl [] 30 30 1).setFld .capTbCtl [] 31 31 0

/-- A write of 1 to CAP_TB_CTL.LOAD (R278). -/
def Dev.timebaseLoad (d : Dev) : Dev :=
  if 2 ≤ tbSrc d then d.setFld .capTbCtl [] 2 2 1 else d.tbLoad

/-- A write of CAP_TB_CTL: SRC, then LOAD; a new source is not locked yet, and a load that waited for an edge acts at once
under a source without one (R278). -/
def Dev.tbCtlWrite (d : Dev) (v : W32) : Dev :=
  let src := bits v.toNat 1 0
  let d := if src = tbSrc d then d
    else
      let d := (d.setFld .capTbCtl [] 1 0 src).setFld .capTbCtl [] 31 30 0
      let d : Dev := { d with med := { d.med with tbSlew := 0, tbFrac := 0, tbHold := none, lastPps := none } }
      if src = 1 ∧ d.med.tb10m then d.setFld .capTbCtl [] 31 31 1 else d
  if v.getLsbD 2 || (d.flag .capTbCtl [] 2 && decide (src < 2)) then d.timebaseLoad else d

/-- TB_10M locks (R277): the source that needs nothing else is locked. -/
def Dev.tb10mLock (d : Dev) : Dev :=
  let d : Dev := { d with med := { d.med with tb10m := true } }
  if tbSrc d = 1 then d.setFld .capTbCtl [] 31 31 1 else d

/-! ## FSYNC (R279, R280) -/

/-- The level of ball FSYNCn (R279): active for WIDTH after an edge; POL = 1 is active low. -/
def Dev.fsyncLevel (d : Dev) (n : Fin 4) : Bool :=
  let act := d.flag .capFsyncCfg [n.val] 31 &&
    d.med.fsync[n].edge.any (fun e => decide (e ≤ d.tb ∧ d.tb < e + 1000 * fsyncWidth d n.val))
  act ^^ d.flag .capFsyncCfg [n.val] 30

/-- A write of CAP_FSYNC_CFG: EN from 0 to 1 fixes the instant of the first edge (R279). -/
def Dev.fsyncCfg (d : Dev) (n : Fin 4) (v : W32) : Dev :=
  let was := d.flag .capFsyncCfg [n.val] 31
  let d := d.plainWrite .capFsyncCfg [n.val] v
  if v.getLsbD 31 ∧ !was then
    { d with med := { d.med with fsync := d.med.fsync.set n { due := fsyncFirst d n.val } } }
  else d

/-- FSYNC_EDGE (R279): at its instant the output's next pulse begins, and with it its trigger window (R280); the next
edge follows at PERIOD, past the instants a steering step has jumped over. -/
def Dev.fsyncEdge (d : Dev) (n : Fin 4) : Dev :=
  let t := d.med.fsync[n].due.getD d.tb
  if d.flag .capFsyncCfg [n.val] 31 ∧ t ≤ d.tb then
    let per := 1000 * fsyncPeriod d n.val
    let w : FsyncSt := { edge := some d.tb, due := some (t + per * ((d.tb - t) / per + 1))
                         window := decide (0 < fsyncWin d n.val), hits := [] }
    { d with med := { d.med with fsync := d.med.fsync.set n w } }
  else d

/-- TRIGGER_WINDOW_END (R280): every enabled stream that names the output and had no frame start in the window missed. -/
def Dev.windowEnd (d : Dev) (n : Fin 4) : Dev :=
  let w := d.med.fsync[n]
  if w.window then
    let d : Dev := { d with med := { d.med with fsync := d.med.fsync.set n { w with window := false } } }
    ((upto 16).filter (fun s => vcOn d s && vcSync d s == n.val && !w.hits.contains s)).foldl (fun d s => d.trigRun s false) d
  else d

/-! ## Meanings -/

/-- CSI_FRAME_START (R276). -/
def execCsiFrameStart (p : Fin 4) (vc : Fin 16) (no : BitVec 16) (h : Fin 3) (full : Bool) (s : State) :
    Host.Outcome State Fault Refusal := onDev s (s.dev.csiStart p.val vc.val no.toNat h full)
/-- CSI_LINE_PACKET (R275). -/
def execCsiLinePacket (p : Fin 4) (vc : Fin 16) (dt : BitVec 6) (h : Fin 3) (crcBad full : Bool) (bs : List Byte) (s : State) :
    Host.Outcome State Fault Refusal := onDev s (s.dev.csiLine p.val vc.val dt.toNat h crcBad full bs)
/-- CSI_FRAME_END (R275). -/
def execCsiFrameEnd (p : Fin 4) (vc : Fin 16) (h : Fin 3) (full : Bool) (s : State) : Host.Outcome State Fault Refusal :=
  onDev s (s.dev.csiEnd p.val vc.val h full)
/-- PORT_ENABLE (R293). -/
def execPortEnable (p : Fin 4) (v : W32) (s : State) : Host.Outcome State Fault Refusal := onDev s (s.dev.portCfg p v)
/-- STREAM_ENABLE (R273). -/
def execStreamEnable (t : Fin 16) (v : W32) (s : State) : Host.Outcome State Fault Refusal := onDev s (s.dev.vcCfg t v)
/-- PORT_ERR_CLEAR (R293). -/
def execPortErrClear (p : Fin 4) (s : State) : Host.Outcome State Fault Refusal :=
  onDev s (s.dev.setFld .capPortErr [p.val] 23 0 0)
/-- VC_STAT_CLEAR (R293). -/
def execVcStatClear (t : Fin 16) (s : State) : Host.Outcome State Fault Refusal :=
  onDev s (s.dev.setFld .capVcStat [t.val] 23 0 0)
/-- PPS_EDGE (R277). -/
def execPpsEdge (s : State) : Host.Outcome State Fault Refusal := onDev s s.dev.ppsEdge
/-- PPS_HOLDOVER (R277). -/
def execPpsHoldover (s : State) : Host.Outcome State Fault Refusal := onDev s s.dev.ppsHoldover
/-- TIMEBASE_LOAD (R278). -/
def execTimebaseLoad (s : State) : Host.Outcome State Fault Refusal := onDev s s.dev.timebaseLoad
/-- TB_10M_LOCK (R277). -/
def execTb10mLock (s : State) : Host.Outcome State Fault Refusal := onDev s s.dev.tb10mLock
/-- FSYNC_EDGE (R279). -/
def execFsyncEdge (n : Fin 4) (s : State) : Host.Outcome State Fault Refusal := onDev s (s.dev.fsyncEdge n)
/-- TRIGGER_WINDOW_END (R280). -/
def execTriggerWindowEnd (n : Fin 4) (s : State) : Host.Outcome State Fault Refusal := onDev s (s.dev.windowEnd n)

end Sys2Proof.Machine
end

