-- ==== Sys2Proof/Machine/Isp.lean ====
section
/-! DEFINITION. The image signal pipelines (R281-R283). -/

namespace Sys2Proof.Machine

/-- An RGB code of 3 x 16 bits, red in the low half-word. -/
abbrev Rgb := BitVec 48

def rgb (r g b : Nat) : Rgb := BitVec.ofNat 48 (r % 65536 + 65536 * (g % 65536) + 4294967296 * (b % 65536))
def chan (p : Rgb) (c : Nat) : Nat := bits p.toNat (16 * c + 15) (16 * c)

/-- A stage's result: rounded with ties away, clamped to 0-65,535 (R283). -/
def stage (num : Int) (den : Nat) : Nat := (clampI (roundAway (decide (num < 0)) num.natAbs den 0) 0 65535).toNat

/-- Apply `f` to every element with its index. -/
def mapIx {α β : Type} (l : List α) (f : Nat → α → β) : List β := (l.zip (upto l.length)).map (fun e => f e.2 e.1)

def pbEn (b : List Byte) (i : Nat) : Bool := bit (recNat b 1 1) i

/-- Black level: the offset of the pixel's place in the 2 x 2 pattern. -/
def blackLevel (b : List Byte) (w : Nat) (px : List Nat) : List Nat :=
  mapIx px (fun i x => x - recNat b (4 + 2 * (2 * ((i / w) % 2) + (i % w) % 2)) 2)

/-- Insert into a rising list. -/
def insNat (x : Nat) : List Nat → List Nat
  | [] => [x]
  | y :: r => if x ≤ y then x :: y :: r else y :: insNat x r

/-- The median of eight codes: the mean of the two middle ones, rounded as every stage rounds (DEDUCED, log 11). -/
def median8 (l : List Nat) : Nat :=
  let s := l.foldr insNat []
  rndAway (s.getD 3 0 + s.getD 4 0) 2

/-- A pixel of the pattern is green: in filter orders RGGB and BGGR where its coordinates' sum is odd, else even. -/
def greenAt (cfa u v : Nat) : Bool :=
  if cfa % 4 = 0 ∨ cfa % 4 = 3 then (u + v) % 2 == 1 else (u + v) % 2 == 0

/-- Defect-pixel correction: the 8 nearest pixels of the same colour; of a green pixel these are the four diagonal ones and
the four at two pixels, of another the eight around it at two pixels. A pixel whose neighbours are not all in the frame
is a free value (log 11). -/
def defects (b : List Byte) (w h : Nat) (px : List Nat) : List Nat :=
  let thr := recNat b 12 2
  mapIx px (fun i x =>
    let u := i % w
    let v := i / w
    if u < 2 ∨ w ≤ u + 2 ∨ v < 2 ∨ h ≤ v + 2 then Config.defectEdge w thr px i
    else
      let far := if greenAt (recNat b 2 1) u v then [i - w - 1, i - w + 1, i + w - 1, i + w + 1]
        else [i - 2 * w - 2, i - 2 * w + 2, i + 2 * w - 2, i + 2 * w + 2]
      let n := (far ++ [i - 2 * w, i - 2, i + 2, i + 2 * w]).map (fun j => px.getD j 0)
      if n.all (fun y => decide (thr < (if x < y then y - x else x - y))) then median8 n else x)

/-- The grid cell of a pixel: exact where 32 divides both sides, else a free value (log 42). -/
def cellOf (w h i : Nat) : Nat :=
  if w % 32 = 0 ∧ h % 32 = 0 ∧ 0 < w ∧ 0 < h then 32 * ((i / w) / (h / 32)) + (i % w) / (w / 32)
  else Config.statCell w h i % 1024

/-- The statistics tap (R282): 32 x 32 cells of sums and clipped counts, then 256 luma bins. -/
def statistics (w h : Nat) (px : List Rgb) : List Byte :=
  let ix := px.zip (upto px.length)
  (upto 1024).flatMap (fun c =>
    let mine := (ix.filter (fun e => cellOf w h e.2 == c)).map (·.1)
    (upto 3).flatMap (fun k => leBytes 4 ((mine.map (fun p => chan p k)).foldl (· + ·) 0)) ++
      leBytes 4 (mine.filter Config.statClipped).length) ++
  (upto 256).flatMap (fun n => leBytes 4 (px.filter (fun p => Config.statLuma p % 256 == n)).length)

/-- White balance: 4.12 gains. -/
def whiteBalance (b : List Byte) (p : Rgb) : Rgb :=
  let g (c : Nat) : Nat := stage ((chan p c * recNat b (16 + 2 * c) 2 : Nat) : Int) 4096
  rgb (g 0) (g 1) (g 2)

/-- Colour matrix: 4.12 signed coefficients, then offsets. -/
def colourMatrix (b : List Byte) (p : Rgb) : Rgb :=
  let row (i : Nat) : Nat :=
    let s : Int := ((upto 3).map (fun j => sgn 16 (recNat b (24 + 2 * (3 * i + j)) 2) * (chan p j : Int))).foldl (· + ·) 0
    stage (s + 4096 * sgn 16 (recNat b (42 + 2 * i) 2)) 4096
  rgb (row 0) (row 1) (row 2)

/-- Tone table: 1,025 points, linear between them. -/
def tone (b : List Byte) (p : Rgb) : Rgb :=
  let t (c : Nat) : Nat :=
    let x := chan p c
    let i := x / 64
    let f := x % 64
    let y0 : Int := (recNat b (64 + 2 * i) 2 : Nat)
    let y1 : Int := (recNat b (66 + 2 * i) 2 : Nat)
    stage (64 * y0 + (y1 - y0) * f) 64
  rgb (t 0) (t 1) (t 2)

/-- Input codes of a frame's pixels: RAW codes scaled to 16 bits, or the three components of a YUV422 or RGB888 pixel
times 257 (R283); the order of components in a pixel is PRESUMED (log 43). -/
def rawIn (n : Nat) (codes : List Nat) : List Nat := codes.map (fun c => c * 2 ^ (16 - n))
def yuvIn (w : Nat) (line : List Nat) : List Rgb :=
  (upto w).map (fun x => rgb (257 * line.getD (2 * x + 1) 0) (257 * line.getD (x / 2 * 4) 0) (257 * line.getD (x / 2 * 4 + 2) 0))
def rgbIn (w : Nat) (line : List Nat) : List Rgb :=
  (upto w).map (fun x => rgb (257 * line.getD (3 * x + 2) 0) (257 * line.getD (3 * x + 1) 0) (257 * line.getD (3 * x) 0))

/-- The stages up to the statistics tap and the white balance, for RAW; answers the pixels and the statistics. -/
def frontEnd (b : List Byte) (dt w h : Nat) (lines : List (List Nat)) : List Rgb × Option (List Byte) :=
  match rawBits dt with
  | some n =>
    let px := rawIn n lines.flatten
    let px := if pbEn b 0 then blackLevel b w px else px
    let px := if pbEn b 1 then defects b w h px else px
    let im := (upto (w * h)).map (fun i => Config.demosaic (recNat b 2 1) w px i)
    let st := if pbEn b 2 then some (statistics w h im) else none
    (if pbEn b 3 then im.map (whiteBalance b) else im, st)
  | none => (lines.flatMap (if dt = dtYuv then yuvIn w else rgbIn w), none)

/-- The scaler's area filter (R281, R283): an output pixel is the rounded mean of the source area it covers. Where a ratio is
not whole, so that areas cut through pixels, their weights are not stated and the pixel is free (log 11). -/
def scaled (w h ow oh : Nat) (im : List Rgb) : List Rgb :=
  if w % ow = 0 ∧ h % oh = 0 then
    let (kx, ky) := (w / ow, h / oh)
    (upto oh).flatMap (fun v => (upto ow).map (fun u =>
      let area := (upto ky).flatMap (fun j => (upto kx).map (fun i => im.getD ((v * ky + j) * w + u * kx + i) 0#48))
      let mean (c : Nat) : Nat := rndAway ((area.map (fun p => chan p c)).foldl (· + ·) 0) (kx * ky)
      rgb (mean 0) (mean 1) (mean 2)))
  else (upto (ow * oh)).map (fun i => Config.areaScale w h ow oh im i)

/-- The stages from the colour matrix to the scaler: the pixels and their size. -/
def backEnd (b : List Byte) (w h : Nat) (im : List Rgb) : List Rgb × Nat × Nat :=
  let im := if pbEn b 4 then im.map (colourMatrix b) else im
  let im := if pbEn b 5 then im.map (tone b) else im
  let nr := recNat b 48 1
  let im := if pbEn b 6 then mapIx im (fun i _ => Config.denoise (nr % 16) (nr / 16) w im i) else im
  if pbEn b 7 then
    let ow := recNat b 52 2
    let oh := recNat b 54 2
    (scaled w h ow oh im, ow, oh)
  else (im, w, h)

/-- The rounded mean of a 2 x 2 block of codes. -/
def blockMean (w h : Nat) (code : Nat → Nat) (u v : Nat) : Nat :=
  let l := ([2 * v, 2 * v + 1].filter (· < h)).flatMap (fun y => ([2 * u, 2 * u + 1].filter (· < w)).map (fun x => code (y * w + x)))
  rndAway (l.foldl (· + ·) 0) l.length

/-- Channel `c` of a pixel as a code of 8 or 10 bits (R283): x / 65,535 through the named matrix, as Easel's `colour`
computes it (DEDUCED, log 45), narrowed with round_ties_away. -/
def yuvCode (m : Nat) (ten : Bool) (p : Rgb) (c : Nat) : Nat :=
  let top := if ten then 1023 else 255
  match f32Dec (colourForward m ten c (fun j => f32OfRat false (chan p j) 65535 0)) with
  | .fin s n e => (clampI (roundAway s (n * top) 1 e) 0 top).toNat
  | _ => 0

/-- The output stage: the planes' rows one after another. P010 keeps a code in the upper ten bits (PRESUMED, log 43). -/
def ispOut (b : List Byte) (fmt w h : Nat) (im : List Rgb) : List Byte :=
  if fmt = 5 then im.flatMap (fun p => (upto 3).map (fun c => BitVec.ofNat 8 (rndAway (chan p c) 257)))
  else
    let ten := decide (fmt = 1)
    let code (c i : Nat) : Nat := yuvCode (bits (recNat b 3 1) 3 2) ten (im.getD i 0#48) c
    let emit (x : Nat) : List Byte := if ten then leBytes 2 (x * 64) else leBytes 1 x
    (upto (w * h)).flatMap (fun i => emit (code 0 i)) ++
      (upto (ceilDiv h 2)).flatMap (fun v => (upto (ceilDiv w 2)).flatMap (fun u =>
        emit (blockMean w h (code 1) u v) ++ emit (blockMean w h (code 2) u v)))

/-! ## Scheduling (R282) -/

/-- Lines of stream `s` that wait at a pipeline: its oldest ended frame with lines left, else its open frame; answers
how many lines a group takes. -/
def groupOf (d : Dev) (p : PipeSt) (s : Nat) : Option Nat :=
  match p.queue.find? (fun e => e.1 == s && decide (e.2.done < e.2.lines.length)) with
  | some e => some (min 16 (e.2.lines.length - e.2.done))
  | none =>
    if p.queue.any (fun e => e.1 == s) then none
    else ((d.stream s).bind (·.frame)).bind (fun f => if 16 ≤ f.lines.length - f.done then some 16 else none)

/-- Output bytes of `n` lines of a frame. -/
def groupBytes (d : Dev) (s : Nat) (f : CapFrame) (n : Nat) : Nat :=
  match d.stream s with
  | none => 0
  | some x =>
    let (fmt, w, h) := ispShape x f.block
    rowBytes fmt w h * n / max 1 x.height

/-- A group of `n` lines moves from the receive buffer of the port the frame came by, which holds those of them that came as
packets, to the pipeline's output buffer, which the stack's writes empty (R291, R328). -/
def Dev.groupMoves (d : Dev) (i : Fin 2) (s : Nat) (f : CapFrame) (n : Nat) : Dev :=
  (d.rtSub f.port (min n (f.got - f.done) * f.lineLen)).rtAdd (4 + i.val) (groupBytes d s f n)

/-- ISP_LINE_GROUP (R282): the next stream in round robin with a full group or a frame end waiting; the pipeline stalls
while its output buffer has no room for the group (R291). -/
def Dev.ispGroup (d : Dev) (i : Fin 2) : Dev :=
  let p := d.med.pipes[i]
  let mine (s : Nat) : Bool := vcOn d s && !vcByp d s && vcPipe d s == i || p.queue.any (fun e => e.1 == s)
  match (upto 16).findSome? (fun k =>
      let s := (p.last + 1 + k) % 16
      if mine s then (groupOf d p s).map (fun n => (s, n)) else none) with
  | none => d
  | some (s, n) =>
    let ended := p.queue.find? (fun e => e.1 == s && decide (e.2.done < e.2.lines.length))
    let f? := (ended.map (·.2)).or ((d.stream s).bind (·.frame))
    if f?.any (fun f => d.rtFull (4 + i.val) (groupBytes d s f n)) then d
    else
    let d := d.pipeWorks i
    match ended with
    | some e =>
      let q : PipeSt := { queue := p.queue.map (fun y => if y = e then (s, { e.2 with done := e.2.done + n }) else y), last := s }
      let d : Dev := { d with med := { d.med with pipes := d.med.pipes.set i q } }
      d.groupMoves i s e.2 n
    | none =>
      let d : Dev := { d with med := { d.med with pipes := d.med.pipes.set i { p with last := s } } }
      match (d.stream s).bind (·.frame) with
      | none => d
      | some f => (d.modStream s (fun x => { x with frame := some { f with done := f.done + n } })).groupMoves i s f n

/-- ISP_FRAME_COMPLETE (R270, R282, R283): the oldest frame whose lines have all been taken: image, statistics, record. A
stream opened without a statistics area gets none (R271). -/
def Dev.ispDone (d : Dev) (i : Fin 2) : Dev :=
  let p := d.med.pipes[i]
  match p.queue.find? (fun e => decide (e.2.lines.length ≤ e.2.done)) with
  | none => d
  | some (s, f) =>
    let d := d.pipeWorks i
    let d : Dev := { d with med := { d.med with pipes := d.med.pipes.set i { p with queue := dropFirst (fun y => y == (s, f)) p.queue } } }
    match d.stream s with
    | none => d
    | some x =>
      let (im, st) := frontEnd f.block f.dt x.width x.height f.lines
      let (im, w, h) := backEnd f.block x.width x.height im
      let fmt := if bits (recNat f.block 3 1) 1 0 = 2 then 5 else bits (recNat f.block 3 1) 1 0
      let d := d.putImage (x.bufAt f.buf) x.bufBytes fmt w h (ispOut f.block fmt w h im)
      let sa := x.stats + 17408 * f.buf
      let st := if x.stats = 0 then none else st
      let d := match st with | some l => d.store sa l | none => d
      let r : FrameRec := { ts := f.ts, stream := s, flags := f.flags, fmt := fmt, w := w, h := h, no := f.no, buf := x.bufAt f.buf
                            stats := if st.isSome then sa else 0 }
      let d := d.putRecord s (x.modBuf f.buf (fun b => { b with busy := false, recNo := some x.recCount })) r.bytes
      let d := if f.flags = 0#8 then d else d.incSat .capVcStat [s] 11 0 1
      let d := d.incMod .ispPipeStat [i.val] 15 0 1
      (d.easelRecord s f.fid r).tryClose s

/-! ## Meanings -/

/-- ISP_LINE_GROUP (R281, R282). -/
def execIspLineGroup (i : Fin 2) (s : State) : Host.Outcome State Fault Refusal := onDev s (s.dev.ispGroup i)
/-- ISP_FRAME_COMPLETE (R282). -/
def execIspFrameComplete (i : Fin 2) (s : State) : Host.Outcome State Fault Refusal := onDev s (s.dev.ispDone i)

end Sys2Proof.Machine
end

