-- ==== Sys2Proof/Machine/Codec.lean ====
section
/-! DEFINITION. Compressed streams: bitstream rings, headers, pictures and their output order, encoders
(R284-R290, R294, R308, R437). -/

namespace Sys2Proof.Machine

/-! ## Bitstream rings (R284) -/

/-- An entry that is taken: OP, reserved fields; a length or an address outside its range is taken as reserved
(DEDUCED, log 50). -/
def bsEntryOk (d : Dev) (loc : Bool) (e : List Byte) : Bool :=
  let op := recNat e 0 1
  let len := recNat e 4 4
  decide (recNat e 1 1 < 2) && zeros e 2 2 && zeros e 24 8 &&
    (op == 2 || (op == 1 && decide (1 ≤ len ∧ len ≤ 16777216) && (!loc || d.reach (recNat e 8 8) len)))

/-- Up to `k` entries of stream `s`; each one is recorded (R421); a bad one writes a refusal record. -/
def fetchBs : Nat → Dev → Nat → Dev
  | 0, d, _ => d
  | k + 1, d, s =>
    match d.stream s with
    | none => d
    | some x =>
      let e := d.locRd x.loc (x.bsRing + 64 + 32 * x.bsIdx) 32
      if bit (recNat e 1 1) 0 ≠ x.bsPh then d
      else
        let i := (x.bsIdx + 1) % 2 ^ x.bsLog
        let ok := bsEntryOk d x.loc e
        let d := if ok || !x.loc then d else d.violAny [recNat e 8 8]
        let d := d.setStream s { x with
          bsIdx := i, bsPh := if i = 0 then !x.bsPh else x.bsPh, bsCount := x.bsCount + 1
          entries := if ok then x.entries ++ [{ bytes := e, ts := d.tb }] else x.entries }
        let d := d.record 2 ([BitVec.ofNat 8 s] ++ List.replicate 15 0#8 ++ e)
        fetchBs k (if ok then d else d.refusal s stCommandInvalid d.tb (recNat e 16 8)) s

/-- A visit to one stream's ring: entries, then the consumed count. -/
def Dev.visitBs (d : Dev) (s : Nat) : Dev :=
  match d.stream s with
  | none => d
  | some x =>
    if x.kind = 0 ∨ x.closing.isSome ∨ !d.locOpen x.loc then d
    else
      let d := fetchBs 8 d s
      match d.stream s with
      | some y => if y.bsCount = x.bsCount then d else d.locWr y.loc y.bsRing (leBytes 8 y.bsCount)
      | none => d

/-- BITSTREAM_POLL (R284). -/
def Dev.bitstreamPoll (d : Dev) (host : List Host.Cell) : Dev :=
  let d := d.hostPut host
  if d.flt.mario.isSome || d.flt.forced then d
  else (((upto 144).filter (fun s => 16 ≤ s))).foldl Dev.visitBs d

/-! ## Pictures -/

/-- The output format of a header (R286); a 10-bit 4:0:0 picture is written as P010 (DEDUCED, log 50). -/
def hdrFmt (h : SeqHeader) : Nat :=
  if h.chroma = 2 then 3 else if h.chroma = 1 then 2 else if 8 < h.depth then 1 else if h.chroma = 3 then 4 else 0

/-- The rows of R286's table: profile, depth, chroma format and tools. -/
def hdrInTable (h : SeqHeader) : Bool :=
  h.tools.isEmpty && (match h.profile with
    | .h264ConstrainedBaseline | .h264Main | .h264High => h.depth == 8 && h.chroma == 0
    | .h265Main | .h265Main10 => (h.depth == 8 || h.depth == 10) && h.chroma == 0
    | .av1Main => (h.depth == 8 || h.depth == 10) && (h.chroma == 0 || h.chroma == 3)
    | .jpegBaseline => h.depth == 8 && decide (h.chroma ≤ 3)
    | .other => false)

/-- The checks of R288. -/
def hdrOk (x : StreamSt) (h : SeqHeader) : Bool :=
  decide (0 < h.width ∧ 0 < h.height ∧ h.width ≤ x.width ∧ h.height ≤ x.height ∧ h.width ≤ 8192) &&
    decide (h.height ≤ (if x.kind = 1 then 4320 else 8192)) && decide (imageBytes (hdrFmt h) h.width h.height ≤ x.bufBytes) &&
    decide (h.refs + 2 ≤ x.nbuf) && hdrInTable h && ((h.profile == .jpegBaseline) == (x.kind == 2))

/-- The picture that comes first in output order. -/
def firstOut (l : List PicSt) : Option PicSt :=
  l.foldl (fun m p => match m with
    | none => some p
    | some q => if p.order < q.order then some p else some q) none

/-- Output up to `n` pending pictures in output order (R285). -/
def outputPics : Nat → Dev → Nat → Dev
  | 0, d, _ => d
  | n + 1, d, s =>
    match d.stream s with
    | none => d
    | some x =>
      match firstOut x.pics with
      | none => d
      | some p =>
        let r : FrameRec := { ts := p.ts, stream := s, flags := if p.conceal then 0x40#8 else 0#8, fmt := p.fmt, w := p.w, h := p.h
                              no := p.fid, ns := p.ns, buf := x.bufAt p.buf, pts := p.pts }
        let y := (x.modBuf p.buf (fun b => { b with busy := false, recNo := some x.recCount }))
        let d := d.putRecord s { y with pics := dropFirst (fun q => q == p) x.pics } r.bytes
        outputPics n (d.easelRecord s p.fid r) s

/-- Every pending picture (R284, R288). -/
def Dev.flushPics (d : Dev) (s : Nat) : Dev := outputPics ((d.stream s).map (·.pics.length) |>.getD 0) d s

/-- The bitstream entry at the front, if it is this one with this OP. -/
def frontEntry (x : StreamSt) (op : Nat) (e : List Byte) : Option BsEntry :=
  match x.entries with
  | b :: _ => if b.bytes = e ∧ recNat e 0 1 = op then some b else none
  | [] => none

/-- DATA (R284, R286, R288, R430): a run of the front entry's bytes reaches the decoder; the entry leaves the ring's list with its
last run. A header is checked first; a changed one waits until no picture is under way, and the pictures decoded before
it are output. After a refused header the data up to the next one that passes, of a JPEG stream the rest of the entry,
is discarded. Poisoned data is damaged (R399). Data in host memory is read while the function may master. -/
def Dev.bsData (d : Dev) (s : Nat) (e : List Byte) (run : DataRun) : Dev :=
  match d.stream s with
  | none => d
  | some x =>
    match frontEntry x 1 e with
    | none => d
    | some b =>
      if !d.locOpen x.loc then d else
      let rest := if run.last || x.kind == 2 then x.entries.drop 1 else x.entries
      let bad := x.loc && d.poisonedN (recNat e 8 8) (recNat e 4 4)
      let x' : StreamSt := { x with entries := rest, cur := x.cur.map (fun p => if bad then { p with conceal := true } else p) }
      match run.hdr with
      | some h =>
        if x.kind = 1 ∧ x.cur.isSome ∧ x.hdr ≠ some h then d
        else
          let d := d.setStream s x'
          let d := if x.hdr ≠ some h then d.flushPics s else d
          if hdrOk x h then
            d.modStream s (fun x => { x with hdr := some h, queue := x.queue ++ [{ b with hdr := some h, damaged := bad }] })
          else
            (d.modStream s (fun x => { x with hdr := none })).refusal s stDecodeBounds b.ts (recNat e 16 8)
      | none =>
        d.setStream s { x' with
          queue := if x.kind = 1 ∧ x.hdr.isSome then x.queue ++ [{ b with hdr := x.hdr, damaged := bad }] else x.queue }

/-- EOS (R284, R289): every pending picture is output, once none is being decoded. -/
def Dev.bsEos (d : Dev) (s : Nat) (e : List Byte) : Dev :=
  match d.stream s with
  | none => d
  | some x =>
    match frontEntry x 2 e with
    | none => d
    | some _ =>
      if x.cur.isSome then d
      else (d.setStream s { x with entries := x.entries.drop 1 }).flushPics s

/-- The stream has begun more pictures than it declared since its open (R287; how it is measured is a DESIGN CHOICE, log 99). -/
def StreamSt.overRate (x : StreamSt) (now : Nat) : Bool := decide (x.rate * (now - x.opened) / 1000000000000 < x.fids)

/-- It is the stream's turn (R287): one within its declared rate is served at once; one above it after its engine's other
streams, in round robin among such streams. -/
def Dev.turn (d : Dev) (s : Nat) (x : StreamSt) (waiting : List Nat) : Bool :=
  let peers := waiting.filter (fun w => w != s && (d.stream w).any (fun y => y.engine == x.engine && y.cur.isNone))
  let late := s :: peers
  !x.overRate d.now || (peers.all (fun w => (d.stream w).any (fun y => y.overRate d.now)) &&
    (upto 144).findSome? (fun k =>
      let t := (d.med.engLast[Fin.ofNat 7 x.engine] + 1 + k) % 144
      if late.contains t then some t else none) == some s)

/-- The real-time port of an engine (R328). -/
def enginePort (e : Nat) : Nat := 6 + e

/-- PICTURE_DECODE_START (R285, R287, R303): the engine takes a free buffer for the picture; its samples reserve slots. A
JPEG entry is one picture. The engine stalls while its line buffer's output half is full (R291). -/
def Dev.decodeStart (d : Dev) (s : Nat) (first : PicStart) : Dev :=
  match d.stream s with
  | none => d
  | some x =>
    let q := if x.kind = 2 then x.queue else x.queue.drop first.used
    match q with
    | [] => d
    | b :: r =>
      match b.hdr, d.freeBuf s x with
      | some h, some i =>
        if x.cur.isSome ∨ d.rtFull (enginePort x.engine) 1 ∨ !d.turn s x first.waiting then d
        else
          let fmt := hdrFmt h
          let p : PicSt := { fid := x.fids, ts := b.ts, pts := recNat b.bytes 16 8, buf := i, fmt := fmt, w := h.width, h := h.height
                             conceal := b.damaged }
          let y := (d.takeBuf s x i).modBuf i (fun z => { z with shape := some (fmt, h.width, h.height) })
          let d := (d.engineWorks x.engine).setStream s { y with
            fids := x.fids + 1, cur := some p, queue := if x.kind = 2 then r else q }
          let d := if x.overRate d.now then
              { d with med := { d.med with engLast := d.med.engLast.set (Fin.ofNat 7 x.engine) s } } else d
          d.easelStart s p.fid (p.fid % 65536) b.ts i h.width h.height
      | _, _ => d

/-! ## Concealment (R289) -/

/-- The blocks that are concealed: of some damage the whole picture. -/
def damageRects (x : Damage) (fmt w h : Nat) : List PixRect :=
  match x.kind with
  | .missingParameterSet | .unitTooLong =>
    let ps := planesOf fmt w h
    (ps.zip (upto ps.length)).map (fun e => ⟨e.2, 0, 0, e.1.1, e.1.2⟩)
  | .missingReference => []
  | .incomplete | .syntaxError | .restartMarker => x.blocks

def rectHas (r : PixRect) (k y x : Nat) : Bool :=
  r.plane == k && decide (r.x ≤ x ∧ x < r.x + r.w ∧ r.y ≤ y ∧ y < r.y + r.h)

/-- The most recent reference picture, where it has the picture's shape. -/
def lastRef (x : StreamSt) (p : PicSt) : Option Nat :=
  match (x.bufs.filter (fun b => b.isRef && b.ix != p.buf)).getLast? with
  | some b => if b.shape = some (p.fmt, p.w, p.h) then some (x.bufAt b.ix) else none
  | none => none

/-- A byte of mid-grey: code 128, or 512 in the upper ten bits (PRESUMED, log 43). -/
def greyByte (fmt x : Nat) : Byte := if fmt = 1 ∧ x % 2 = 0 then 0#8 else 0x80#8

/-- A block of the picture in the buffer at `base` holds a poisoned byte. -/
def Dev.rectPoisoned (d : Dev) (base fmt w h : Nat) (r : PixRect) : Bool :=
  let pitch := pitchOf fmt w h
  (upto r.h).any (fun j => d.poisonedN (base + pitch * h * r.plane + pitch * (r.y + j) + r.x) r.w)

/-- The blocks predicted from a poisoned part of a reference picture: they are concealed (R398, R399). -/
def Dev.harmedBlocks (d : Dev) (x : StreamSt) (p : PicSt) (reads : List RefRead) : List PixRect :=
  (reads.filter (fun r => d.rectPoisoned (x.bufAt r.buf) p.fmt p.w p.h r.src)).map (·.dst)

/-- The picture with its concealed blocks: co-located bytes of the most recent reference, else, and where those are
poisoned, mid-grey. -/
def Dev.concealed (d : Dev) (x : StreamSt) (p : PicSt) (rects : List PixRect) (pix : List Byte) : List Byte :=
  if rects.isEmpty then pix
  else
    let pitch := pitchOf p.fmt p.w p.h
    let ps := planesOf p.fmt p.w p.h
    let at_ := (ps.zip (upto ps.length)).flatMap (fun e => (upto e.1.2).flatMap (fun y => (upto e.1.1).map (fun c => (e.2, y, c))))
    mapIx at_ (fun i t =>
      if rects.any (fun r => rectHas r t.1 t.2.1 t.2.2) then
        match lastRef x p with
        | some a =>
          let at_ := a + pitch * p.h * t.1 + pitch * t.2.1 + t.2.2
          if d.poisoned at_ then greyByte p.fmt t.2.2 else d.mem.rd at_
        | none => greyByte p.fmt t.2.2
      else pix.getD i (greyByte p.fmt t.2.2))

/-- The average decode time (R308): the mean of the first 8, then a sixteenth of each difference. -/
def StreamSt.timed (x : StreamSt) (ns : Nat) (late : Bool) : StreamSt :=
  if x.avgN < 8 then
    let n := x.avgN + 1
    let m := if n = 8 then (x.avgSum + ns) / 8 else 0
    { x with avgN := n, avgSum := x.avgSum + ns, avg := m }
  else if late then x
  else { x with avg := ((x.avg : Int) + ((ns : Int) - (x.avg : Int)) / 16).toNat }

/-- PICTURE_DECODE_COMPLETE (R270, R285, R289, R291, R294, R308, R399). -/
def Dev.decodeDone (d : Dev) (s ns : Nat) (how : PicEnd) (pix : List Byte) (order shown : Nat) (refs : List Nat) : Dev :=
  match d.stream s with
  | none => d
  | some x =>
    match x.cur with
    | none => d
    | some p =>
      let harmed := d.harmedBlocks x p how.reads
      let p' := { p with ns := ns, conceal := p.conceal || !how.damage.isEmpty || !harmed.isEmpty, order := order }
      let rects := how.damage.flatMap (fun m => damageRects m p.fmt p.w p.h) ++ harmed ++ p.bad
      let d := d.engineWorks x.engine
      let d := d.putImage (x.bufAt p.buf) x.bufBytes p.fmt p.w p.h (d.concealed x p rects pix)
      let d := if how.held = 0 then d else d.rtAdd (enginePort x.engine) how.held
      let y : StreamSt := { x with
        cur := none, pics := x.pics ++ [p'], bufs := x.bufs.map (fun b => ({ b with isRef := refs.contains b.ix } : BufSt)) }
      let d := d.setStream s (y.timed ns p.late)
      let d := d.incMod .vidEngStat [x.engine] 15 0 1
      let d := if x.closing.isSome then d.flushPics s else outputPics shown d s
      d.tryClose s

/-- A decoder's line buffer fails its check (R398): the block of the picture under way is concealed as R289 states. -/
def Dev.concealCur (d : Dev) (s : Nat) (block : PixRect) : Dev :=
  d.modStream s (fun x => { x with cur := x.cur.map (fun p => { p with conceal := true, bad := p.bad ++ [block] }) })

/-- An encoder's line buffer fails its check (R398): the block is concealed in the picture it encodes. -/
def Dev.concealEnc (d : Dev) (e : Nat) : Dev :=
  match d.enc e with
  | some x => d.setEnc e { x with jobs := match x.jobs with | j :: r => { j with conceal := true } :: r | [] => [] }
  | none => d

/-! ## Encoders (R290, R437) -/

/-- The overlay rectangles are in range. -/
def overlayOk (d : Dev) (a n : Nat) : Bool :=
  (upto n).all (fun i =>
    let r := d.load (a + 12 * i) 12
    decide (recNat r 8 1 < 16) && decide (2 ≤ recNat r 9 1 ∧ recNat r 9 1 ≤ 8) && zeros r 10 2)

/-- An input entry that can be encoded. -/
def encEntryOk (d : Dev) (x : EncSt) (e : List Byte) : Bool :=
  let n := recNat e 2 1
  recNat e 0 1 == 1 && decide (recNat e 1 1 < 2) && decide (n ≤ 64) && zeros e 3 5 && zeros e 18 6 &&
    decide (x.width ≤ recNat e 16 2) && d.reach (recNat e 8 8) (recNat e 16 2 * (x.height + ceilDiv x.height 2)) &&
    (n == 0 || (d.reach (recNat e 24 8) (12 * n) && overlayOk d (recNat e 24 8) n))

/-- An input picture, or its overlay list, is poisoned: its damaged samples are concealed before they are encoded (R399);
which access-unit bytes that gives is the encoder's, and R290's entry has no flag for it. -/
def encHarmed (d : Dev) (x : EncSt) (e : List Byte) : Bool :=
  d.poisonedN (recNat e 8 8) (recNat e 16 2 * (x.height + ceilDiv x.height 2)) || d.poisonedN (recNat e 24 8) (12 * recNat e 2 1)

/-- ENCODE_INPUT (R437): the entry's frame is read and its buffer freed; an entry that breaks the layout is consumed
unused (DEDUCED, log 50). While the output half of its engine's line buffer is full the encoder stalls (R291). -/
def Dev.encodeInput (d : Dev) (e : Nat) : Dev :=
  match d.enc e with
  | none => d
  | some x =>
    let r := d.load (x.inRing + 64 + 32 * x.inIdx) 32
    if bit (recNat r 1 1) 0 ≠ x.inPh ∨ x.closing.isSome ∨ d.rtFull (enginePort x.engine) 1 then d
    else
      let i := (x.inIdx + 1) % 2 ^ x.inLog
      let d := if encEntryOk d x r then d else d.violAny [recNat r 8 8, recNat r 24 8]
      let d := (if encEntryOk d x r then d.engineWorks x.engine else d).setEnc e { x with
        inIdx := i, inPh := if i = 0 then !x.inPh else x.inPh, inCount := x.inCount + 1
        jobs := if encEntryOk d x r then x.jobs ++ [{ entry := r, conceal := encHarmed d x r }] else x.jobs }
      d.store x.inRing (leBytes 8 (x.inCount + 1))

/-- Complete an ENCODE_CLOSE whose last access unit is announced (R435). -/
def Dev.tryCloseEnc (d : Dev) (e : Nat) : Dev :=
  match d.enc e with
  | some x =>
    match x.closing with
    | some tag =>
      if x.jobs.isEmpty then
        let d : Dev := { d with med := { d.med with encs := dropKeyed d.med.encs e } }
        d.countStreams.reply 0x04 tag stOk []
      else d
    | none => d
  | none => d

/-- ACCESS_UNIT_COMPLETE (R290): the unit is written to the output area, then announced. A unit that does not fit before
the area's end starts at its beginning; while the entry ring is full the encoder stalls (DESIGN CHOICE, log 50), and while
the output half of its engine's line buffer is (R291). The unit's bytes leave that half as the port's writes are accepted
(R328; log 51). -/
def Dev.accessUnit (d : Dev) (e : Nat) (bs : List Byte) : Dev :=
  match d.enc e with
  | none => d
  | some x =>
    let lo := if x.format = 2 then 128 else 0
    if x.jobs.isEmpty ∨ x.outLen < lo + bs.length ∨ 2 ^ x.outLog ≤ x.entCount - d.loadNat x.entryRing 8 ∨
        d.rtFull (enginePort x.engine) 1 then d
    else
      let p := max lo (if x.outLen < x.outPos + bs.length then lo else x.outPos)
      let i := (x.entIdx + 1) % 2 ^ x.outLog
      let en := [1#8, BitVec.ofNat 8 (b2n x.entPh), 0#8, 0#8] ++ leBytes 4 bs.length ++ leBytes 8 (x.out + p) ++
        (upto 8).map (fun k => Config.openByte d.free (16 + k)) ++ leBytes 8 0
      let d := (d.store (x.out + p) bs).store (x.entryRing + 64 + 32 * x.entIdx) en
      let d := ((d.engineWorks x.engine).rtAdd (enginePort x.engine) bs.length).nextFree.setEnc e { x with
        jobs := x.jobs.drop 1, outPos := p + bs.length, entIdx := i, entPh := if i = 0 then !x.entPh else x.entPh
        entCount := x.entCount + 1 }
      (d.incMod .vidEngStat [x.engine] 15 0 1).tryCloseEnc e

/-! ## Meanings -/

/-- DATA (R284, R288). -/
def execData (t : Fin 144) (e : List Byte) (h : DataRun) (s : State) : Host.Outcome State Fault Refusal :=
  onDev s (s.dev.bsData t.val e h)
/-- EOS (R284). -/
def execEos (t : Fin 144) (e : List Byte) (s : State) : Host.Outcome State Fault Refusal := onDev s (s.dev.bsEos t.val e)
/-- PICTURE_DECODE_START (R285, R303). -/
def execPictureDecodeStart (t : Fin 144) (first : PicStart) (s : State) : Host.Outcome State Fault Refusal :=
  onDev s (s.dev.decodeStart t.val first)
/-- PICTURE_DECODE_COMPLETE (R285). -/
def execPictureDecodeComplete (t : Fin 144) (ns : Nat) (how : PicEnd) (pix : List Byte) (order shown : Nat) (refs : List Nat)
    (s : State) : Host.Outcome State Fault Refusal := onDev s (s.dev.decodeDone t.val ns how pix order shown refs)
/-- ENCODE_INPUT (R437). -/
def execEncodeInput (e : Fin 32) (s : State) : Host.Outcome State Fault Refusal := onDev s (s.dev.encodeInput e.val)
/-- ACCESS_UNIT_COMPLETE (R290). -/
def execAccessUnitComplete (e : Fin 32) (bs : List Byte) (s : State) : Host.Outcome State Fault Refusal :=
  onDev s (s.dev.accessUnit e.val bs)

end Sys2Proof.Machine
end

