-- ==== Sys2Proof/Machine/StaffCore.lean ====
section
/-! DEFINITION. Staff-core atomics on Commons (R257, R259, R31): what they do to Commons and the reservations, and the
exceptions they take; the result goes to the staff core's own register, which lies outside the model (log 25). -/

namespace Sys2Proof.Machine

/-- The Commons word a staff-core address names: plain, or through the atomic window (R31); none where the access faults
(R36, R44): unmapped, at or above 2^48, no Commons word, or not naturally aligned. -/
def staffWord (addr n : Nat) : Option Nat :=
  if addr % n ≠ 0 then none
  else if commonsBase ≤ addr ∧ addr + n ≤ commonsBase + commonsSize then some addr
  else if windowBase ≤ addr ∧ addr + n ≤ windowBase + windowSize then some (commonsBase + (addr - windowBase))
  else none

/-- RV64A arithmetic on `w` bits. -/
def amoVal (op : AmoOp) (w x y : Nat) : Nat :=
  match op with
  | .swap => y
  | .add => (x + y) % 2 ^ w
  | .xor => x ^^^ y
  | .and => x &&& y
  | .or => x ||| y
  | .min => if sgn w x ≤ sgn w y then x else y
  | .max => if sgn w x ≤ sgn w y then y else x
  | .minu => min x y
  | .maxu => max x y

/-- A store by a hart: other harts' reservations of the granule are lost, its own are not (R259). -/
def Dev.hartStore (d : Dev) (hart a : Nat) (bs : List Byte) : Dev :=
  let own := d.com.resv.filter (fun e => e.1 == hart)
  let d := d.store a bs
  { d with com := { d.com with resv := own ++ d.com.resv.filter (fun e => e.1 != hart) } }

/-- A staff core takes an exception (R36, R44, R398, R399): an access to the Proctor region counts as well. -/
def Dev.staffFault (d : Dev) (hart : Hart) (e : StaffExc) (addr : Nat) : Dev :=
  { d with staff := d.staff.set hart { d.staff[hart] with exc := some (e, addr) } }.viol addr

/-- STAFF_CORE_AMO: a poisoned or unreachable word faults the hart and stays unchanged (R36, R399). -/
def Dev.staffAmo (d : Dev) (hart : Hart) (op : AmoOp) (wide : Bool) (addr : Nat) (v : W64) : Dev :=
  let n := if wide then 8 else 4
  match staffWord addr n with
  | none => d.staffFault hart .storeAccess addr
  | some a =>
    if d.poisonedN a n then d.staffFault hart .loadAccess addr
    else d.hartStore hart.val a (leBytes n (amoVal op (8 * n) (d.loadNat a n) (v.toNat % 2 ^ (8 * n))))

/-- STAFF_CORE_LR: the hart reserves the 64-byte granule; an earlier reservation of its own ends. -/
def Dev.staffLr (d : Dev) (hart : Hart) (wide : Bool) (addr : Nat) : Dev :=
  match staffWord addr (if wide then 8 else 4) with
  | none => d.staffFault hart .loadAccess addr
  | some a =>
    if d.poisonedN a (if wide then 8 else 4) then d.staffFault hart .loadAccess addr
    else { d with com := { d.com with resv := (hart.val, a / 64 * 64) :: d.com.resv.filter (fun e => e.1 != hart.val) } }

/-- STAFF_CORE_SC: stores while the hart's reservation holds the granule; the reservation ends either way. -/
def Dev.staffSc (d : Dev) (hart : Hart) (wide : Bool) (addr : Nat) (v : W64) : Dev :=
  let n := if wide then 8 else 4
  let held (a : Nat) : Bool := d.com.resv.contains (hart.val, a / 64 * 64)
  match staffWord addr n with
  | none => d.staffFault hart .storeAccess addr
  | some a =>
    let d' : Dev := { d with com := { d.com with resv := d.com.resv.filter (fun e => e.1 != hart.val) } }
    if held a then d'.store a (leBytes n v.toNat) else d'

/-- STAFF_CORE_AMO (R257, R259). -/
def execStaffCoreAmo (hart : Hart) (op : AmoOp) (wide : Bool) (addr : Nat) (v : W64) (s : State) :
    Host.Outcome State Fault Refusal := onDev s (s.dev.staffAmo hart op wide addr v)
/-- STAFF_CORE_LR (R259). -/
def execStaffCoreLr (hart : Hart) (wide : Bool) (addr : Nat) (s : State) : Host.Outcome State Fault Refusal :=
  onDev s (s.dev.staffLr hart wide addr)
/-- STAFF_CORE_SC (R259). -/
def execStaffCoreSc (hart : Hart) (wide : Bool) (addr : Nat) (v : W64) (s : State) : Host.Outcome State Fault Refusal :=
  onDev s (s.dev.staffSc hart wide addr v)

end Sys2Proof.Machine
end

