-- ==== Sys2Proof/Machine/Detect.lean ====
section
/-! DEFINITION. What a detected error does (R398), Recess (R411, R412) and the whole-device test (R414). -/

namespace Sys2Proof.Machine

/-! ## Errors (R398) -/

/-- A parity error on a Kwaos flit: answered by a NAK and replayed; a lane that fails again is substituted (R350, R353). -/
def Dev.kwaosError (d : Dev) (k : Fin 4) (lane : Fin 4) (perm : Bool) : Dev :=
  let d := d.laneCount k [lane.val]
  if perm then d.laneLost k lane
  else
    let x := d.port k
    if lnkState d k.val ≠ 2 ∨ x.awaitReplay then d
    else ((d.setPort k { x with awaitReplay := true, ctl := some (.nak x.rx) }).incSat .lnkErr [k.val] 15 0 1).log stParityReplayed 3 k.val 0 lane.val

/-- A parity error at a stack interface: retried; one that stays retrains the channel and has the row repaired
(R335, R338). -/
def Dev.stackError (d : Dev) (c : Fin 16) (addr : Nat) (perm : Bool) : Dev :=
  let d := d.incSat .memChErr [c.val] 7 0 1
  if !perm then d
  else
    let d := if d.fld .memChStat [c.val] 31 29 = 2 then d.retrainHere c else d
    let blk := addr / 64 * 64
    if blk < stackEnd then d.askRepair c (pcOf d blk) (bankOf d blk) (rowOfAddr d blk) else d

/-- Line `n` of a frame fails its check: it is filled as a missing line from the one before it, where there is one, and the
frame sets CRC (log 57). -/
def CapFrame.badLine (f : CapFrame) (n : Nat) : CapFrame :=
  { f with flags := f.flags ||| 0x01#8
           lines := if 1 ≤ n ∧ n < f.lines.length then setAt f.lines n (f.lines.getD (n - 1) []) else f.lines }

/-- The line a capture stream received last fails its check. -/
def Dev.captureError (d : Dev) (s : Nat) : Dev :=
  d.modStream s (fun x => { x with frame := x.frame.map (fun f => f.badLine (f.lines.length - 1)) })

/-- The line an ISP pipeline takes next fails its check in its line buffer: as a capture line (DESIGN CHOICE, log 57). -/
def Dev.ispError (d : Dev) (k : Fin 2) : Dev :=
  let x := d.med.pipes[k]
  { d with med := { d.med with pipes := d.med.pipes.set k { x with queue := match x.queue with
      | (s, f) :: r => (s, f.badLine f.done) :: r
      | [] => [] } } }

/-- A staff-core cache line fails its check (R398): a clean one is fetched again; a dirty one raises a machine error, and the
runtime restarts the service it belongs to from its state in the stack. -/
def Dev.staffCacheError (d : Dev) (h : Hart) (dirty : Bool) : Dev :=
  if dirty then
    { d with staff := d.staff.set h { exc := some (.machineError, 0), restarts := d.staff[h].restarts + 1 } }
  else d

/-- ERROR_DETECT (R398): one row of the table. -/
def Dev.errorDetect (d : Dev) (w : ErrorSite) (perm : Bool) : Dev :=
  match w with
  | .satchel p a spare => if perm && !spare then d.permanent p [a] else d.replayLogged p true a
  | .imem p a spare => if perm && !spare then d.permanent p [] else d.imemError p a
  | .coreReg p => if perm then d.permanent p [] else d.replayLogged p false 0
  | .residue p => if perm then d.permanent p [] else d.replayLogged p false 0
  | .slotLogic p => if perm then d.permanent p [] else d
  | .network path => d.log stParityReplayed 1 path 0 0
  | .kwaos k lane => d.kwaosError k lane perm
  | .stackIf c a => d.stackError c a perm
  | .commons a => d.commonsError a perm
  | .taskTable row => if perm then { d with flt := { d.flt with rowRepl := d.flt.rowRepl ++ [row] } } else d
  | .staffCache h dirty => d.staffCacheError h dirty
  | .captureBuffer s => d.captureError s.val
  | .ispBuffer k => d.ispError k
  | .codecBuffer s block => d.concealCur s block
  | .encoderBuffer e => d.concealEnc e.val
  | .pll commons => d.pllLoss commons

/-! ## Recess (R411, R412) -/

/-- The Commons address lies in the part a scrub reads from `at_` on, `n` bytes with the end of Commons wrapping. -/
def scrubbed (at_ n addr : Nat) : Bool :=
  decide (commonsBase ≤ addr ∧ addr < commonsBase + commonsSize) &&
    decide ((addr - commonsBase + commonsSize - at_ % commonsSize) % commonsSize < n)

/-- RECESS_WINDOW, the work in R412's order: the on-die correction counts are collected; the Commons scrub reads what is left
of the window's 600,000 bytes and a word that fails its check is handled as R398 states; the stack scrub reads what is
left of the 153,600; failing rows of the task table and checkpoint store are replaced. Retraining, repairs, measurements
and tests have commands of their own, and what they used of the shares goes before (log 95). -/
def Dev.recessWindow (d : Dev) (w : Recess) : Dev :=
  let d := w.corrections.foldl Dev.rowFix d
  let n := 600000 - w.commonsUsed
  let d := (w.errors.filter (fun e => scrubbed d.flt.scrubCommons n e.1)).foldl (fun d e => d.commonsError e.1 e.2) d
  { d with flt := { d.flt with
      scrubCommons := (d.flt.scrubCommons + n) % commonsSize
      scrubStack := if d.stackOn then (d.flt.scrubStack + (153600 - w.stackUsed)) % stackEnd else d.flt.scrubStack
      rowRepl := [] } }

/-! ## Device test (R414) -/

/-- Records fetched enter the table; every entry not started completes with FORCED_TEST_ABORT. -/
def Dev.abortWaiting (d : Dev) : Dev :=
  let d := d.tt.fetched.foldl (fun d e => d.enter e.1 e.2) { d with tt := { d.tt with fetched := [] } }
  (d.tt.entries.filter (fun e => decide (e.2.phase = .waiting))).foldl (fun d e => d.finish e.1 stForcedAbort 0#8 0) d

/-- A device test begins. -/
def Dev.devTestStart (d : Dev) (t : TestReq) : Dev :=
  { d with flt := { d.flt with devTest := some t, forced := true } }.abortWaiting

/-- FORCED_TEST_TIMEOUT: tasks still running are ended as R123 describes. -/
def Dev.forcedTimeout (d : Dev) : Dev :=
  if d.flt.forced then
    ([0, 1, 2, 3, 4, 5, 6] : List (Fin 7)).foldl (fun d p =>
      if (d.core p).active && (d.core p).abort.isNone then d.endTask p stForcedAbort else d) d
  else d

/-- DEVICE_TEST_COMPLETE: Commons and every Satchel are undefined; dispatch is enabled again; a failure is reported
(its code is a DESIGN CHOICE, log 57). -/
def Dev.devTestDone (d : Dev) (passed : Bool) : Dev :=
  if d.flt.forced then
    let d := d.undefine commonsBase (commonsBase + commonsSize)
    let d := (upto 7).foldl (fun d p => d.undefine (satBase p) (satBase p + satchelSize)) d
    let t := d.flt.devTest
    let d : Dev := { d with flt := { d.flt with devTest := none, forced := false } }
    let st := if passed then stOk else stCoreLost
    let d := if passed then d else d.log stCoreLost 9 0 0 0
    match t with
    | some t => d.reply 0x11 t.tag st []
    | none => d
  else d

/-! ## Meanings -/

/-- ERROR_DETECT (R398). -/
def execErrorDetect (w : ErrorSite) (perm : Bool) (s : State) : Host.Outcome State Fault Refusal := onDev s (s.dev.errorDetect w perm)
/-- RECESS_WINDOW (R411, R412). -/
def execRecessWindow (w : Recess) (s : State) : Host.Outcome State Fault Refusal := onDev s (s.dev.recessWindow w)
/-- DEVICE_TEST_COMPLETE (R414). -/
def execDeviceTestComplete (passed : Bool) (s : State) : Host.Outcome State Fault Refusal := onDev s (s.dev.devTestDone passed)
/-- FORCED_TEST_TIMEOUT (R414). -/
def execForcedTestTimeout (s : State) : Host.Outcome State Fault Refusal := onDev s s.dev.forcedTimeout

end Sys2Proof.Machine
end

