-- ==== Sys2Proof/Machine/Primer.lean ====
section
/-! DEFINITION. Primer, the tokeniser (R311-R315, R317). -/

namespace Sys2Proof.Machine

def Dev.setPrim (d : Dev) (p : PrimSt) : Dev := { d with med := { d.med with prim := p } }
def primOn (d : Dev) : Bool := d.flag .primCtl [] 31

def PrimSt.n (p : PrimSt) (off len : Nat) : Nat := recNat p.blk off len
def PrimSt.jobLog (p : PrimSt) : Nat := p.n 16 1 % 16
def PrimSt.cplLog (p : PrimSt) : Nat := p.n 16 1 / 16

/-- The rules of R311's block. -/
def primBlockOk (d : Dev) (b : List Byte) : Bool :=
  let p : PrimSt := { blk := b }
  let lg (n : Nat) : Bool := decide (4 ≤ n ∧ n ≤ 12)
  lg p.jobLog && lg p.cplLog && zeros b 17 7 && zeros b 40 24 && d.reach (p.n 0 8) (64 + 64 * 2 ^ p.jobLog) &&
    d.reach (p.n 8 8) (16 * 2 ^ p.cplLog) && d.reach (p.n 24 8) 64 && (p.n 32 8 == 0 || d.reach (p.n 32 8) 64)

/-- The block is read (R311): one that breaks a rule leaves EN at 0 and sets ERR. -/
def Dev.primTake (d : Dev) : Dev :=
  let base := hiLo (d.rg .primBaseHi []) (d.rg .primBaseLo [])
  let b := d.load base 64
  if d.reach base 64 && primBlockOk d b then (d.setPrim { blk := b }).setFld .primCtl [] 31 31 1
  else (((d.violAny [base, recNat b 0 8, recNat b 8 8, recNat b 24 8, recNat b 32 8]).setPrim { d.med.prim with again := false }).setFld
    .primCtl [] 31 31 0).setFld .primCtl [] 30 30 1

/-- PRIMER_ENABLE (R311): EN from 0 to 1. While jobs taken before are not complete, EN reads 1 and the block is read when they
are (DESIGN CHOICE, log 72). -/
def Dev.primEnable (d : Dev) : Dev :=
  if primOn d then d
  else if d.med.prim.cur.isSome ∨ !d.med.prim.jobs.isEmpty then (d.setPrim { d.med.prim with again := true }).setFld .primCtl [] 31 31 1
  else d.primTake

/-- EN written 0 (R317): polling ends once the current job completes; the jobs taken complete (DEDUCED, log 72). -/
def Dev.primDisable (d : Dev) : Dev :=
  (d.setPrim { d.med.prim with stopping := primOn d && !d.med.prim.again && d.med.prim.cur.isSome || d.med.prim.stopping, again := false }).setFld
    .primCtl [] 31 31 0

/-- Fetch up to `k` job records (R242, R311); each one is recorded (R421). -/
def fetchJobs : Nat → Dev → Dev
  | 0, d => d
  | k + 1, d =>
    let p := d.med.prim
    let r := d.load (p.n 0 8 + 64 + 64 * p.jobIdx) 64
    if bit (recNat r 1 1) 0 ≠ p.jobPh then d
    else
      let i := (p.jobIdx + 1) % 2 ^ p.jobLog
      let d := d.setPrim { p with
        jobIdx := i, jobPh := if i = 0 then !p.jobPh else p.jobPh, jobCount := p.jobCount + 1, jobs := p.jobs ++ [r] }
      fetchJobs k (d.record 6 r)

/-- PRIMER_POLL (R311). -/
def Dev.primPoll (d : Dev) : Dev :=
  if !(primOn d && !d.med.prim.again || d.med.prim.stopping) || d.flt.forced || d.flt.mario.isSome then d
  else
    let n := d.med.prim.jobCount
    let d := fetchJobs 8 d
    if d.med.prim.jobCount = n then d else d.store (d.med.prim.n 0 8) (leBytes 8 d.med.prim.jobCount)

/-! ## Tokenising (R312-R314) -/

/-- A dictionary as its header gives it. -/
structure Dict where
  nodes : Nat
  edges : Nat
  byteBase : Nat
  bos : Nat
  eos : Nat
  nodeAt : Nat
  edgeAt : Nat
deriving DecidableEq, Repr

/-- Read a dictionary's header; none for a bad magic. -/
def readDict (d : Dev) (a : Nat) : Option Dict :=
  let h := d.load a 64
  if d.reach a 64 && recNat h 0 2 == 0x7C1E then
    some ⟨recNat h 4 4, recNat h 8 4, recNat h 12 4, recNat h 16 4, recNat h 20 4, recNat h 24 8, recNat h 32 8⟩
  else none

/-- A read of a dictionary that ends the job: at an address Primer may not reach, or of bytes that break R314. -/
inductive DictErr where
  | denied (a : Nat)
  | bad
deriving DecidableEq, Repr

/-- A node: token, first edge, edge count; an error for an index beyond the array, a token or an edge count out of range. -/
def readNode (d : Dev) (t : Dict) (i : Nat) : Except DictErr (Nat × Nat × Nat) :=
  let b := d.load (t.nodeAt + 16 * i) 16
  let tok := recNat b 0 4
  let n := recNat b 8 2
  if t.nodes ≤ i then .error .bad
  else if !d.reach (t.nodeAt + 16 * i) 16 then .error (.denied (t.nodeAt + 16 * i))
  else if (tok ≤ 262143 ∨ tok = 0xFFFFFFFF) ∧ n ≤ 256 then .ok (tok, recNat b 4 4, n)
  else .error .bad

/-- Binary search among edges `lo` to `hi - 1` for byte `x`; `below` and `above` bound the bytes still possible. An
edge read beyond the array or out of order is an error; else the child if there is one. -/
def findEdge : Nat → Dev → Dict → Nat → Nat → Nat → Nat → Nat → Except DictErr (Option Nat)
  | 0, _, _, _, _, _, _, _ => .ok none
  | k + 1, d, t, lo, hi, x, below, above =>
    if hi ≤ lo then .ok none
    else
      let m := (lo + hi) / 2
      let b := d.load (t.edgeAt + 8 * m) 8
      let y := recNat b 0 1
      if t.edges ≤ m then .error .bad
      else if !d.reach (t.edgeAt + 8 * m) 8 then .error (.denied (t.edgeAt + 8 * m))
      else if y + 1 < below + 1 ∨ above ≤ y then .error .bad
      else if y = x then .ok (some (recNat b 4 4))
      else if x < y then findEdge k d t lo m x below y
      else findEdge k d t (m + 1) hi x (y + 1) above

/-- The walk from `node` at depth `dep`: `best` is the longest match so far. -/
def walkTrie : Nat → Dev → Dict → List Byte → Nat → Nat → Option (Nat × Nat) → Except DictErr (Option (Nat × Nat))
  | 0, _, _, _, _, _, best => .ok best
  | k + 1, d, t, text, node, dep, best =>
    match text with
    | [] => .ok best
    | c :: rest =>
      match readNode d t node with
      | .error e => .error e
      | .ok (_, e0, n) =>
        match findEdge 10 d t e0 (e0 + n) c.toNat 0 256 with
        | .error e => .error e
        | .ok none => .ok best
        | .ok (some child) =>
          match readNode d t child with
          | .error e => .error e
          | .ok (tok, _, _) =>
            walkTrie k d t rest child (dep + 1) (if tok = 0xFFFFFFFF then best else some (tok, dep + 1))

/-- The loop of R314 over the text from `pos`: `room` places are left for tokens, `n` tokens have been written at
`dst`; answers the device, TRUNC, DICTERR, tokens, bytes consumed. A dictionary access into the Proctor region counts (R36). -/
def tokLoop : Nat → Dev → Dict → List Byte → Nat → Nat → Nat → Nat → Dev × Bool × Bool × Nat × Nat
  | 0, d, _, _, pos, _, n, _ => (d, false, false, n, pos)
  | k + 1, d, t, text, pos, room, n, dst =>
    match text with
    | [] => (d, false, false, n, pos)
    | c :: _ =>
      match walkTrie 64 d t text 0 0 none with
      | .error .bad => (d, false, true, n, pos)
      | .error (.denied a) => (d.viol a, false, true, n, pos)
      | .ok best =>
        let (tok, len) := best.getD (t.byteBase + c.toNat, 1)
        if room ≤ n then (d, true, false, n, pos)
        else tokLoop k (d.store (dst + 4 * n) (leBytes 4 tok)) t (text.drop len) (pos + len) room (n + 1) dst

/-- The rules of a job record (R312). -/
def jobOk (d : Dev) (p : PrimSt) (r : List Byte) : Bool :=
  recNat r 0 1 == 1 && decide (recNat r 1 1 < 2) && decide (recNat r 2 1 < 2) && decide (recNat r 3 1 < 4) &&
    decide (recNat r 16 4 ≤ 16777216) && decide (1 ≤ recNat r 20 4 ∧ recNat r 20 4 ≤ 16777216) && zeros r 32 32 &&
    p.n (24 + 8 * recNat r 2 1) 8 != 0 && d.reach (recNat r 8 8) (recNat r 16 4) && d.reach (recNat r 24 8) (4 * recNat r 20 4)

/-- Tokenise a job (R314): the tokens are written and the result answered. -/
def Dev.tokenise (d : Dev) (p : PrimSt) (r : List Byte) : Dev × TokRes :=
  if !jobOk d p r then (d, ⟨stCommandInvalid, false, false, 0, 0⟩)
  else
    match readDict d (p.n (24 + 8 * recNat r 2 1) 8) with
    | none => (d, ⟨stCommandInvalid, false, true, 0, 0⟩)
    | some t =>
      let dst := recNat r 24 8
      let bos := bit (recNat r 3 1) 0
      let eos := bit (recNat r 3 1) 1
      let max := recNat r 20 4
      let room := if eos then max - 1 else max
      let fits := !bos || decide (0 < room)
      let n0 := b2n (bos && fits)
      let d := if bos && fits then d.store dst (leBytes 4 t.bos) else d
      let text := d.load (recNat r 8 8) (recNat r 16 4)
      let (d, trunc, err, n, used) := if fits then tokLoop text.length d t text 0 room n0 dst else (d, true, false, 0, 0)
      if err then (d, ⟨stCommandInvalid, false, true, n, used⟩)
      else if eos then (d.store (dst + 4 * n) (leBytes 4 t.eos), ⟨stOk, trunc, false, n + 1, used⟩)
      else (d, ⟨stOk, trunc, false, n, used⟩)

/-- TOKENISE (R314, R315): the job at the front starts, one at a time. -/
def Dev.startJob (d : Dev) (r : List Byte) : Dev :=
  let p := d.med.prim
  match p.jobs with
  | j :: rest =>
    if j = r ∧ p.cur.isNone then
      let (d, res) := (if jobOk d p r then d else d.violAny [recNat r 8 8, recNat r 24 8]).tokenise p r
      d.setPrim { p with jobs := rest, cur := some (r, res) }
    else d
  | [] => d

/-- TOKENISE_COMPLETE (R312, R317): the completion record, while its ring has room. -/
def Dev.jobDone (d : Dev) : Dev :=
  let p := d.med.prim
  match p.cur with
  | none => d
  | some (r, res) =>
    if 2 ^ p.cplLog ≤ p.cplCount - d.loadNat (p.n 0 8 + 8) 8 then d
    else
      let i := (p.cplIdx + 1) % 2 ^ p.cplLog
      let d := d.store (p.n 8 8 + 16 * p.cplIdx)
        ([res.status, BitVec.ofNat 8 (b2n p.cplPh), BitVec.ofNat 8 (b2n res.trunc + 2 * b2n res.dicterr), 0#8] ++
          (r.drop 4).take 4 ++ leBytes 4 res.tokens ++ leBytes 4 res.used)
      let d := d.setPrim { p with
        cplIdx := i, cplPh := if i = 0 then !p.cplPh else p.cplPh, cplCount := p.cplCount + 1, cur := none, stopping := false }
      let d := d.incMod .primStat [] 31 16 1
      let d := if res.dicterr then d.incSat .primStat [] 15 0 1 else d
      if p.again ∧ p.jobs.isEmpty then d.primTake else d

/-! ## Meanings -/

/-- PRIMER_ENABLE (R311). -/
def execPrimerEnable (s : State) : Host.Outcome State Fault Refusal := onDev s s.dev.primEnable
/-- TOKENISE (R312-R314). -/
def execTokenise (r : List Byte) (s : State) : Host.Outcome State Fault Refusal := onDev s (s.dev.startJob r)
/-- TOKENISE_COMPLETE (R312). -/
def execTokeniseComplete (s : State) : Host.Outcome State Fault Refusal := onDev s s.dev.jobDone

end Sys2Proof.Machine
end

