-- ==== Sys2Proof/Machine/Marionette.lean ====
section
/-! DEFINITION. Marionette mode (R422): inputs come from a recording (R421). The choices are in log 56. -/

namespace Sys2Proof.Machine

/-! ## Reading a recording (R421) -/

/-- The record at an offset of the ring, with its length in bytes, if its header can be one. -/
def Dev.recAt (d : Dev) (base len pos : Nat) : Option (RecEnt × Nat) :=
  let h := d.load (base + pos) 16
  let n := 16 * recNat h 2 2
  if recNat h 0 1 ≤ 6 ∧ recNat h 1 1 = 0 ∧ 16 ≤ n ∧ pos + n ≤ len then
    some (⟨recNat h 0 1, recNat h 4 4, recNat h 8 8, d.load (base + pos + 16) (n - 16), base + pos + 16⟩, n)
  else none

/-- Records from `pos` on, as long as SEQ rises by 1; a PAD ends the ring. -/
def readRecs : Nat → Dev → Nat → Nat → Nat → Nat → List RecEnt
  | 0, _, _, _, _, _ => []
  | k + 1, d, base, len, pos, seq =>
    match d.recAt base len (if len ≤ pos then 0 else pos) with
    | some (r, n) =>
      if r.seq = seq % 2 ^ 32 then
        let next := if r.kind = 0 then 0 else (if len ≤ pos then 0 else pos) + n
        let rest := readRecs k d base len next (seq + 1)
        if r.kind = 0 then rest else r :: rest
      else []
    | none => []

/-- The recording from the record with SEQ `seq` on. -/
def Dev.recording (d : Dev) (base len seq : Nat) : List RecEnt :=
  let here (i : Nat) : Bool := match d.recAt base len (16 * i) with | some (r, _) => r.seq == seq | none => false
  match (upto (len / 16)).find? here with
  | some i => readRecs (len / 16 + 1) d base len (16 * i) seq
  | none => []

/-! ## Decisions -/

/-- The recorded decision about a slot: it becomes ABSENT; a slot the batch has not reserved, or a sample carried, shows
that the batch's budget had expired. A slot converted before its record is presented keeps its sample, unless its set was
dropped (R309). -/
def AsmSt.absent (a : AsmSt) (n i : Nat) (expire drop : Bool) : AsmSt :=
  let past := (a.batches.find? (fun b => b.num == n)).any (fun b => decide (b.slots.length ≤ i))
  let a := if expire || past then
      { a with batches := a.batches.map (fun b => if b.num = n then { b.pad a.batch with expired := true } else b) } else a
  a.modSlot n i (fun z => if drop || z.st = .reserved then { z with st := .absent } else z)

/-- A carried sample: it reserves again at once if it is ready. -/
def AsmSt.carry (a : AsmSt) (tb : Nat) (on : Bool) (x : ESample) : AsmSt :=
  let x : ESample := { x with carried := true }
  if !x.ready then { a with carried := a.carried ++ [x] }
  else if on then a.put tb { st := .reserved, smp := some x, member := x.member } else a

/-- The set a recorded decision belongs to is closed, with its notice. -/
def Dev.closeSet (d : Dev) (ai : Fin 16) (n i : Nat) (x : Option ESample) : Dev :=
  match d.med.easel.sets.find? (fun y => y.asm == ai.val && y.batch == n && decide (y.base ≤ i ∧ i < y.base + y.n)) with
  | some y =>
    let d := d.modEasel (fun e => { e with sets := dropFirst (fun z => z == y) e.sets })
    d.asmNotice ai stGroupPartial ((x.map (·.stream)).getD 0) noId ((x.map (·.ts)).getD y.key)
  | none => d

/-- Apply one DECISION record. -/
def Dev.decide_ (d : Dev) (r : RecEnt) : Dev :=
  let id := recNat r.data 0 4
  let s := recNat r.data 4 1
  let reg := recNat r.data 5 1
  let n := recNat r.data 8 4
  let i := recNat r.data 12 1
  match d.bindOf s with
  | none => d
  | some b =>
    let ai := finAsm b.asm
    let a := d.asm ai
    let z := a.slotAt n i
    let x := (z.bind (·.smp)).filter (fun x => x.id == id && x.stream == s && x.region == reg)
    let same (y : ESample) : Bool := y.id == id && y.stream == s && y.region == reg
    match recNat r.data 6 1 with
    | 1 =>
      if z.any (fun z => z.st = .reserved) && x.isSome then
        let d := d.setAsm ai (a.modSlot n i (fun z => { z with st := .absent, stale := true }))
        (d.incSat .easelAsmStat [ai.val] 15 0 1).asmNotice ai stStaleDropped s id ((x.map (·.ts)).getD 0)
      else d
    | 2 =>
      let late (y : ESample) : ESample := if same y then { y with late := true } else y
      let ts := ((a.held.find? same).map (·.ts)).getD 0
      let a := { a with
        batches := a.batches.map (fun b => { b with slots := b.slots.map (fun z => { z with smp := z.smp.map late }) })
        carried := a.carried.map late }
      (d.setAsm ai a).asmNotice ai stLateSample s id ts
    | 3 =>
      match x with
      | some x => d.setAsm ai ((a.absent n i true false).carry d.tb (d.asmOn b.asm) x)
      | none => d
    | 4 => d.setAsm ai (a.absent n i false false)
    | 5 =>
      let d := d.closeSet ai n i x
      let part (y : ESample) : ESample := if same y then { y with partial_ := true } else y
      let a := d.asm ai
      d.setAsm ai { a with
        batches := a.batches.map (fun b => if b.num = n then { b with slots := modAt b.slots i (fun z => { z with smp := z.smp.map part }) } else b)
        carried := a.carried.map part }
    | 6 =>
      let d := d.closeSet ai n i x
      let a := d.asm ai
      d.setAsm ai { a.absent n i false true with carried := a.carried.filter (fun y => !same y) }
    | _ => d

/-! ## Presenting records -/

/-- A recorded COMMAND enters the Timetable unit; a LOAD recorded with its images reads them from the recording. -/
def Dev.playCommand (d : Dev) (r : RecEnt) : Dev :=
  let c := (r.data.drop 16).take 64
  let c := if 80 < r.data.length then
      let cfg := if recNat c 48 8 = 0 then 0 else r.at_ + 80 + recNat c 40 8
      c.take 32 ++ leBytes 8 (r.at_ + 80) ++ (c.drop 40).take 8 ++ leBytes 8 cfg ++ c.drop 56
    else c
  let d : Dev := { d with tt := { d.tt with fetched := d.tt.fetched ++ [(recNat r.data 0 1 % 16, c)] } }
  drainBad d.tt.fetched.length d

/-- The recorded frame record of a capture frame. -/
def isFrame (s no : Nat) (r : RecEnt) : Bool :=
  r.kind == 3 && recNat r.data 8 1 == s && recNat r.data 18 2 == no

/-- The frame record in a FRAME record. -/
def frameOf (b : List Byte) : FrameRec :=
  { ts := recNat b 0 8, stream := recNat b 8 1, flags := b.getD 9 0#8, status := b.getD 10 0#8, fmt := recNat b 11 1
    w := recNat b 12 2, h := recNat b 14 2, no := recNat b 18 2, ns := recNat b 20 4, buf := recNat b 24 8
    pts := recNat b 32 8, stats := recNat b 40 8 }

/-- The number a re-run gives a recorded capture frame. -/
def playFid (r : RecEnt) : Nat := 2 ^ 32 + r.seq

/-- Present one record. -/
def Dev.present (d : Dev) (r : RecEnt) (left : List RecEnt) : Dev :=
  let s := recNat r.data 0 1
  match r.kind with
  | 1 => d.playCommand r
  | 2 => d.modStream s (fun x => { x with entries := x.entries ++ [{ bytes := (r.data.drop 16).take 32, ts := r.ts }] })
  | 3 =>
    let f := frameOf r.data
    if f.stream < 16 then d.easelRecord f.stream (playFid r) f else d
  | 4 =>
    if s < 16 then
      match left.find? (isFrame s (recNat r.data 1 2)) with
      | some f => let g := frameOf f.data
                  d.easelStart s (playFid f) g.no g.ts 0 g.w g.h
      | none => d
    else d
  | 5 => d.decide_ r
  | 6 => d.setPrim { d.med.prim with jobs := d.med.prim.jobs ++ [r.data.take 64] }
  | _ => d

/-- The next input of a re-run; when none is left the request answers again. -/
def Dev.play (d : Dev) : Dev :=
  match d.flt.mario with
  | none => d
  | some m =>
    match m.left with
    | r :: rest =>
      if r.kind = 1 ∧ 1024 ≤ d.entriesUsed then d
      else { d with flt := { d.flt with mario := some { m with left := rest } } }.present r rest
    | [] =>
      if m.ended then d
      else { d with flt := { d.flt with mario := some { m with ended := true } } }.reply 0x12 m.tag stOk []

/-- MARIONETTE (R422, R435): enter with TT_CTL.EN = 0 and every capture stream disabled, or leave. -/
def Dev.marionette (d : Dev) (tag : Nat) (enter : Bool) (ring len seq : Nat) : Dev :=
  if enter then
    let ok := !d.flag .ttCtl [] 0 && (upto 16).all (fun s => !d.flag .capVcCfg [s] 31) && d.flt.mario.isNone &&
      decide (ring % 64 = 0 ∧ len % 64 = 0 ∧ 2 ^ 20 ≤ len ∧ len ≤ 2 ^ 32 ∧ ring + len ≤ runtimeBase) && d.reach ring len
    if ok then
      let l := d.recording ring len seq
      let d : Dev := { d with flt := { d.flt with mario := some { tag := tag, left := l, recipes := l.filter (fun r => r.kind == 4) } } }
      d.reply 0x12 tag stOk []
    else d.reply 0x12 tag stCommandInvalid []
  else if d.flt.mario.isSome then { d with flt := { d.flt with mario := none } }.reply 0x12 tag stOk []
  else d.reply 0x12 tag stCommandInvalid []

/-! ## Meanings -/

/-- RING_POLL (R242, R422). -/
def execRingPoll (host : List Host.Cell) (s : State) : Host.Outcome State Fault Refusal :=
  onDev s (if s.dev.flt.mario.isSome then (s.dev.hostPut host).play else s.dev.ringPoll host)
/-- BITSTREAM_POLL (R284, R422). -/
def execBitstreamPoll (host : List Host.Cell) (s : State) : Host.Outcome State Fault Refusal :=
  onDev s (if s.dev.flt.mario.isSome then (s.dev.hostPut host).play else s.dev.bitstreamPoll host)
/-- PRIMER_POLL (R311, R422). -/
def execPrimerPoll (s : State) : Host.Outcome State Fault Refusal :=
  onDev s (if s.dev.flt.mario.isSome then s.dev.play else s.dev.primPoll)

end Sys2Proof.Machine
end

