-- ==== Sys2Proof/Machine/Power.lean ====
section
/-! DEFINITION. The power manager: operating points and DVFS, droop, brace, the cap and leases, temperature, energy, the
report card and the regulator's telemetry (R372-R397, R438, R464, R467). -/

namespace Sys2Proof.Machine

def allSlots : List (Fin 7) := [0, 1, 2, 3, 4, 5, 6]
def curPoint (d : Dev) : Nat := d.fld .pwrDvfs [] 27 26
def supplyState (d : Dev) : Nat := d.fld .pwrSupply [] 31 30

/-! ## Setpoints (R374, R375, R391) -/

/-- The regulator's boot voltage in mV (R467). -/
def bootMv : Nat := 700

/-- The setpoint of a point: its fused voltage and 5 mV for each margin step applied. -/
def Dev.spOf (d : Dev) (k : Nat) : Nat := d.fuses.vfac.getD k 0 + 5 * d.pwr.applied.getD k 0

/-- The voltage floor (R375). -/
def voltFloor (point sp : Nat) : Nat := if point ≠ 0 ∨ sp ≤ 800 then 0 else if sp ≤ 820 then 1 else 2

/-- VOLT follows the commanded setpoint. -/
def Dev.setVolt (d : Dev) : Dev := d.setFld .pwrSkip [] 21 20 (voltFloor (curPoint d) d.pwr.setpoint)

/-- The setpoint the levels of R378 follow: while one slews, the lower of the old and the new. -/
def PwrSt.lowSp (w : PwrSt) : Nat := if w.slewing then min w.oldSp w.setpoint else w.setpoint

/-- The warning level, 93% of setpoint, and the reset level, 88%, in 10 uV (R378). -/
def PwrSt.warnLevel (w : PwrSt) : Int := 93 * (w.lowSp : Int)
def PwrSt.resetLevel (w : PwrSt) : Int := 88 * (w.lowSp : Int)

/-- Command a setpoint; it slews from the present one. A regulator that answers nothing keeps its voltage (R467). -/
def Dev.command (d : Dev) (mv : Nat) : Dev :=
  let d : Dev := if mv = d.pwr.setpoint ∨ d.pwr.mute then d
    else { d with pwr := { d.pwr with setpoint := mv, slewing := true, oldSp := d.pwr.lowSp } }
  d.setVolt

/-- VMARGIN of point `k` in TEL_RCARD. -/
def margin (d : Dev) (k : Nat) : Nat := d.fld .telRcard [] (4 * k + 3) (4 * k)

/-! ## DVFS (R376, R377) -/

/-- A step starts: up in frequency the setpoint moves first, else the window opens. -/
def Dev.dvfsStart (d : Dev) (req : Nat) : Dev :=
  let up := decide (req < curPoint d)
  let d := (d.setFld .pwrDvfs [] 31 30 3).setFld .pwrDvfs [] 4 0 0
  let d := if up then d.command (d.spOf req) else d
  { d with pwr := { d.pwr with step := some { target := req, phase := if up then 1 else 2 } } }

/-- A write of PWR_DVFS (R376, R396): all of it ignored while BUSY (DESIGN CHOICE, log 112); GO with REQ equal to CUR starts no step. -/
def Dev.dvfsWrite (d : Dev) (v : W32) : Dev :=
  if d.flag .pwrDvfs [] 30 then d
  else
    let req := bits v.toNat 29 28
    let d := d.setFld .pwrDvfs [] 29 28 req
    if v.getLsbD 31 ∧ req ≠ curPoint d then d.dvfsStart req else d

/-- The rail as the comparators of R378 see it. -/
def Dev.seeRail (d : Dev) (x : Int) : Dev := { d with pwr := { d.pwr with rail := x } }

/-- SETPOINT_SLEW_DONE (R376): the rail has reached the setpoint. -/
def Dev.slewDone (d : Dev) : Dev :=
  let d := ({ d with pwr := { d.pwr with slewing := false } } : Dev).seeRail (100 * (d.pwr.setpoint : Int))
  match d.pwr.step with
  | some s => if s.phase = 1 then { d with pwr := { d.pwr with step := some { s with phase := 2 } } } else d
  | none => d

/-- A droop or brace while the window runs (R376, R377): it restarts; the 17th forces the relock. -/
def Dev.deferWindow (d : Dev) : Dev :=
  match d.pwr.step with
  | some s =>
    if s.phase = 2 ∧ !s.forced then
      if d.fld .pwrDvfs [] 4 0 < 16 then d.incSat .pwrDvfs [] 4 0 1
      else
        let d : Dev := { d with pwr := { d.pwr with step := some { s with forced := true } } }
        d.incMod .pwrDvfs [] 15 8 1
    else d
  | none => d

/-- A droop detector of some slot trips. -/
def Dev.drooping (d : Dev) : Bool := allSlots.any (fun p => (d.core p).droop)

/-- RELOCK_WINDOW (R376, R377): the relock begins; the core-slot clocks deliver no pulses. A window has passed in which no
detector trips; a forced relock waits for none: no vector has entered an array since it was forced, and the vectors
inside have landed when this comes. -/
def Dev.relockStart (d : Dev) : Dev :=
  match d.pwr.step with
  | some s =>
    if s.phase = 2 ∧ (s.forced ∨ !d.drooping) then
      { d with
        cores := d.cores.map (fun c => { c with stopped := true })
        pwr := { d.pwr with step := some { s with phase := 3 } } }
    else d
  | none => d

/-- Core cycles in 5 us at a point. -/
def relockCycles (point : Nat) : Nat := 1000 * halfPeriods0 point / 2
where halfPeriods0 (p : Nat) : Nat := if p = 0 then 8 else if p = 1 then 7 else if p = 2 then 6 else 4

/-- In-service operation moves to point 1 (R393): at once, or when the step under way has ended. -/
def Dev.toPointOne (d : Dev) : Dev :=
  if d.pwr.step.isSome then { d with pwr := { d.pwr with toOne := true } }
  else
    let d : Dev := { d with pwr := { d.pwr with toOne := false } }
    if curPoint d = 0 then (d.setFld .pwrDvfs [] 29 28 1).dvfsStart 1 else d

/-- RELOCK_COMPLETE (R371, R376, R377, R395): pulses resume at the new point, unless the core PLL is being replaced; down in
frequency the setpoint then moves, with a margin raised meanwhile; after a forced relock its 5 us count toward the tile
watchdogs that are not suspended (R405). -/
def Dev.relockDone (d : Dev) : Dev :=
  match d.pwr.step with
  | some s =>
    if s.phase = 3 then
      let n := relockCycles (curPoint d)
      let d := if s.forced && !d.wdSuspended then
          { d with cores := d.cores.map (fun c => if c.active && !c.reloading then { c with tileCyc := c.tileCyc + n } else c) }
        else d
      let d : Dev := { d with pwr := { d.pwr with step := none } }
      let d := ((d.setFld .pwrDvfs [] 27 26 s.target).setFld .pwrDvfs [] 31 30 0).command (d.spOf s.target)
      let d := d.pulsesBack
      if d.pwr.toOne then d.toPointOne else d
    else d
  | none => d

/-! ## Droop and brace (R373, R378-R382) -/

/-- A detector at `mv` trips: below (90 + THR)% of the setpoint, THR from 9 on acting as 8 (R373, R396). -/
def Dev.trips (d : Dev) (mv : Nat) : Bool :=
  decide (100 * mv < (90 + min 8 (d.fld .pwrDroop [] 3 0)) * d.pwr.setpoint)

/-- The lowest voltage of a list. -/
def lowestMv (l : List Nat) : Option Nat :=
  l.foldl (fun m x => match m with
    | none => some x
    | some y => some (min x y)) none

/-- DROOP_TRIP (R373): the slot's detectors compare; the lowest voltage they see is the rail's (log 92). From a trip on the slot's next delivered position is stretched, and every
later one while a detector still trips; where none trips any more, the stretched position completes. The trip counts as
one event in a relock's window (DEDUCED, log 91). -/
def Dev.droopTrip (d : Dev) (x : Droop) : Dev :=
  let c := d.core x.slot
  let trip := (x.mv.take 8).any d.trips
  let d := match lowestMv (x.mv.take 8) with
    | some mv => d.seeRail (100 * (mv : Int))
    | none => d
  let d := if trip && !c.droop then d.deferWindow else d
  d.modCore x.slot (fun c => { c with droop := trip, stretch := if trip && c.stretch == 0 then 1 else c.stretch })

/-- Each slot's frame restarts with the brace skip and the other sources as last applied (R380). -/
def Dev.braceFrames (d : Dev) : Dev :=
  { d with cores := d.cores.map (fun c => { c with pos := 0, skip := max 8 c.skipOther }) }

/-- BRACE_ENTRY (R378, R380, R381, R395): the rail has stayed below the warning level for the filter's 50 ns. -/
def Dev.braceEntry (d : Dev) : Dev :=
  if d.pwr.warnLevel ≤ d.pwr.rail then d
  else
  let d := d.deferWindow
  let d := ((d.setFld .pwrSupply [] 31 30 1).incMod .pwrSupply [] 15 0 1).setFld .pwrSkip [] 15 12 8
  d.braceFrames.log stBrace 7 0 0 0

/-- BRACE_RECOVERY (R381): the rail has stayed above the warning level for 50 ns. -/
def Dev.braceRecovery (d : Dev) : Dev :=
  if supplyState d = 1 ∧ d.pwr.warnLevel < d.pwr.rail then d.setFld .pwrSupply [] 31 30 2 else d

/-- The brace skip falls by 1; at 0 the state is normal. -/
def Dev.braceDown (d : Dev) : Dev :=
  let b := d.fld .pwrSkip [] 15 12 - 1
  let d := d.setFld .pwrSkip [] 15 12 b
  if b = 0 then d.setFld .pwrSupply [] 31 30 0 else d

/-- BRACE_HOLD_END (R381): the first step falls at the end of the hold. -/
def Dev.braceHoldEnd (d : Dev) : Dev := if supplyState d = 2 then (d.setFld .pwrSupply [] 31 30 3).braceDown else d

/-- BRACE_RAMP_STEP (R381). -/
def Dev.braceRamp (d : Dev) : Dev := if supplyState d = 3 then d.braceDown else d

/-! ## Cap and leases (R383-R385) -/

/-- The fused ceiling (R2, R383). -/
def ceiling (d : Dev) : Nat := if d.fuses.grade = 2#8 then 40 else 75

/-- The effective cap (R383). A lease that has expired counts until the next 1 ms tick (R385). -/
def effCap (d : Dev) : Nat :=
  let lease := if d.flag .pwrLease [] 30 || d.pwr.lapse then max 20 (min 75 (d.fld .pwrLease [] 7 0)) else d.fld .pwrLease [] 15 8
  let c := min (d.fld .pwrCap [] 7 0) (ceiling d)
  if d.flag .pwrLease [] 31 then min c lease else c

/-- A power or energy estimate, corrected by the regulator's last telemetry (R384, R390, R467): none has been read while
READ_VOUT is 0. The arithmetic is free (log 105). -/
def PwrSt.corrected (w : PwrSt) (e : Nat) : Nat := if w.vout = 0 then e else Config.railCorrect w.vout w.iout e

/-- CAP_TICK (R384, R397, R467): powers in 1/16 W, as estimated before the correction. -/
def Dev.capTick (d : Dev) (estNow estAvg : Nat) : Dev :=
  let now := d.pwr.corrected estNow
  let avg := d.pwr.corrected estAvg
  let d : Dev := { d with pwr := { d.pwr with lapse := false } }
  let eff := effCap d
  let d := d.setFld .pwrCap [] 31 24 eff
  let d := (d.setFld .telPwr [] 15 0 (min now 65535)).setFld .telPwr [] 31 16 (min avg 65535)
  let e := d.pwr.mjFrac + now
  let d := d.setRg .telEnergy [] (BitVec.ofNat 32 ((d.rg .telEnergy []).toNat + e / 16))
  let s := d.fld .pwrSkip [] 7 4
  let target := clampI (32 * (eff : Int) - avg) 0 1200
  let s' := if target < (now : Int) then min (s + 1) 15 else if (now : Int) < target - 16 then s - 1 else s
  let n := if s = 15 then d.pwr.cap15 + 1 else 0
  let d : Dev := { d with pwr := { d.pwr with mjFrac := e % 16, cap15 := n } }
  let unmet := decide (500 * d.fld .pwrCap [] 20 16 ≤ n) && decide (16 * eff < avg)
  (d.setFld .pwrSkip [] 7 4 s').setFld .pwrCap [] 15 15 (b2n unmet)

/-- EFF takes the effective cap's present value (R383). -/
def Dev.setEff (d : Dev) : Dev := d.setFld .pwrCap [] 31 24 (effCap d)

/-- EFF as it was before this cycle's CAP writes (R395): a cycle of the power manager is one value of the device time. -/
def Dev.effBefore (d : Dev) : Nat :=
  match d.pwr.capWas with
  | some (t, e) => if t = d.now then e else d.fld .pwrCap [] 31 24
  | none => d.fld .pwrCap [] 31 24

/-- A write of PWR_CAP (R396): fields out of range are ignored. Beside an expiry EFF waits for the next tick (R395). -/
def Dev.capWrite (d : Dev) (v : W32) : Dev :=
  let w := bits v.toNat 20 16
  let c := bits v.toNat 7 0
  let d : Dev := { d with pwr := { d.pwr with capWas := some (d.now, d.effBefore) } }
  let d := if 1 ≤ w then d.setFld .pwrCap [] 20 16 w else d
  let d := if 20 ≤ c ∧ c ≤ 75 then d.setFld .pwrCap [] 7 0 c else d
  if d.pwr.lapse then d else d.setEff

/-- A write of PWR_LEASE (R385, R396): one that leaves EN = 1 is a grant write. -/
def Dev.leaseWrite (d : Dev) (v : W32) : Dev :=
  let fb := bits v.toNat 15 8
  let d := if v.getLsbD 29 then d.setFld .pwrLease [] 29 29 0 else d
  let d := if 20 ≤ fb ∧ fb ≤ 75 then d.setFld .pwrLease [] 15 8 fb else d
  if v.getLsbD 31 then
    let d := (d.setFld .pwrLease [] 31 30 3).setFld .pwrLease [] 7 0 (bits v.toNat 7 0)
    ({ d with pwr := { d.pwr with leaseAt := d.now, lapse := false } } : Dev).setEff
  else (({ d with pwr := { d.pwr with lapse := false } } : Dev).setFld .pwrLease [] 31 30 0).setEff

/-- LEASE_EXPIRE (R385): the effective cap follows at the next tick, that of a CAP write of the same cycle with it (R395). -/
def Dev.leaseExpire (d : Dev) : Dev :=
  if d.flag .pwrLease [] 31 && d.flag .pwrLease [] 30 then
    let d := ({ d with pwr := { d.pwr with lapse := true } } : Dev).setFld .pwrCap [] 31 24 d.effBefore
    ((d.setFld .pwrLease [] 30 30 0).setFld .pwrLease [] 29 29 1).log stLeaseExpired 7 0 0 0
  else d

/-- The runtime writes a grant of `watts`, FALLBACK unchanged (R385, R438). -/
def Dev.leaseGrant (d : Dev) (watts : Nat) : Dev :=
  d.leaseWrite (BitVec.ofNat 32 (2 ^ 31 + d.fld .pwrLease [] 15 8 * 256 + watts % 256))

/-- GRANT (R438): PWR_LEASE, then a REPORT along the returned route. A packet of the mailbox that carries the payload is
taken from it. -/
def Dev.grantMsg (d : Dev) (pl : List Byte) : Dev :=
  let d : Dev := { d with lnk := { d.lnk with mbox := dropFirst (fun q => q.data == pl) d.lnk.mbox } }
  if recNat pl 0 1 ≠ 1 then d
  else
    let d := d.leaseGrant (recNat pl 4 1)
    let own := d.ownId.getD 255
    let body := [2#8, 0#8] ++ (pl.drop 2).take 2 ++ leBytes 1 (d.fld .pwrCap [] 31 24) ++ leBytes 1 own ++
      leBytes 2 (d.fld .telPwr [] 31 16)
    let q := mkPacket (recNat pl 8 7) kMgmt own 0 0
    d.mgmtIn none { q with len := 1#8, aux := BitVec.ofNat 8 (recNat pl 15 1), data := body ++ List.replicate (64 - body.length) 0#8 }

/-! ## Temperature (R388, R389) -/

/-- A reading in quarter degrees: to the nearest, half way up. -/
def reading (milli : Int) : Int := (milli + 125) / 250

def sensor (d : Dev) (i : Nat) : Int := sgn 16 (d.fld .telTs [i] 15 0)

/-- The highest reading and its lowest-numbered sensor. -/
def hottest (d : Dev) : Int × Nat :=
  (upto 16).foldl (fun m i => if m.1 < sensor d i then (sensor d i, i) else m) (sensor d 0, 0)

/-- THERMAL_SAMPLE (R388, R389): a sensor at 115 degrees or more twice in a row trips the device. -/
def Dev.thermalSample (d : Dev) (l : List Int) : Dev :=
  let l := l.take 16
  let hot := (l.zip (upto 16)).any (fun e => decide (460 ≤ reading e.1) && decide (460 ≤ sensor d e.2))
  let d := (l.zip (upto 16)).foldl (fun d e => d.setFld .telTs [e.2] 15 0 (unsgn 16 (reading e.1))) d
  let d := d.setFld .telTherm [] 19 16 (hottest d).2
  if hot then { d with stop := some .tripped } else d

/-- THERMAL_TICK (R388, R397). -/
def Dev.thermalTick (d : Dev) : Dev :=
  let t := (hottest d).1
  let s := d.fld .pwrSkip [] 11 8
  let s := if 400 ≤ t then min (s + 1) 15 else if t ≤ 392 then s - 1 else s
  let d := (d.setFld .pwrSkip [] 11 8 s).setFld .telTherm [] 31 31 (b2n (decide (0 < s)))
  if 0 < s then d.incMod .telTherm [] 15 0 1 else d

/-! ## Energy (R390) -/

def energyBase (d : Dev) : Nat := d.fld .telEjob [] 28 0 * 2 ^ 19
/-- The table lies in the stack. -/
def energyOk (d : Dev) : Bool := decide (energyBase d + 524288 ≤ stackEnd)

/-- The entry a charge goes to: the job of the task it belongs to, else 0xFFFF; and its corrected energy (R467). -/
def Dev.chargeTo (d : Dev) : Charge → Nat × Nat
  | .task p n uj => ((d.core p).jobs.getD n 0xFFFF % 65536, d.pwr.corrected uj)
  | .other uj => (0xFFFF, d.pwr.corrected uj)

/-- Each slot's list begins again with the task it still runs. -/
def Dev.newJobs (d : Dev) : Dev :=
  { d with cores := d.cores.map (fun c => { c with jobs := if c.busy then [c.jobId] else [] }) }

/-- ENERGY_TICK (R390): each charge is added to its job's entry. -/
def Dev.energyTick (d : Dev) (l : List Charge) : Dev :=
  let d' :=
    if d.flag .telEjob [] 31 && energyOk d then
      (l.map d.chargeTo).foldl (fun d e =>
        let a := energyBase d + 8 * e.1
        d.store a (leBytes 8 (d.loadNat a 8 + e.2))) d
    else d
  d'.newJobs

/-- A write of TEL_EJOB (R397): BASE is held while EN is 1; EN from 0 to 1 zeroes the table first. -/
def Dev.ejobWrite (d : Dev) (v : W32) : Dev :=
  if d.flag .telEjob [] 31 then d.setFld .telEjob [] 31 31 (b2n (v.getLsbD 31))
  else
    let d := d.plainWrite .telEjob [] v
    if v.getLsbD 31 ∧ energyOk d then
      let a := energyBase d
      { d with mem := d.mem.clear a (a + 524288), poison := clearPoison d.poison a 524288 }
    else d

/-! ## Report card (R391-R394) -/

/-- The runtime moves in-service operation to point 1 and reports it (R393, R439); at start-up it is not in service yet, and
the start-up ends at that point. -/
def Dev.exhaust (d : Dev) : Dev :=
  let d := d.setFld .telRcard [] 31 31 1
  (if d.fld .secBoot [] 31 29 = 5 then d.toPointOne else d).notice stOk [3#8, 1#8]

/-- The re-planning of a margin after a measurement of point `k` (R392, R393): its worst slack in permille of the cycle. A
raise of the point in use is applied at once, or when the step under way ends; a lowering at the next start-up. A start-up
measurement leaves the count of consecutive daily ones alone. -/
def Dev.replan (d : Dev) (k slack : Nat) : Dev :=
  let m := margin d k
  let daily := decide (d.fld .secBoot [] 31 29 = 5)
  let n := if !daily then d.pwr.daily.getD k 0 else if 140 < slack then d.pwr.daily.getD k 0 + 1 else 0
  let d : Dev := { d with pwr := { d.pwr with daily := setAt d.pwr.daily k (if 7 ≤ n then 0 else n) } }
  if slack < 80 then
    if 10 ≤ m then d.exhaust
    else
      let d := d.setFld .telRcard [] (4 * k + 3) (4 * k) (m + 1)
      let d : Dev := { d with pwr := { d.pwr with applied := setAt d.pwr.applied k (max (d.pwr.applied.getD k 0) (m + 1)) } }
      if curPoint d = k ∧ d.pwr.step.isNone then d.command (d.spOf k) else d
  else if daily ∧ 7 ≤ n ∧ 0 < m then d.setFld .telRcard [] (4 * k + 3) (4 * k) (m - 1)
  else d

/-- MARGIN_MEASURE (R392, R413): in service the monitors measure the point in use; the tests that asked for it complete. -/
def Dev.measure (d : Dev) (k slack : Nat) : Dev :=
  if d.fld .secBoot [] 31 29 ≠ 5 ∨ curPoint d ≠ k then d
  else
  let d := d.replan k slack
  let l := d.flt.tests.filter (fun t => t.kind == 2)
  let d : Dev := { d with flt := { d.flt with tests := d.flt.tests.filter (fun t => t.kind != 2) } }
  l.foldl (fun d t => d.reply 0x11 t.tag stOk []) d

/-! ## Regulator (R464, R467) -/

/-- The core regulator's 7-bit PMBus address (R464). -/
def Dev.regulatorAddr (d : Dev) : Nat := 0x60 + d.straps.pmAddr.val

/-- PMBUS_TELEMETRY: READ_VOUT and READ_IOUT; the rail is what the regulator reads (log 92). One that answers nothing
is not read (R467). -/
def Dev.pmbus (d : Dev) (mv ma : Nat) : Dev :=
  if d.pwr.mute then d
  else ({ d with pwr := { d.pwr with vout := mv, iout := ma } } : Dev).seeRail (100 * (mv : Int))

/-- PM_ALERT (R464): logged as a telemetry event of the power manager; the spec names no code for it (log 53). -/
def Dev.pmAlert (d : Dev) : Dev := d.log stOk 7 0 0 0

/-! ## Meanings -/

/-- DVFS_STEP (R376). -/
def execDvfsStep (req : BitVec 2) (s : State) : Host.Outcome State Fault Refusal :=
  onDev s (s.dev.dvfsWrite (BitVec.ofNat 32 (2 ^ 31 + req.toNat * 2 ^ 28)))
/-- SETPOINT_SLEW_DONE (R376). -/
def execSetpointSlewDone (s : State) : Host.Outcome State Fault Refusal := onDev s s.dev.slewDone
/-- RELOCK_WINDOW (R376). -/
def execRelockWindow (s : State) : Host.Outcome State Fault Refusal := onDev s s.dev.relockStart
/-- RELOCK_COMPLETE (R376). -/
def execRelockComplete (s : State) : Host.Outcome State Fault Refusal := onDev s s.dev.relockDone
/-- DROOP_TRIP (R373). -/
def execDroopTrip (x : Droop) (s : State) : Host.Outcome State Fault Refusal := onDev s (s.dev.droopTrip x)
/-- SKIP_FRAME_BOUNDARY (R372): none while the slot's clock stands. -/
def execSkipFrameBoundary (p : Fin 7) (s : State) : Host.Outcome State Fault Refusal :=
  onDev s (if (s.dev.core p).stopped then s.dev else s.dev.boundary p)
/-- BRACE_ENTRY (R380). -/
def execBraceEntry (s : State) : Host.Outcome State Fault Refusal := onDev s s.dev.braceEntry
/-- BRACE_RECOVERY (R381). -/
def execBraceRecovery (s : State) : Host.Outcome State Fault Refusal := onDev s s.dev.braceRecovery
/-- BRACE_HOLD_END (R381). -/
def execBraceHoldEnd (s : State) : Host.Outcome State Fault Refusal := onDev s s.dev.braceHoldEnd
/-- BRACE_RAMP_STEP (R381). -/
def execBraceRampStep (s : State) : Host.Outcome State Fault Refusal := onDev s s.dev.braceRamp
/-- CAP_TICK (R384). -/
def execCapTick (now avg : Nat) (s : State) : Host.Outcome State Fault Refusal := onDev s (s.dev.capTick now avg)
/-- GRANT_WRITE (R385). -/
def execGrantWrite (v : W32) (s : State) : Host.Outcome State Fault Refusal := onDev s (s.dev.leaseWrite (v ||| 0x80000000#32))
/-- LEASE_DROP (R385): FALLBACK and GRANT unchanged. -/
def execLeaseDrop (s : State) : Host.Outcome State Fault Refusal := onDev s (s.dev.leaseWrite 0#32)
/-- LEASE_EXPIRE (R385). -/
def execLeaseExpire (s : State) : Host.Outcome State Fault Refusal := onDev s s.dev.leaseExpire
/-- GRANT (R438). -/
def execGrant (pl : List Byte) (s : State) : Host.Outcome State Fault Refusal := onDev s (s.dev.grantMsg pl)
/-- THERMAL_SAMPLE (R388, R389). -/
def execThermalSample (l : List Int) (s : State) : Host.Outcome State Fault Refusal := onDev s (s.dev.thermalSample l)
/-- THERMAL_TICK (R388). -/
def execThermalTick (s : State) : Host.Outcome State Fault Refusal := onDev s s.dev.thermalTick
/-- ENERGY_TICK (R390). -/
def execEnergyTick (l : List Charge) (s : State) : Host.Outcome State Fault Refusal := onDev s (s.dev.energyTick l)
/-- ENERGY_TABLE_ENABLE (R390, R397). -/
def execEnergyTableEnable (base : BitVec 29) (s : State) : Host.Outcome State Fault Refusal :=
  onDev s (s.dev.ejobWrite (BitVec.ofNat 32 (2 ^ 31 + base.toNat)))
/-- PMBUS_TELEMETRY (R467). -/
def execPmbusTelemetry (mv ma : Nat) (s : State) : Host.Outcome State Fault Refusal := onDev s (s.dev.pmbus mv ma)
/-- PM_ALERT (R464). -/
def execPmAlert (s : State) : Host.Outcome State Fault Refusal := onDev s s.dev.pmAlert
/-- MARGIN_MEASURE (R392). -/
def execMarginMeasure (k : Fin 4) (slack : Nat) (s : State) : Host.Outcome State Fault Refusal := onDev s (s.dev.measure k.val slack)

end Sys2Proof.Machine
end

