-- ==== Sys2Proof/Machine/Service.lean ====
section
/-! DEFINITION. The runtime's service requests (R433-R439): polling, streams, encoders, fault block, tests, leases,
settings. -/

namespace Sys2Proof.Machine

/-! ## Requests (R433, R434) -/

/-- The operations of R435. -/
def svcOps : List Nat := [1, 2, 3, 4, 0x10, 0x11, 0x12, 0x13, 0x20, 0x21, 0x22, 0x23, 0x30, 0x31, 0x32, 0x33, 0x34]

/-- OP known, PHASE and reserved bytes as they must be. -/
def reqHead (r : List Byte) : Bool := svcOps.contains (recNat r 0 1) && decide (recNat r 1 1 < 2) && zeros r 2 2

/-- Every byte from 8 on outside the named arguments is 0. -/
def reqRest (r : List Byte) (args : List (Nat × Nat)) : Bool :=
  ((upto 64).drop 8).all (fun i => args.any (fun a => decide (a.1 ≤ i ∧ i ≤ a.2)) || r.getD i 0#8 == 0#8)

/-- The request is laid out as its operation says (R434, R435). -/
def reqLaid (op : Nat) (r : List Byte) (args : List (Nat × Nat)) : Bool :=
  r.length == 64 && recNat r 0 1 == op && reqHead r && reqRest r args

/-- Take up a request (R433): requests start in ring order, so it is the oldest of those a visit has taken from the ring, and
any other changes nothing. One that breaks the layout, or fails `ok`, completes with COMMAND_INVALID and no effect; the
addresses `named` of one that is laid out and fails count where they lie in the Proctor region (R36). -/
def Dev.serve (d : Dev) (op : Nat) (r : List Byte) (args : List (Nat × Nat)) (ok : Bool) (run : Dev → Nat → Dev)
    (named : List Nat := []) : Dev :=
  match d.svc.taken with
  | [] => d
  | x :: rest =>
    if x ≠ r then d
    else
      let tag := recNat r 4 4
      let d : Dev := { d with svc := { d.svc with taken := rest } }
      if reqLaid op r args then
        if ok then run d tag else (d.violAny named).reply op tag stCommandInvalid []
      else d.reply op tag stCommandInvalid []

/-- SERVICE_POLL (R433): up to 8 requests; those with a reserved OP or byte complete at once. -/
def Dev.servicePoll (d : Dev) (host : List Host.Cell) : Dev :=
  let d := d.hostPut host
  if !svcOn d || d.fld .secBoot [] 31 29 != 5 || !d.locOpen (svcLoc d) then d
  else
    let d : Dev := { d with svc := { d.svc with consumed := leNat (d.locRd (svcLoc d) (svcCmd d + 8) 8) } }
    let n := d.svc.fetched
    let d := takeReqs 8 d.svcGo
    let d := if d.svc.fetched = n then d else d.locWr (svcLoc d) (svcCmd d) (leBytes 8 d.svc.fetched)
    let bad := d.svc.taken.filter (fun r => !reqHead r)
    let d : Dev := { d with svc := { d.svc with taken := d.svc.taken.filter reqHead } }
    bad.foldl (fun d r => d.reply (recNat r 0 1) (recNat r 4 4) stCommandInvalid []) d

/-! ## Streams (R287, R435, R436) -/

/-- Reserved work of an engine in 0.001 pixels per second: decode and encode separately. -/
def decodeLoad (d : Dev) (e : Nat) : Nat :=
  ((d.med.streams.filter (fun s => s.2.engine == e)).map (fun s => s.2.width * s.2.height * s.2.rate)).foldl (· + ·) 0
def encodeLoad (d : Dev) (e : Nat) : Nat :=
  ((d.med.encs.filter (fun s => s.2.engine == e)).map (fun s => s.2.width * s.2.height * s.2.rate)).foldl (· + ·) 0

/-- The engine with the most unreserved capacity that has room, the lowest-numbered one of several (log 58). -/
def pickEngine (cap need : Nat) (load : Nat → Nat) (room : Nat → Bool) (es : List Nat) : Option Nat :=
  es.foldl (fun m e =>
    if load e + need ≤ cap ∧ room e then
      match m with
      | some x => if load e < load x then some e else some x
      | none => some e
    else m) none

/-- In the stack, below the runtime region. -/
def Dev.inStack (d : Dev) (a n : Nat) : Bool := d.stackOn && decide (a + n ≤ runtimeBase)

/-- All 128 decode streams are open (R435). -/
def decodeFull (d : Dev) : Bool := decide (128 ≤ (d.med.streams.filter (fun s => decide (16 ≤ s.1))).length)

/-- The table of R436; a stream that is open is opened again only to be told that every decode stream is (log 58). -/
def streamOk (d : Dev) (r : List Byte) : Bool :=
  let s := recNat r 8 1
  let k := recNat r 9 1
  let kind := k % 4
  let loc := bit k 2
  let lr := bits (recNat r 10 1) 3 0
  let lb := bits (recNat r 10 1) 7 4
  let nb := recNat r 11 1
  let w := recNat r 12 2
  let h := recNat r 14 2
  let rate := recNat r 16 4
  let bb := recNat r 20 4
  let size (l : Nat) : Bool := decide (4 ≤ l ∧ l ≤ 12)
  let cap := kind == 0
  decide (s < 144) && (cap == decide (s < 16)) && kind != 3 && decide (k < 8) && size lr &&
    (if cap then lb == 0 && !loc else size lb) && decide (2 ≤ nb ∧ nb ≤ 64) && decide (16 ≤ w ∧ w ≤ 8192) &&
    decide (16 ≤ h ∧ h ≤ 8192) && (kind != 1 || decide (h ≤ 4320)) && decide (1 ≤ rate ∧ rate ≤ 240000) && bb % 128 == 0 &&
    d.inStack (recNat r 24 8) (nb * bb) && d.reach (recNat r 32 8) (64 + 64 * 2 ^ lr) &&
    (if cap then zeros r 40 8 else !loc || d.reach (recNat r 40 8) (64 + 32 * 2 ^ lb)) &&
    (zeros r 48 8 || (cap && d.reach (recNat r 48 8) 8)) && (zeros r 56 8 || (cap && d.reach (recNat r 56 8) (17408 * nb))) &&
    ((d.stream s).isNone || (!cap && decodeFull d))

/-- The addresses a STREAM_OPEN names (R436): pool, record ring, a device-local bitstream ring, parameter block, statistics. -/
def streamAddrs (r : List Byte) : List Nat :=
  [recNat r 24 8, recNat r 32 8, if bit (recNat r 9 1) 2 then recNat r 40 8 else 0, recNat r 48 8, recNat r 56 8]

/-- STREAM_OPEN; a refused one that names the Proctor region counts (R36). -/
def Dev.streamOpen (d : Dev) (r : List Byte) : Dev :=
  d.serve 1 r [(8, 63)] (streamOk d r) (fun d tag =>
    let s := recNat r 8 1
    let kind := recNat r 9 1 % 4
    let w := recNat r 12 2
    let h := recNat r 14 2
    let rate := recNat r 16 4
    let e : Option Nat :=
      if kind = 0 then some 255
      else if decodeFull d then none
      else pickEngine 2000000000000 (w * h * rate) (decodeLoad d) (fun _ => true) (if kind = 1 then [0, 1, 2, 3] else [6])
    match e with
    | none => d.reply 1 tag stBusy []
    | some e =>
      let x : StreamSt := { kind := kind, loc := bit (recNat r 9 1) 2, recLog := bits (recNat r 10 1) 3 0
                            bsLog := bits (recNat r 10 1) 7 4, nbuf := recNat r 11 1, width := w, height := h, rate := rate
                            bufBytes := recNat r 20 4, pool := recNat r 24 8, recRing := recNat r 32 8, bsRing := recNat r 40 8
                            param := recNat r 48 8, stats := recNat r 56 8, engine := e, opened := d.now }
      (d.setStream s x).countStreams.reply 1 tag stOk [BitVec.ofNat 8 e]) (streamAddrs r)

/-- STREAM_CLOSE: a decode stream takes no more entries and its pictures are output; a capture stream is disabled
(DEDUCED, log 49). -/
def Dev.streamClose (d : Dev) (r : List Byte) : Dev :=
  let s := recNat r 8 1
  d.serve 2 r [(8, 8)] ((d.stream s).any (fun x => x.closing.isNone)) (fun d tag =>
    let d := d.modStream s (fun x => { x with closing := some tag, entries := [], queue := [] })
    let d := if s < 16 then d.vcStop s
      else if (d.stream s).any (fun x => x.cur.isNone) then d.flushPics s else d
    d.tryClose s)

/-- The table of R437. -/
def encodeOk (d : Dev) (r : List Byte) : Bool :=
  let n (o l : Nat) : Nat := recNat r o l
  let f := n 9 1
  let rc := n 11 1
  let w := n 12 2
  let h := n 14 2
  let li := bits (n 27 1) 3 0
  let lo := bits (n 27 1) 7 4
  let size (l : Nat) : Bool := decide (4 ≤ l ∧ l ≤ 12)
  let free := f == 2 || rc == 2
  decide (n 8 1 < 32) && decide (f ≤ 2) && (if f = 1 then n 10 1 == 0 else decide (n 10 1 ≤ 2)) &&
    (if f = 2 then rc == 0 else decide (rc ≤ 2)) &&
    (if f = 2 then decide (1 ≤ w ∧ w ≤ 8192 ∧ 1 ≤ h ∧ h ≤ 8192) else decide (64 ≤ w ∧ w ≤ 4096 ∧ 64 ≤ h ∧ h ≤ 2304)) &&
    decide (1 ≤ n 16 4 ∧ n 16 4 ≤ 240000) && (if free then zeros r 20 4 else decide (1 ≤ n 20 4 ∧ n 20 4 ≤ 200000)) &&
    decide (1 ≤ n 24 2) && (if f != 2 && rc == 2 then decide (n 26 1 ≤ 51) else zeros r 26 1) && size li && size lo &&
    (f != 2 || decide (128 ≤ n 28 4)) && d.reach (n 32 8) (n 28 4) && d.reach (n 40 8) 64 &&
    d.reach (n 48 8) (64 + 32 * 2 ^ li) && d.reach (n 56 8) (64 + 32 * 2 ^ lo) && (d.enc (n 8 1)).isNone

/-- The addresses an ENCODE_OPEN names (R437). -/
def encodeAddrs (r : List Byte) : List Nat := [recNat r 32 8, recNat r 40 8, recNat r 48 8, recNat r 56 8]

/-- ENCODE_OPEN: the engine is chosen as R287 chooses a decoder's (DEDUCED, log 58); a refused one as a STREAM_OPEN. -/
def Dev.encodeOpen (d : Dev) (r : List Byte) : Dev :=
  d.serve 3 r [(8, 63)] (encodeOk d r) (fun d tag =>
    let n (o l : Nat) : Nat := recNat r o l
    let few (e : Nat) : Bool := e == 6 || decide ((d.med.encs.filter (fun x => x.2.engine == e)).length < 16)
    match pickEngine 1000000000000 (n 12 2 * n 14 2 * n 16 4) (encodeLoad d) few (if n 9 1 = 2 then [6] else [4, 5]) with
    | none => d.reply 3 tag stBusy []
    | some e =>
      let x : EncSt := { format := n 9 1, profile := n 10 1, rc := n 11 1, width := n 12 2, height := n 14 2, rate := n 16 4
                         kbps := n 20 4, gop := n 24 2, qp := n 26 1, inLog := bits (n 27 1) 3 0, outLog := bits (n 27 1) 7 4
                         outLen := n 28 4, out := n 32 8, palette := n 40 8, inRing := n 48 8, entryRing := n 56 8, engine := e }
      (d.setEnc (n 8 1) x).countStreams.reply 3 tag stOk [BitVec.ofNat 8 e]) (encodeAddrs r)

/-- ENCODE_CLOSE. -/
def Dev.encodeClose (d : Dev) (r : List Byte) : Dev :=
  let e := recNat r 8 1
  d.serve 4 r [(8, 8)] ((d.enc e).any (fun x => x.closing.isNone)) (fun d tag =>
    match d.enc e with
    | some x => (d.setEnc e { x with closing := some tag }).tryCloseEnc e
    | none => d)

/-! ## Fault block (R415-R417) -/

/-- The backing entries in use: Commons offset, length, stack address. -/
def backings (b : List Byte) : List (Nat × Nat × Nat) :=
  ((upto 16).map (fun i => (recNat b (64 + 16 * i) 4, recNat b (68 + 16 * i) 4, recNat b (72 + 16 * i) 8))).filter (fun e => e.2.1 != 0)

/-- Two ranges do not overlap. -/
def apart (a b : Nat × Nat × Nat) : Bool := decide (a.1 + a.2.1 ≤ b.1) || decide (b.1 + b.2.1 ≤ a.1)

/-- Every pair of ranges lies apart. -/
def allApart : List (Nat × Nat × Nat) → Bool
  | [] => true
  | x :: r => r.all (apart x) && allApart r

/-- The rules of R415 and R416; those of the recorder's ring hold with REC_EN 0 too, since R415 makes no exception
(DEDUCED, log 59). -/
def faultBlockOk (d : Dev) (b : List Byte) : Bool :=
  let rot := recNat b 0 4
  let el := recNat b 4 1
  let rc := recNat b 5 1
  let len := recNat b 24 8
  (rot == 0 || decide (60 ≤ rot ∧ rot ≤ 86400)) && decide (4 ≤ el ∧ el ≤ 12) && decide (rc < 16) && bits rc 3 2 != 3 &&
    zeros b 6 2 && zeros b 36 28 && d.reach (recNat b 8 8) (64 + 32 * 2 ^ el) &&
    recNat b 16 8 % 64 == 0 && len % 64 == 0 && decide (2 ^ 20 ≤ len ∧ len ≤ 2 ^ 32) && d.inStack (recNat b 16 8) len &&
    decide (recNat b 32 4 ≤ 2 ^ 20) &&
    (backings b).all (fun e => e.1 % 256 == 0 && e.2.1 % 256 == 0 && e.2.2 % 256 == 0 && decide (e.1 + e.2.1 ≤ commonsSize) &&
      d.inStack e.2.2 e.2.1) && allApart (backings b)

/-- A record held so far goes to the ring; later events merge into it there (R417, R418). -/
def Dev.evMove (d : Dev) (e : EvRec) : Dev :=
  let (d, at_) := d.evWrite e
  { d with flt := { d.flt with recent := d.flt.recent.map (fun o => if o.ev = e then { o with place := at_ } else o) } }

/-- The event ring of a block: an unchanged one goes on; the first one receives the records held. Into a new ring nothing
that lies in the old one is merged, and the count of lost records goes with it (log 59). -/
def Dev.setEvRing (d : Dev) (base lg : Nat) : Dev :=
  if d.flt.evRing = some (base, lg) then d
  else
    let l := d.flt.held
    let d : Dev := { d with flt := { d.flt with
      evRing := some (base, lg), evIdx := 0, evPh := true, evCount := 0, evLost := d.flt.evLost + d.flt.heldLost
      held := [], heldLost := 0, recent := d.flt.recent.filter (fun o => o.place.isNone) } }
    l.foldl Dev.evMove d

/-- Apply a block. -/
def Dev.applyBlock (d : Dev) (b : List Byte) : Dev :=
  let d := d.setEvRing (recNat b 8 8) (recNat b 4 1)
  let rc := recNat b 5 1
  { d with flt := { d.flt with
      block := true, rotS := recNat b 0 4, backing := backings b, recEn := bit rc 0, recImages := bit rc 1
      recTrig := bits rc 3 2, recBase := recNat b 16 8, recLen := recNat b 24 8, recPost := recNat b 32 4
      recPos := 0, recSeq := 0, recLeft := none } }

/-- FAULT_CONFIG. -/
def Dev.faultConfig (d : Dev) (r : List Byte) : Dev :=
  let a := recNat r 8 8
  d.serve 0x10 r [(8, 15)] (d.inStack a 320 && faultBlockOk d (d.load a 320)) (fun d tag =>
    (d.applyBlock (d.load a 320)).reply 0x10 tag stOk [])

/-! ## Tests (R413, R414) -/

/-- Any task runs or waits. -/
def Dev.anyTask (d : Dev) : Bool :=
  d.tt.entries.any (fun e => e.2.op == 1 && decide (e.2.phase ≠ .finished)) || d.tt.fetched.any (fun r => recNat r.2 0 1 == 1)

def Dev.queueTest (d : Dev) (t : TestReq) : Dev := { d with flt := { d.flt with tests := d.flt.tests ++ [t] } }

/-- TEST. -/
def Dev.testReq (d : Dev) (r : List Byte) : Dev :=
  let kind := recNat r 8 1
  let k := recNat r 9 1
  let force := recNat r 10 1
  let argOk := if kind = 3 then decide (k < 16) else decide (k < 6) || k == 7
  d.serve 0x11 r [(8, 10)] (decide (1 ≤ kind ∧ kind ≤ 4) && argOk && decide (force < 2)) (fun d tag =>
    if 8 ≤ d.flt.tests.length + b2n d.flt.devTest.isSome then d.reply 0x11 tag stBusy []
    else
      match kind with
      | 1 =>
        if d.spare = 7 then d.reply 0x11 tag stBusy []
        else if k = 7 then
          (d.modSlot d.spare (fun c => if c.mode = .standby then { c with mode := .selfTest } else c)).queueTest { kind := 1, arg := d.spare, tag := tag }
        else
          let d := d.queueTest { kind := 1, arg := d.slotOf k, tag := tag }
          { d with flt := { d.flt with rotDue := true } }
      | 2 => d.queueTest { kind := 2, arg := k, tag := tag }
      | 3 => d.queueTest { kind := 3, arg := k, tag := tag }
      | _ =>
        if (d.anyTask && force == 0) || d.flt.forced then d.reply 0x11 tag stBusy []
        else d.devTestStart { kind := 4, arg := k, tag := tag })

/-! ## Marionette, lease, settings -/

/-- MARIONETTE (R422, R435). -/
def Dev.marioReq (d : Dev) (r : List Byte) : Dev :=
  let e := recNat r 8 1
  d.serve 0x12 r [(8, 8), (16, 35)] (decide (e < 2)) (fun d tag =>
    d.marionette tag (e == 1) (recNat r 16 8) (recNat r 24 8) (recNat r 32 4))

/-- LEASE (R385, R435): as a GRANT lease message; no report is asked for, since no route was given (DEDUCED, log 60). -/
def Dev.leaseReq (d : Dev) (r : List Byte) : Dev :=
  d.serve 0x13 r [(8, 8)] true (fun d tag => (d.leaseGrant (recNat r 8 1)).reply 0x13 tag stOk [])

/-- A record that SETTINGS_WRITE accepts: type, length and digest (R443; lengths DEDUCED, log 55). -/
def settingsRec (d : Dev) (a : Nat) : Option (List Byte) :=
  let h := d.load a 8
  let t := recNat h 0 2
  let n := recNat h 2 2
  let b := d.load a (40 + n)
  let len := if t = 1 then 2 else if t = 2 then 4 else 1
  if 1 ≤ t ∧ t ≤ 3 ∧ n = len ∧ d.reach a (40 + n) ∧ b.drop (8 + n) = sha256 (b.take (8 + n)) then some b else none

/-- SETTINGS_WRITE (R435, R444). -/
def Dev.settingsWrite (d : Dev) (r : List Byte) : Dev :=
  let a := recNat r 8 8
  d.serve 0x20 r [(8, 15)] ((settingsRec d a).isSome && d.curHdr.isSome) (fun d tag =>
    let w := d.boot.writes.filter (fun t => decide (d.now < t + dayNs))
    if 64 ≤ w.length then d.reply 0x20 tag stBusy []
    else
      let d : Dev := { d with boot := { d.boot with writes := w ++ [d.now] } }
      (d.logAppend ((settingsRec d a).getD [])).reply 0x20 tag stOk [])

/-! ## Meanings -/

/-- SERVICE_POLL (R433). -/
def execServicePoll (host : List Host.Cell) (s : State) : Host.Outcome State Fault Refusal := onDev s (s.dev.servicePoll host)
/-- STREAM_OPEN (R436). -/
def execStreamOpen (r : List Byte) (s : State) : Host.Outcome State Fault Refusal := onDev s (s.dev.streamOpen r)
/-- STREAM_CLOSE (R435). -/
def execStreamClose (r : List Byte) (s : State) : Host.Outcome State Fault Refusal := onDev s (s.dev.streamClose r)
/-- ENCODE_OPEN (R437). -/
def execEncodeOpen (r : List Byte) (s : State) : Host.Outcome State Fault Refusal := onDev s (s.dev.encodeOpen r)
/-- ENCODE_CLOSE (R435). -/
def execEncodeClose (r : List Byte) (s : State) : Host.Outcome State Fault Refusal := onDev s (s.dev.encodeClose r)
/-- FAULT_CONFIG (R415). -/
def execFaultConfig (r : List Byte) (s : State) : Host.Outcome State Fault Refusal := onDev s (s.dev.faultConfig r)
/-- TEST (R413). -/
def execTest (r : List Byte) (s : State) : Host.Outcome State Fault Refusal := onDev s (s.dev.testReq r)
/-- MARIONETTE (R422). -/
def execMarionette (r : List Byte) (s : State) : Host.Outcome State Fault Refusal := onDev s (s.dev.marioReq r)
/-- LEASE (R435). -/
def execLease (r : List Byte) (s : State) : Host.Outcome State Fault Refusal := onDev s (s.dev.leaseReq r)
/-- SETTINGS_WRITE (R444). -/
def execSettingsWrite (r : List Byte) (s : State) : Host.Outcome State Fault Refusal := onDev s (s.dev.settingsWrite r)

end Sys2Proof.Machine
end

