-- ==== Sys2Proof/Machine/Trust.lean ====
section
/-! DEFINITION. Images and their checks (R442, R446), the measurement log (R455), and the trust requests (R435,
R451-R458). -/

namespace Sys2Proof.Machine

/-! ## Images (R442, R446) -/

/-- The components' offsets in an image: after the header, each on a 64-byte boundary, and the end of the last. -/
def imgPlaces (h : List Byte) : Nat × Nat × Nat × Nat :=
  let up (x : Nat) : Nat := ceilDiv x 64 * 64
  let c1 := up (320 + recNat h 8 4)
  let c2 := up (c1 + recNat h 12 4)
  (320, c1, c2, if recNat h 16 4 ≠ 0 then c2 + recNat h 16 4 else if recNat h 12 4 ≠ 0 then c1 + recNat h 12 4 else 320 + recNat h 8 4)

/-- The components of an image whose bytes `rd offset length` answers. -/
def imgComps (rd : Nat → Nat → List Byte) : List (List Byte) :=
  let h := rd 0 320
  let (a, b, c, _) := imgPlaces h
  [rd a (recNat h 8 4), rd b (recNat h 12 4), rd c (recNat h 16 4)]

/-- Magic and lengths; SVN in its range (R442). -/
def imgShape (h : List Byte) (fw : Bool) (size : Nat) : Bool :=
  let l0 := recNat h 8 4
  let l1 := recNat h 12 4
  let l2 := recNat h 16 4
  decide ((imgPlaces h).2.2.2 ≤ size) &&
    (if fw then recNat h 0 4 == 0x48364657 && decide (l0 ≤ 0x800000 ∧ l1 ≤ 0x40000 ∧ l2 ≤ 0x80000 ∧ recNat h 4 4 ≤ 64)
     else recNat h 0 4 == 0x48364C44 && decide (l0 ≤ 0x40000) && l1 == 0 && l2 == 0 && recNat h 4 4 == 0)

/-- The reason an image is refused, 0 where it is accepted (R446); `svn` is the lowest SVN taken. -/
def imgReason (rd : Nat → Nat → List Byte) (fw : Bool) (size : Nat) (keyHash : List Byte) (svn : Nat) : Nat :=
  let h := rd 0 320
  let key := (h.drop 128).take 64
  if size < 320 ∨ !imgShape h fw size then 1
  else if sha256 key ≠ keyHash then 2
  else if !ecdsaOk key (sha256 (h.take 256)) (h.drop 256) then 3
  else if recNat h 4 4 < svn then 4
  else if ((imgComps rd).zip (upto 3)).any (fun e => sha256 e.1 != (h.drop (32 + 32 * e.2)).take 32) then 5
  else 0

/-- The key hash firmware is held to: the owner's, or on an unowned device the vendor's. -/
def Fuses.fwKey (f : Fuses) : List Byte := if f.owned then f.ownerKey else f.vendorKey

/-- Bytes of an image in the settings store, and in memory. -/
def Dev.flashAt (d : Dev) (base : Nat) : Nat → Nat → List Byte := fun o n => d.flashRd (base + o) n
def Dev.memAt (d : Dev) (base : Nat) : Nat → Nat → List Byte := fun o n => d.load (base + o) n

/-- The header field that places a slot: image A, image B, the loader (R441). -/
def slotBaseAt (slot : Nat) : Nat := if slot = 0 then 12 else if slot = 1 then 16 else 8

/-- FLASH_WRITE (R435): the image passes boot's checks; the slot is erased, and the write is under way until a tick ends it
(DESIGN CHOICE, log 62). While one is under way a second completes with BUSY. -/
def Dev.flashWrite (d : Dev) (r : List Byte) : Dev :=
  let slot := recNat r 8 1
  let pref := recNat r 9 1
  let a := recNat r 16 8
  let n := recNat r 24 4
  let fw := slot != 2
  let ok := decide (slot ≤ 2) && decide (pref < 2) && decide (n ≤ slotSize) && d.reach a n && d.curHdr.isSome &&
    imgReason (d.memAt a) fw n (if fw then d.fuses.fwKey else d.fuses.vendorKey) (if fw then d.fuses.rollback else 0) == 0
  d.serve 0x21 r [(8, 9), (16, 27)] ok (fun d tag =>
    if d.boot.flash.isSome then d.reply 0x21 tag stBusy []
    else
      let base := recNat ((d.curHdr.map (·.2)).getD []) (slotBaseAt slot) 4
      let d := d.flashErase base (base + slotSize)
      { d with boot := { d.boot with flash := some { slot := slot, prefer := pref == 1 && fw, image := d.load a n, tag := tag } } })

/-- The FLASH_WRITE under way ends: the image stands in its slot, which with PREFER becomes the preferred one. -/
def Dev.flashDone (d : Dev) : Dev :=
  match d.boot.flash with
  | none => d
  | some j =>
    let h := (d.curHdr.map (·.2)).getD []
    let d := d.flashWr (recNat h (slotBaseAt j.slot) 4) j.image
    let d := if j.prefer then d.newHdr j.slot (recNat h 28 4) else d
    ({ d with boot := { d.boot with flash := none } } : Dev).reply 0x21 j.tag stOk []

/-! ## Rollback counter and owner (R452, R453) -/

/-- SVN_COMMIT. -/
def Dev.svnCommit (d : Dev) (r : List Byte) : Dev :=
  d.serve 0x22 r [] true (fun d tag =>
    let f := max d.fuses.rollback (d.fld .secBoot [] 7 0)
    (({ d with fuses := { d.fuses with rollback := f } } : Dev).setFld .secState [] 6 0 f).reply 0x22 tag stOk [])

/-- Every bit already blown is set in the new hash. -/
def hashFits (old new : List Byte) : Bool := (old.zip new).all (fun e => e.1 &&& ~~~e.2 == 0#8)

/-- OWNER_PROVISION. -/
def Dev.ownerProvision (d : Dev) (r : List Byte) : Dev :=
  let a := recNat r 8 8
  let h := sha256 (d.load a 64)
  d.serve 0x23 r [(8, 16)] (d.reach a 64 && decide (recNat r 16 1 < 2) && !d.fuses.owned && hashFits d.fuses.ownerKey h)
    (fun d tag =>
      let vd := d.fuses.vdbg || bit (recNat r 16 1) 0
      let d : Dev := { d with fuses := { d.fuses with ownerKey := h, vdbg := vd, owned := true } }
      ((d.setFld .secState [] 31 31 1).setFld .secState [] 30 30 (b2n vd)).reply 0x23 tag stOk [])

/-! ## Measurement and attestation (R454-R456) -/

/-- Measure an item; INDEX counts the items before it (DESIGN CHOICE, log 61). -/
def Dev.measureItem (d : Dev) (kind : Nat) (digest : List Byte) : Dev :=
  let b := d.boot
  let e := leBytes 2 b.items ++ leBytes 2 kind ++ List.replicate 12 0#8 ++ digest
  let room := decide (b.mlog.length < 256)
  { d with boot := { b with
      items := b.items + 1, acc := sha256 (b.acc ++ e), mlog := if room then b.mlog ++ [e] else b.mlog
      logFull := b.logFull || !room } }

/-- Exactly `n` bytes. -/
def fit (n : Nat) (b : List Byte) : List Byte := (b ++ List.replicate n 0#8).take n

/-- The image that runs: 0 A, 1 B, 2 recovery. -/
def Dev.imageNo (d : Dev) : Nat := if d.flag .secBoot [] 27 then 2 else d.fld .secBoot [] 28 28

/-- IDENTITY: the public key and the certificate. -/
def Dev.identityReq (d : Dev) (r : List Byte) : Dev :=
  let a := recNat r 8 8
  let out := idPub d.fuses ++ d.fuses.cert
  d.serve 0x30 r [(8, 15)] (d.reach a out.length) (fun d tag =>
    (d.store a out).reply 0x30 tag stOk (leBytes 2 d.fuses.cert.length))

/-- The 192 signed bytes of a report. -/
def Dev.reportBody (d : Dev) (nonce : List Byte) : List Byte :=
  let f := d.fuses
  let b5 := b2n f.owned + 2 * b2n f.vdbg + 4 * b2n (d.flag .secBoot [] 27) + 8 * b2n d.boot.logFull + 16 * d.fld .secState [] 26 24
  leBytes 4 0x48364154 ++ [1#8, BitVec.ofNat 8 b5, BitVec.ofNat 8 d.imageNo, BitVec.ofNat 8 f.rollback,
    BitVec.ofNat 8 (d.fld .secBoot [] 7 0), BitVec.ofNat 8 (d.ownId.getD 255)] ++ leBytes 2 d.boot.mlog.length ++
    leBytes 4 (d.rg .sysId []).toNat ++ fit 8 f.serial ++ nonce ++ fit 32 f.vendorKey ++
    (if f.owned then fit 32 f.ownerKey else List.replicate 32 0#8) ++ d.boot.acc ++ leBytes 8 d.tb ++ List.replicate 32 0#8

/-- ATTEST: the signed report, then the kept log entries. -/
def Dev.attestReq (d : Dev) (r : List Byte) : Dev :=
  let na := recNat r 8 8
  let a := recNat r 16 8
  let n := d.boot.mlog.length
  d.serve 0x31 r [(8, 23)] (d.reach na 32 && d.reach a (256 + 48 * n)) (fun d tag =>
    let body := d.reportBody (d.load na 32)
    (d.store a (body ++ ecdsaSign (idKey d.fuses) (sha256 body) ++ d.boot.mlog.flatten)).reply 0x31 tag stOk (leBytes 2 n))

/-! ## Debug (R458) -/

/-- DEBUG_CHALLENGE: 32 random bytes replace any challenge. -/
def Dev.debugChallenge (d : Dev) (r : List Byte) (random : BitVec 256) : Dev :=
  let a := recNat r 8 8
  let c := leBytes 32 random.toNat
  d.serve 0x32 r [(8, 15)] (d.reach a 32) (fun d tag =>
    ({ d with boot := { d.boot with challenge := some c } }.store a c).reply 0x32 tag stOk [])

/-- A token that unlocks. -/
def tokenOk (d : Dev) (c t : List Byte) : Bool :=
  let scope := recNat t 0 1
  let signer := recNat t 1 1
  let key := (t.drop 32).take 64
  decide (scope < 8) && decide (signer < 2) && zeros t 2 30 &&
    (if signer = 0 then d.fuses.owned && sha256 key == d.fuses.ownerKey
     else (!d.fuses.owned || d.fuses.vdbg) && sha256 key == d.fuses.vendorKey) &&
    ecdsaOk key (sha256 (c ++ idPub d.fuses ++ t.take 32)) (t.drop 96)

/-- DEBUG_UNLOCK: the challenge serves one unlock; the scopes add up until the next reset (DEDUCED, log 61). -/
def Dev.debugUnlock (d : Dev) (r : List Byte) : Dev :=
  let a := recNat r 8 8
  let t := d.load a 160
  d.serve 0x33 r [(8, 15)] (d.reach a 160 && d.boot.challenge.any (fun c => tokenOk d c t)) (fun d tag =>
    let d : Dev := { d with boot := { d.boot with challenge := none } }
    let d := d.setFld .secState [] 26 24 (d.fld .secState [] 26 24 ||| recNat t 0 1)
    (d.measureItem 0x10 (sha256 t)).reply 0x33 tag stOk [])

/-! ## Meanings -/

/-- FLASH_WRITE (R435). -/
def execFlashWrite (r : List Byte) (s : State) : Host.Outcome State Fault Refusal := onDev s (s.dev.flashWrite r)
/-- SVN_COMMIT (R452). -/
def execSvnCommit (r : List Byte) (s : State) : Host.Outcome State Fault Refusal := onDev s (s.dev.svnCommit r)
/-- OWNER_PROVISION (R453). -/
def execOwnerProvision (r : List Byte) (s : State) : Host.Outcome State Fault Refusal := onDev s (s.dev.ownerProvision r)
/-- IDENTITY (R454). -/
def execIdentity (r : List Byte) (s : State) : Host.Outcome State Fault Refusal := onDev s (s.dev.identityReq r)
/-- ATTEST (R456). -/
def execAttest (r : List Byte) (s : State) : Host.Outcome State Fault Refusal := onDev s (s.dev.attestReq r)
/-- DEBUG_CHALLENGE (R458). -/
def execDebugChallenge (r : List Byte) (random : BitVec 256) (s : State) : Host.Outcome State Fault Refusal :=
  onDev s (s.dev.debugChallenge r random)
/-- DEBUG_CHALLENGE_EXPIRE (R458). -/
def execDebugChallengeExpire (s : State) : Host.Outcome State Fault Refusal :=
  onDev s { s.dev with boot := { s.dev.boot with challenge := none } }
/-- DEBUG_UNLOCK (R458). -/
def execDebugUnlock (r : List Byte) (s : State) : Host.Outcome State Fault Refusal := onDev s (s.dev.debugUnlock r)

end Sys2Proof.Machine
end

