-- ==== Sys2Proof/Machine/Boot.lean ====
section
/-! DEFINITION. Resets and the way from power-up to service (R338, R339, R345, R352, R379, R440-R450, R470). -/

namespace Sys2Proof.Machine

/-! ## Resets (R449, R470) -/

/-- The slots right after reset (R41, R125). -/
def bootCores (f : Fuses) : Vector CoreSt 7 :=
  Vector.ofFn (fun p =>
    if f.badSlot = some p then { mode := .fusedOff, keySlot := p.val }
    else if (goodSlots f).getD 6 7 = p.val then { mode := .standby, keySlot := p.val } else { keySlot := p.val })

/-- A device that has just been reset: fuses, the straps as sampled (R464) and what lies outside it stay; the core regulator
is at its boot voltage (R467, R468; after every reset, DESIGN CHOICE, log 106); memory contents are undefined. -/
def Dev.blank (d : Dev) : Dev :=
  let n : Dev := { fuses := d.fuses, flash := d.flash, hostMem := d.hostMem, free := d.free, cores := bootCores d.fuses
                   straps := d.straps, stop := some .reset }
  ((n.undefine 0 stackEnd).undefine commonsBase (commonsBase + commonsSize)).undefine coreBase (coreBase + 7 * coreStep)

/-- A device reset with a cause: SEC_RESET survives it. While the device is held in reset, the lowest cause counts. -/
def Dev.deviceReset (d : Dev) (cause : Nat) : Dev :=
  if d.stop = some .reset ∨ d.stop = some .tripped then d.setFld .secReset [] 19 16 (min cause (d.fld .secReset [] 19 16))
  else
    let w := min (d.fld .secReset [] 15 0 + 1) 65535
    d.blank.setRg .secReset [] (BitVec.ofNat 32 (cause * 65536 + w))

/-- The whole block reset: not while a thermal trip holds it. -/
def resetAll (s : State) (cause : Nat) : Host.Outcome State Fault Refusal :=
  if s.dev.stop = some .tripped then .next s
  else .next { s with dev := s.dev.deviceReset cause, arbs := Vector.replicate 84 {} }

/-! ## Boot stages (R445) -/

def Dev.stage (d : Dev) : Nat := d.fld .secBoot [] 31 29
def Dev.setStage (d : Dev) (n : Nat) : Dev := d.setFld .secBoot [] 31 29 n

/-- Boot stops in RECOVERY or FAILED with a reason. -/
def Dev.bootStop (d : Dev) (stage err : Nat) : Dev := (d.setStage stage).setFld .secBoot [] 15 8 err

/-- Chain defaults: the record CHAINREC names (R441, R445), measured when it is applied. -/
def Dev.chainDefaults (d : Dev) (h : List Byte) : Dev :=
  if recNat h 28 4 = 0 then d
  else
    match d.logAt (recNat h 28 4) with
    | some r =>
      if r.type = 1 then
        let v := recNat r.data 0 1 * 256 + recNat r.data 1 1
        (d.setRg .chnCfg [] (BitVec.ofNat 32 v)).measureItem 7 r.digest
      else d
    | none => d

/-- The digest of the fuse image, whose layout the spec does not give (log 13). -/
def Dev.fuseDigest (d : Dev) : List Byte := (upto 32).map (fun i => Config.fuseImageByte (32 * d.free + i))

/-- The report card as it comes out of reset: the stored record (R397), in force for the setpoints of this start-up (R391,
R392). When the record was written is not known after a reset, so the 24 h of R394 start again (DESIGN CHOICE, log 93). -/
def Dev.loadCard (d : Dev) : Dev :=
  match d.governing 4 with
  | some r =>
    let m (k : Nat) : Nat := min 10 (recNat r.data k 1)
    let v : W32 := BitVec.ofNat 32 (m 0 + m 1 * 16 + m 2 * 256 + m 3 * 4096 + recNat r.data 4 1 % 2 * 2 ^ 31)
    { d.setRg .telRcard [] v with pwr := { d.pwr with
        rcStored := v, rcAt := some d.now, applied := (upto 4).map m, daily := (upto 4).map (fun k => recNat r.data (12 + k) 1) } }
  | none => d

/-- Proctor seeds the neighbour-refresh generator of every channel (R332); with what is free (log 12). -/
def Dev.seedDraws (d : Dev) : Dev :=
  ({ d with stk := { d.stk with chans := d.stk.chans.mapIdx (fun i c => { c with gen := Config.drawSeed d.free i }) } } : Dev).nextFree

/-- The PCI Express link trains to x8, x4, x2 or x1 at 32.0, 16.0 or 8.0 GT/s (R423); which is its partner's business, a
free choice (log 97). -/
def Dev.pciTrain (d : Dev) : Dev :=
  ({ d with pci := { d.pci with
      linkWidth := [8, 4, 2, 1].getD (Config.pciWidth d.free % 4) 8
      linkRate := [320, 160, 80].getD (Config.pciRate d.free % 3) 320 } } : Dev).nextFree

/-- The release samples the straps where RESET_N or PERST_N releases the device (R464): after power-on and causes 1 and 2. -/
def Dev.sampleStraps (d : Dev) (x : Straps) : Dev :=
  if d.fld .secReset [] 19 16 ≤ 2 then { d with straps := x } else d

/-- Stage 0 (R445, R447, R464, R467, R468): straps, fuses, header, chain defaults, loader; the device has no ID yet, so its
ports show CAUSE 4 (R347); the loader is held to the vendor's key (DEDUCED, log 61). With TEST_MODE high nothing boots. -/
def Dev.romStage (d : Dev) (x : Release) : Dev :=
  let d := d.sampleStraps x.straps
  let d : Dev := { d with pwr := { d.pwr with mute := !x.regulator }, boot := { d.boot with released := true } }
  if d.straps.testMode then { d with stop := some .testMode }
  else
  let head := d.straps.head
  let d := d.pciTrain
  let d := d.seedDraws
  let d : Dev := { d with stop := none, chn := { d.chn with head := head } }
  let d := (d.setFld .chnStat [] 28 28 (b2n head))
  let d := (upto 4).foldl (fun d k => d.setLnk k 0 4) d
  let d := d.loadCard
  let d := d.command (d.spOf 3)
  let d := (d.measureItem 1 d.fuseDigest).nextFree
  match d.curHdr with
  | none => d.bootStop 6 1
  | some (_, h) =>
    let d := d.chainDefaults h
    let rd := d.flashAt (recNat h 8 4)
    if imgReason rd false slotSize d.fuses.vendorKey 0 ≠ 0 then d.bootStop 6 2
    else
      let d := d.measureItem 2 (sha256 (rd 0 320))
      let d : Dev := { d with boot := { d.boot with loader := (imgComps rd).getD 0 [] } }
      d.setStage 1

/-- Place an accepted firmware image and measure it (R445, R455); where the runtime lies in Commons is not given. -/
def Dev.placeImage (d : Dev) (rd : Nat → Nat → List Byte) : Dev :=
  let h := rd 0 320
  let cs := imgComps rd
  let d : Dev := { d with boot := { d.boot with head := h, comps := cs } }
  let d := d.undefine commonsBase (commonsBase + commonsSize)
  let d := d.measureItem 3 (sha256 h)
  let d := (cs.zip (upto 3)).foldl (fun d e => d.measureItem (4 + e.2) (sha256 e.1)) d
  (d.setFld .secBoot [] 7 0 (recNat h 4 4)).setStage 2

/-- AERR or BERR. -/
def Dev.imgErr (d : Dev) (i : Nat) : Nat := if i = 0 then d.fld .secBoot [] 23 20 else d.fld .secBoot [] 19 16
def Dev.setImgErr (d : Dev) (i e : Nat) : Dev := if i = 0 then d.setFld .secBoot [] 23 20 e else d.setFld .secBoot [] 19 16 e

/-- Try images in order; one with a reason recorded is not tried again. -/
def tryImages : List Nat → Dev → List Byte → Dev
  | [], d, _ => d.bootStop 6 3
  | i :: rest, d, h =>
    if d.imgErr i ≠ 0 then tryImages rest d h
    else
      let rd := d.flashAt (recNat h (12 + 4 * i) 4)
      let e := imgReason rd true slotSize d.fuses.fwKey d.fuses.rollback
      if e = 0 then (d.placeImage rd).setFld .secBoot [] 28 28 i else tryImages rest (d.setImgErr i e) h

/-- LOADER_IMAGE_CHECK (R446): the preferred image, then the other. -/
def Dev.loaderCheck (d : Dev) : Dev :=
  if d.stage ≠ 1 then d
  else
    match d.curHdr with
    | none => d.bootStop 6 1
    | some (_, h) => tryImages (if recNat h 6 1 = 1 then [1, 0] else [0, 1]) d h

/-- Every channel's training state. -/
def Dev.setChStates (d : Dev) (f : Nat → Nat) : Dev := (upto 16).foldl (fun d c => d.setFld .memChStat [c] 31 29 (f c)) d

/-- FIRMWARE_RELEASE (R446): training begins; a failed self-check goes back to the loader and the other image; a
recovered image has no other. -/
def Dev.fwRelease (d : Dev) (ok : Bool) : Dev :=
  if d.stage ≠ 2 then d
  else if ok then (d.setChStates (fun _ => 1)).setStage 3
  else if d.flag .secBoot [] 27 then d.bootStop 6 3
  else (d.setImgErr (d.fld .secBoot [] 28 28) 6).setStage 1

/-- The rows of a row-repairs record: channel, pseudo-channel, bank, row. -/
def repairRows (b : List Byte) : List (Nat × Nat × Nat × Nat) :=
  (upto (b.length / 4)).map (fun i =>
    let w := recNat b (4 * i) 4
    (bits w 22 19, bits w 18 18, bits w 17 14, bits w 13 0))

/-- Recorded repairs (R338): up to 4 of each channel become permanent, the rest are applied again as soft repairs. -/
def Dev.bootRepairs (d : Dev) : Dev :=
  match d.governing 5 with
  | none => d
  | some r =>
    let step (st : Dev × List Nat) (x : Nat × Nat × Nat × Nat) : Dev × List Nat :=
      let d := st.1
      let c : Fin 16 := Fin.ofNat 16 x.1
      let used := repaired d c x.2.1 x.2.2.1
      if 2 ≤ used.length ∨ used.contains x.2.2.2 then st
      else if (st.2.filter (· == x.1)).length < 4 then
        (({ d with fuses := { d.fuses with hardRepair := d.fuses.hardRepair ++ [x] } } : Dev), x.1 :: st.2)
      else
        let ch := d.chan c
        (d.setChan c { ch with soft := ch.soft ++ [(x.2.1, x.2.2.1, x.2.2.2)] }, st.2)
    let d := ((repairRows r.data).foldl step (d, [])).1
    (List.finRange 16).foldl Dev.repairCount (d.measureItem 7 r.digest)

/-- The governing records of power and operating point are applied (R443, R445); the report card's has been since reset
(R397), with what the start-up measurements made of it, and is measured with them. -/
def Dev.applyRecords (d : Dev) : Dev :=
  let d := match d.governing 2 with
    | some r =>
      let n (i : Nat) : Nat := recNat r.data i 1
      let d := (d.capWrite (BitVec.ofNat 32 (n 2 % 32 * 65536 + n 0))).leaseWrite (BitVec.ofNat 32 (n 1 * 256))
      (d.setFld .pwrSkip [] 3 0 (n 3)).measureItem 7 r.digest
    | none => d
  let d := match d.governing 3 with
    | some r => ({ d with boot := { d.boot with point := recNat r.data 0 1 } } : Dev).measureItem 7 r.digest
    | none => d
  match d.governing 4 with
  | some r => d.measureItem 7 r.digest
  | none => d

/-- The core comes to a point of the start-up (R374, R445). -/
def Dev.atPoint (d : Dev) (k : Nat) : Dev :=
  ((d.setFld .pwrDvfs [] 29 28 k).setFld .pwrDvfs [] 27 26 k).command (d.spOf k)

/-- The core steps from 400 MHz to 800 MHz, measured at each point (R392, R445; the measurements come with the command,
log 90); with EXHAUSTED set no further than point 1 (R393). -/
def Dev.stepUp (d : Dev) (slack : List Nat) : Dev :=
  [3, 2, 1, 0].foldl (fun d k =>
    if k = 0 ∧ d.flag .telRcard [] 31 then d else (d.atPoint k).replan k (slack.getD k 100)) d

/-- Service is at point 1 where the record or the report card says so (R393, R443). -/
def Dev.servicePoint (d : Dev) : Dev := if d.flag .telRcard [] 31 ∨ d.boot.point = 1 then d.atPoint 1 else d

/-- The runtime moves to its region and zeroes Commons (R445, R448). -/
def Dev.moveRuntime (d : Dev) : Dev :=
  let d := d.undefine runtimeBase stackEnd
  { d with mem := d.mem.clear commonsBase (commonsBase + commonsSize)
           poison := clearPoison d.poison commonsBase commonsSize }

/-- A regulator that answers nothing has left the core at its boot voltage; the runtime reports it on the UART (R467). -/
def Dev.regulatorMute (d : Dev) : Dev :=
  { d with
    pwr := { d.pwr with mute := true, setpoint := bootMv, oldSp := bootMv, slewing := false, rail := 100 * (bootMv : Int) }
    boot := { d.boot with uart := d.boot.uart ++ [.regulatorMute] } }

/-- STACK_TRAINING_COMPLETE (R338, R339, R392, R445, R450, R467): a failed channel stops boot; a regulator that does not answer
leaves the core at point 3 in stage 3; else the core steps up, and stage 4 begins with the training of the links (log 63). -/
def Dev.stackTrained (d : Dev) (failed : List (Fin 16)) (up : StepUp) : Dev :=
  if d.stage ≠ 3 then d
  else
    let bad (c : Nat) : Bool := failed.any (fun x => x.val == c)
    let d := d.setChStates (fun c => if bad c then 4 else 2)
    match (upto 16).find? bad with
    | some c => d.bootStop 7 (0x10 + c)
    | none =>
      let d := d.bootRepairs.stackEnable
      if !up.regulator || d.pwr.mute then d.regulatorMute
      else
        let d := ((d.stepUp up.slack).applyRecords.servicePoint.moveRuntime).setStage 4
        ([0, 1, 2, 3] : List (Fin 4)).foldl Dev.linkEnable d

/-- BOOT_READY (R439, R445): dispatch on, READY. -/
def Dev.bootReady (d : Dev) : Dev :=
  if d.stage ≠ 4 then d
  else
    let up := ((upto 4).map (fun k => if lnkState d k = 2 then 2 ^ k else 0)).foldl (· + ·) 0
    let d := (d.setFld .ttCtl [] 0 0 1).setStage 5
    d.notice stOk ([1#8, BitVec.ofNat 8 (d.ownId.getD 255), BitVec.ofNat 8 up, BitVec.ofNat 8 d.imageNo] ++
      List.replicate 4 0#8 ++ leBytes 8 runtimeBase)

/-- RECOVERY_GO (R447, R460): a write of SEC_RECOVERY with GO = 1. -/
def Dev.recoveryGo (d : Dev) (len : Nat) : Dev :=
  let d := d.setFld .secRecovery [] 23 0 len
  if d.stage ≠ 6 then d
  else
    let ld := d.memAt commonsBase
    let off := ceilDiv (imgPlaces (ld 0 320)).2.2.2 64 * 64
    let fw := d.memAt (commonsBase + off)
    if len % 64 = 0 ∧ len ≤ commonsSize ∧ off ≤ len ∧ imgReason ld false len d.fuses.vendorKey 0 = 0 ∧
        imgReason fw true (len - off) d.fuses.fwKey d.fuses.rollback = 0 then
      let d := (d.measureItem 2 (sha256 (ld 0 320))).measureItem 0x11 (sha256 (ld 0 len))
      let d : Dev := { d with boot := { d.boot with loader := (imgComps ld).getD 0 [] } }
      (d.placeImage fw).setFld .secBoot [] 27 27 1
    else d.setFld .secBoot [] 15 8 0x20

/-- A DISCOVERY notice follows the discovery (R439, R445). -/
def Dev.discoveryDone (d : Dev) (agrees : Bool) (roster : Nat) (routes ctl : List (Nat × W32)) (fab : W32) : Dev :=
  (d.discovery agrees routes ctl fab).notice stOk [2#8, BitVec.ofNat 8 (b2n !agrees), BitVec.ofNat 8 roster]

/-! ## Meanings -/

/-- SUPPLY_RESET (R378, R379, R449, R470): the rail has stayed below the reset level for 50 ns. On a device that another source
has put into reset it counts among the causes as it comes (log 92): the reset has set the regulator back to its boot
voltage. -/
def execSupplyReset (s : State) : Host.Outcome State Fault Refusal :=
  if s.dev.stop = some .reset ∨ s.dev.pwr.rail < s.dev.pwr.resetLevel then resetAll s 3 else .next s
/-- RESET_N_ASSERT (R449). -/
def execResetNAssert (s : State) : Host.Outcome State Fault Refusal := resetAll s 1
/-- PERST (R431). -/
def execPerst (s : State) : Host.Outcome State Fault Refusal := resetAll s 2
/-- RESET (R435): the response, then a device reset with cause 4. -/
def execReset (r : List Byte) (s : State) : Host.Outcome State Fault Refusal :=
  if s.dev.stop.isSome then .next s
  else
    let d := s.dev.serve 0x34 r [] true (fun d tag => (d.reply 0x34 tag stOk []).deviceReset 4)
    .next { s with dev := d, arbs := if d.stop.isSome then Vector.replicate 84 {} else s.arbs }
/-- SUPPLY_REMOVAL (R389, R449, R470): it ends a trip; power returns with a power-on reset. -/
def execSupplyRemoval (s : State) : Host.Outcome State Fault Refusal :=
  .next { s with dev := s.dev.blank, arbs := Vector.replicate 84 {} }
/-- RESET_RELEASE (R445). -/
def execResetRelease (x : Release) (s : State) : Host.Outcome State Fault Refusal :=
  .next (if s.dev.stop = some .reset ∨ (s.dev.stop = none ∧ s.dev.boot.released = false) then
    { s with dev := s.dev.romStage x } else s)
/-- LOADER_IMAGE_CHECK (R446). -/
def execLoaderImageCheck (s : State) : Host.Outcome State Fault Refusal := onDev s s.dev.loaderCheck
/-- FIRMWARE_RELEASE (R446). -/
def execFirmwareRelease (ok : Bool) (s : State) : Host.Outcome State Fault Refusal := onDev s (s.dev.fwRelease ok)
/-- STACK_TRAINING_COMPLETE (R339). -/
def execStackTrainingComplete (failed : List (Fin 16)) (up : StepUp) (s : State) : Host.Outcome State Fault Refusal :=
  onDev s (s.dev.stackTrained failed up)
/-- BOOT_READY (R445). -/
def execBootReady (s : State) : Host.Outcome State Fault Refusal := onDev s s.dev.bootReady
/-- RECOVERY_GO (R447). -/
def execRecoveryGo (len : BitVec 24) (s : State) : Host.Outcome State Fault Refusal := onDev s (s.dev.recoveryGo len.toNat)
/-- FABRIC_DISCOVERY (R368, R439). -/
def execFabricDiscovery (agrees : Bool) (roster : BitVec 8) (routes ctl : List (Nat × W32)) (fab : W32) (s : State) :
    Host.Outcome State Fault Refusal := onDev s (s.dev.discoveryDone agrees roster.toNat routes ctl fab)

end Sys2Proof.Machine
end

