-- ==== Sys2Proof/Machine/CoreEvents.lean ====
section
/-! DEFINITION. The events inside a core: a division, an array's stream, a walker, an atomic completes; barriers
release; the tile watchdog. -/

namespace Sys2Proof.Machine

/-- DIVIDE_COMPLETE (R118, R121): the divider of S0 or S1 writes its result. -/
def Dev.divideComplete (d : Dev) (p : Fin 7) (second : Bool) : Dev :=
  let c := d.core p
  match (if second then c.div1 else c.div0) with
  | none => d
  | some x =>
    d.modCore p (fun c => (if second then { c with div1 := none } else { c with div0 := none }).setS x.dest x.val)

/-- A core event happens only while the slot is clocked and not frozen (R371, R403). -/
def Dev.clocked (d : Dev) (p : Fin 7) (f : Dev → Dev) : Dev :=
  if (d.core p).stopped || (d.core p).frozen then d else f d

/-- Data moves over the network only while it has a clock (R400). -/
def Dev.networked (d : Dev) (f : Dev → Dev) : Dev := if d.pwr.commonsOff then d else f d

/-- DIVIDE_COMPLETE (R118, R121). -/
def execDivideComplete (p : Fin 7) (second : Bool) (s : State) : Host.Outcome State Fault Refusal :=
  onDev s (s.dev.clocked p (·.divideComplete p second))

/-- MLOAD_COMPLETE (R109, R134-R136). -/
def execMloadComplete (p : Fin 7) (arr : Fin 2) (s : State) : Host.Outcome State Fault Refusal :=
  onDev s (s.dev.clocked p (·.mloadComplete p arr.val))

/-- MRUN_STREAM_START (R109, R131, R154). -/
def execMrunStreamStart (p : Fin 7) (arr : Fin 2) (s : State) : Host.Outcome State Fault Refusal :=
  onDev s (s.dev.mrunStart p arr.val)

/-- MRUN_COMPLETE (R109, R143-R147). -/
def execMrunComplete (p : Fin 7) (arr : Fin 2) (s : State) : Host.Outcome State Fault Refusal :=
  onDev s (s.dev.clocked p (·.mrunComplete p arr.val))

/-- MEPI_START (R109, R139, R140). -/
def execMepiStart (p : Fin 7) (arr : Fin 2) (s : State) : Host.Outcome State Fault Refusal :=
  onDev s (s.dev.mepiStart p arr.val)

/-- MEPI_COMPLETE (R109, R164-R172). -/
def execMepiComplete (p : Fin 7) (arr : Fin 2) (s : State) : Host.Outcome State Fault Refusal :=
  onDev s (s.dev.clocked p (·.mepiComplete p arr.val))

/-- CHAIN_PLANE_ARRIVE (R202-R206). -/
def execChainPlaneArrive (p : Fin 7) (s : State) : Host.Outcome State Fault Refusal :=
  onDev s (s.dev.chainArrive p)

/-- WALKER_TRANSFER_START (R192, R196). -/
def execWalkerTransferStart (p : Fin 7) (w : Fin 3) (s : State) : Host.Outcome State Fault Refusal :=
  onDev s (s.dev.clocked p (·.networked (·.walkerStart p w.val)))

/-- WALKER_TRANSFER_COMPLETE (R188, R196). -/
def execWalkerTransferComplete (p : Fin 7) (w : Fin 3) (s : State) : Host.Outcome State Fault Refusal :=
  onDev s (s.dev.clocked p (·.networked (·.walkerComplete p w.val)))

/-- REMOTE_TIMEOUT (R200, R354). -/
def execRemoteTimeout (p : Fin 7) (w : Fin 3) (s : State) : Host.Outcome State Fault Refusal :=
  onDev s (s.dev.remoteTimeout p w.val)

/-- ATOMIC_PERFORM (R257, R258). -/
def execAtomicPerform (p : Fin 7) (s : State) : Host.Outcome State Fault Refusal :=
  onDev s (s.dev.atomicPerform p)

/-- ATOMIC_COMPLETE (R121). -/
def execAtomicComplete (p : Fin 7) (s : State) : Host.Outcome State Fault Refusal :=
  onDev s (s.dev.atomicComplete p)

/-- AWATCH_FIRE (R110, R399). -/
def execAwatchFire (p : Fin 7) (i : Nat) (s : State) : Host.Outcome State Fault Refusal :=
  onDev s (s.dev.awatchFire p i)

/-- BARRIER_RELEASE (R252-R254). -/
def execBarrierRelease (level : Fin 3) (id : BitVec 10) (p : Fin 7) (s : State) : Host.Outcome State Fault Refusal :=
  onDev s (s.dev.barrierRelease level.val id.toNat p)

/-- DISMISS_HOLD_EXPIRE (R254). -/
def execDismissHoldExpire (s : State) : Host.Outcome State Fault Refusal :=
  onDev s (s.dev.dismissHold)

/-- TILE_WATCHDOG (R88, R123). -/
def execTileWatchdog (p : Fin 7) (s : State) : Host.Outcome State Fault Refusal :=
  onDev s (s.dev.tileWatchdog p)

/-- BARRIER_MASK_APPLY (R268). -/
def execBarrierMaskApply (s : State) : Host.Outcome State Fault Refusal :=
  onDev s (s.dev.barMaskApply)

end Sys2Proof.Machine
end

