-- ==== Sys2Proof/Machine/CoreOps.lean ====
section
/-! DEFINITION. The meanings of the core operations: each issues its bundle at a slot, as R90-R119 state; what the
operation itself does is its act in Scalar, Vector, LoadStore, Matrix, Movement and Control. -/

namespace Sys2Proof.Machine

/-- NOP (R93): an all-zero slot. -/
def execNop (a : Site) (pos : SlotPos) (s : State) : Host.Outcome State Fault Refusal :=
  onDev s (s.dev.issueAt a pos.val actNop)

/-- ADD (R97). -/
def execAdd (a : Site) (second : Bool) (f : SFields) (s : State) : Host.Outcome State Fault Refusal :=
  onDev s (s.dev.issueAt a (sPos second) (actAdd f))

/-- SUB (R97). -/
def execSub (a : Site) (second : Bool) (f : SFields) (s : State) : Host.Outcome State Fault Refusal :=
  onDev s (s.dev.issueAt a (sPos second) (actSub f))

/-- AND (R97). -/
def execAnd (a : Site) (second : Bool) (f : SFields) (s : State) : Host.Outcome State Fault Refusal :=
  onDev s (s.dev.issueAt a (sPos second) (actAnd f))

/-- OR (R97). -/
def execOr (a : Site) (second : Bool) (f : SFields) (s : State) : Host.Outcome State Fault Refusal :=
  onDev s (s.dev.issueAt a (sPos second) (actOr f))

/-- XOR (R97). -/
def execXor (a : Site) (second : Bool) (f : SFields) (s : State) : Host.Outcome State Fault Refusal :=
  onDev s (s.dev.issueAt a (sPos second) (actXor f))

/-- SLL (R97). -/
def execSll (a : Site) (second : Bool) (f : SFields) (s : State) : Host.Outcome State Fault Refusal :=
  onDev s (s.dev.issueAt a (sPos second) (actSll f))

/-- SRL (R97). -/
def execSrl (a : Site) (second : Bool) (f : SFields) (s : State) : Host.Outcome State Fault Refusal :=
  onDev s (s.dev.issueAt a (sPos second) (actSrl f))

/-- SRA (R97). -/
def execSra (a : Site) (second : Bool) (f : SFields) (s : State) : Host.Outcome State Fault Refusal :=
  onDev s (s.dev.issueAt a (sPos second) (actSra f))

/-- SLT (R97). -/
def execSlt (a : Site) (second : Bool) (f : SFields) (s : State) : Host.Outcome State Fault Refusal :=
  onDev s (s.dev.issueAt a (sPos second) (actSlt f))

/-- SLTU (R97). -/
def execSltu (a : Site) (second : Bool) (f : SFields) (s : State) : Host.Outcome State Fault Refusal :=
  onDev s (s.dev.issueAt a (sPos second) (actSltu f))

/-- MUL (R97). -/
def execMul (a : Site) (second : Bool) (f : SFields) (s : State) : Host.Outcome State Fault Refusal :=
  onDev s (s.dev.issueAt a (sPos second) (actMul f))

/-- MULH (R97). -/
def execMulh (a : Site) (second : Bool) (f : SFields) (s : State) : Host.Outcome State Fault Refusal :=
  onDev s (s.dev.issueAt a (sPos second) (actMulh f))

/-- MIN (R97). -/
def execMin (a : Site) (second : Bool) (f : SFields) (s : State) : Host.Outcome State Fault Refusal :=
  onDev s (s.dev.issueAt a (sPos second) (actMin f))

/-- MAX (R97). -/
def execMax (a : Site) (second : Bool) (f : SFields) (s : State) : Host.Outcome State Fault Refusal :=
  onDev s (s.dev.issueAt a (sPos second) (actMax f))

/-- ADDI (R97). -/
def execAddi (a : Site) (second : Bool) (f : SFields) (s : State) : Host.Outcome State Fault Refusal :=
  onDev s (s.dev.issueAt a (sPos second) (actAddi f))

/-- ANDI (R97). -/
def execAndi (a : Site) (second : Bool) (f : SFields) (s : State) : Host.Outcome State Fault Refusal :=
  onDev s (s.dev.issueAt a (sPos second) (actAndi f))

/-- ORI (R97). -/
def execOri (a : Site) (second : Bool) (f : SFields) (s : State) : Host.Outcome State Fault Refusal :=
  onDev s (s.dev.issueAt a (sPos second) (actOri f))

/-- XORI (R97). -/
def execXori (a : Site) (second : Bool) (f : SFields) (s : State) : Host.Outcome State Fault Refusal :=
  onDev s (s.dev.issueAt a (sPos second) (actXori f))

/-- SLLI (R97). -/
def execSlli (a : Site) (second : Bool) (f : SFields) (s : State) : Host.Outcome State Fault Refusal :=
  onDev s (s.dev.issueAt a (sPos second) (actSlli f))

/-- SRLI (R97). -/
def execSrli (a : Site) (second : Bool) (f : SFields) (s : State) : Host.Outcome State Fault Refusal :=
  onDev s (s.dev.issueAt a (sPos second) (actSrli f))

/-- SRAI (R97). -/
def execSrai (a : Site) (second : Bool) (f : SFields) (s : State) : Host.Outcome State Fault Refusal :=
  onDev s (s.dev.issueAt a (sPos second) (actSrai f))

/-- SLTI (R97). -/
def execSlti (a : Site) (second : Bool) (f : SFields) (s : State) : Host.Outcome State Fault Refusal :=
  onDev s (s.dev.issueAt a (sPos second) (actSlti f))

/-- LUI (R97). -/
def execLui (a : Site) (second : Bool) (f : SFields) (s : State) : Host.Outcome State Fault Refusal :=
  onDev s (s.dev.issueAt a (sPos second) (actLui f))

/-- DIV (R97). -/
def execDiv (a : Site) (second : Bool) (f : SFields) (s : State) : Host.Outcome State Fault Refusal :=
  onDev s (s.dev.issueAt a (sPos second) (actDiv second f))

/-- DIVU (R97). -/
def execDivu (a : Site) (second : Bool) (f : SFields) (s : State) : Host.Outcome State Fault Refusal :=
  onDev s (s.dev.issueAt a (sPos second) (actDivu second f))

/-- REMU (R97). -/
def execRemu (a : Site) (second : Bool) (f : SFields) (s : State) : Host.Outcome State Fault Refusal :=
  onDev s (s.dev.issueAt a (sPos second) (actRemu second f))

/-- GETS (R95). -/
def execGets (a : Site) (second : Bool) (f : SFields) (s : State) : Host.Outcome State Fault Refusal :=
  onDev s (s.dev.issueAt a (sPos second) (actGets f))

/-- SETS (R95). -/
def execSets (a : Site) (second : Bool) (f : SFields) (s : State) : Host.Outcome State Fault Refusal :=
  onDev s (s.dev.issueAt a (sPos second) (actSets f))

/-- MOVV (R97). -/
def execMovv (a : Site) (second : Bool) (f : SFields) (s : State) : Host.Outcome State Fault Refusal :=
  onDev s (s.dev.issueAt a (sPos second) (actMovv f))

/-- VADD (R101). -/
def execVadd (a : Site) (f : VFields) (s : State) : Host.Outcome State Fault Refusal :=
  onDev s (s.dev.issueAt a 2 (actVadd f))

/-- VSUB (R101). -/
def execVsub (a : Site) (f : VFields) (s : State) : Host.Outcome State Fault Refusal :=
  onDev s (s.dev.issueAt a 2 (actVsub f))

/-- VMUL (R101). -/
def execVmul (a : Site) (f : VFields) (s : State) : Host.Outcome State Fault Refusal :=
  onDev s (s.dev.issueAt a 2 (actVmul f))

/-- VFMA (R101). -/
def execVfma (a : Site) (f : VFields) (s : State) : Host.Outcome State Fault Refusal :=
  onDev s (s.dev.issueAt a 2 (actVfma f))

/-- VMIN (R101). -/
def execVmin (a : Site) (f : VFields) (s : State) : Host.Outcome State Fault Refusal :=
  onDev s (s.dev.issueAt a 2 (actVmin f))

/-- VMAX (R101). -/
def execVmax (a : Site) (f : VFields) (s : State) : Host.Outcome State Fault Refusal :=
  onDev s (s.dev.issueAt a 2 (actVmax f))

/-- VAND (R101). -/
def execVand (a : Site) (f : VFields) (s : State) : Host.Outcome State Fault Refusal :=
  onDev s (s.dev.issueAt a 2 (actVand f))

/-- VOR (R101). -/
def execVor (a : Site) (f : VFields) (s : State) : Host.Outcome State Fault Refusal :=
  onDev s (s.dev.issueAt a 2 (actVor f))

/-- VXOR (R101). -/
def execVxor (a : Site) (f : VFields) (s : State) : Host.Outcome State Fault Refusal :=
  onDev s (s.dev.issueAt a 2 (actVxor f))

/-- VSHL (R101). -/
def execVshl (a : Site) (f : VFields) (s : State) : Host.Outcome State Fault Refusal :=
  onDev s (s.dev.issueAt a 2 (actVshl f))

/-- VSHR (R101). -/
def execVshr (a : Site) (f : VFields) (s : State) : Host.Outcome State Fault Refusal :=
  onDev s (s.dev.issueAt a 2 (actVshr f))

/-- VCMPLT (R101). -/
def execVcmplt (a : Site) (f : VFields) (s : State) : Host.Outcome State Fault Refusal :=
  onDev s (s.dev.issueAt a 2 (actVcmplt f))

/-- VCMPEQ (R101). -/
def execVcmpeq (a : Site) (f : VFields) (s : State) : Host.Outcome State Fault Refusal :=
  onDev s (s.dev.issueAt a 2 (actVcmpeq f))

/-- VSEL (R101). -/
def execVsel (a : Site) (f : VFields) (s : State) : Host.Outcome State Fault Refusal :=
  onDev s (s.dev.issueAt a 2 (actVsel f))

/-- VBCAST (R101). -/
def execVbcast (a : Site) (f : VFields) (s : State) : Host.Outcome State Fault Refusal :=
  onDev s (s.dev.issueAt a 2 (actVbcast f))

/-- VCVT (R101). -/
def execVcvt (a : Site) (f : VFields) (s : State) : Host.Outcome State Fault Refusal :=
  onDev s (s.dev.issueAt a 2 (actVcvt f))

/-- VRED (R101). -/
def execVred (a : Site) (f : VFields) (s : State) : Host.Outcome State Fault Refusal :=
  onDev s (s.dev.issueAt a 2 (actVred f))

/-- VGATHER (R101). -/
def execVgather (a : Site) (f : VFields) (s : State) : Host.Outcome State Fault Refusal :=
  onDev s (s.dev.issueAt a 2 (actVgather f))

/-- MGEN (R101). -/
def execMgen (a : Site) (f : VFields) (s : State) : Host.Outcome State Fault Refusal :=
  onDev s (s.dev.issueAt a 2 (actMgen f))

/-- MAND (R101). -/
def execMand (a : Site) (f : VFields) (s : State) : Host.Outcome State Fault Refusal :=
  onDev s (s.dev.issueAt a 2 (actMand f))

/-- MOR (R101). -/
def execMor (a : Site) (f : VFields) (s : State) : Host.Outcome State Fault Refusal :=
  onDev s (s.dev.issueAt a 2 (actMor f))

/-- MANDN (R101). -/
def execMandn (a : Site) (f : VFields) (s : State) : Host.Outcome State Fault Refusal :=
  onDev s (s.dev.issueAt a 2 (actMandn f))

/-- QRINIT (R101). -/
def execQrinit (a : Site) (f : VFields) (s : State) : Host.Outcome State Fault Refusal :=
  onDev s (s.dev.issueAt a 2 (actQrinit f))

/-- QRACC (R101). -/
def execQracc (a : Site) (f : VFields) (s : State) : Host.Outcome State Fault Refusal :=
  onDev s (s.dev.issueAt a 2 (actQracc f))

/-- QRANGE (R101). -/
def execQrange (a : Site) (f : VFields) (s : State) : Host.Outcome State Fault Refusal :=
  onDev s (s.dev.issueAt a 2 (actQrange f))

/-- VQUANT (R101). -/
def execVquant (a : Site) (f : VFields) (s : State) : Host.Outcome State Fault Refusal :=
  onDev s (s.dev.issueAt a 2 (actVquant f))

/-- VDEQ (R101). -/
def execVdeq (a : Site) (f : VFields) (s : State) : Host.Outcome State Fault Refusal :=
  onDev s (s.dev.issueAt a 2 (actVdeq f))

/-- VRDACC (R101). -/
def execVrdacc (a : Site) (f : VFields) (s : State) : Host.Outcome State Fault Refusal :=
  onDev s (s.dev.issueAt a 2 (actVrdacc f))

/-- VRDTAL (R101). -/
def execVrdtal (a : Site) (f : VFields) (s : State) : Host.Outcome State Fault Refusal :=
  onDev s (s.dev.issueAt a 2 (actVrdtal f))

/-- FINISH (R177). -/
def execFinish (a : Site) (f : VFields) (s : State) : Host.Outcome State Fault Refusal :=
  onDev s (s.dev.issueAt a 2 (actFinish f))

/-- LD (R105). -/
def execLd (a : Site) (second : Bool) (f : LFields) (s : State) : Host.Outcome State Fault Refusal :=
  onDev s (s.dev.issueAt a (lPos second) (actLd f))

/-- ST (R105). -/
def execSt (a : Site) (second : Bool) (f : LFields) (s : State) : Host.Outcome State Fault Refusal :=
  onDev s (s.dev.issueAt a (lPos second) (actSt f))

/-- LDW (R105). -/
def execLdw (a : Site) (second : Bool) (f : LFields) (s : State) : Host.Outcome State Fault Refusal :=
  onDev s (s.dev.issueAt a (lPos second) (actLdw f))

/-- MLOAD (R107). -/
def execMload (a : Site) (f : MFields) (s : State) : Host.Outcome State Fault Refusal :=
  onDev s (s.dev.issueAt a 5 (actMload f))

/-- MSWAP (R107). -/
def execMswap (a : Site) (f : MFields) (s : State) : Host.Outcome State Fault Refusal :=
  onDev s (s.dev.issueAt a 5 (actMswap f))

/-- MRUN (R107). -/
def execMrun (a : Site) (f : MFields) (s : State) : Host.Outcome State Fault Refusal :=
  onDev s (s.dev.issueAt a 5 (actMrun f))

/-- MEPI (R107). -/
def execMepi (a : Site) (f : MFields) (s : State) : Host.Outcome State Fault Refusal :=
  onDev s (s.dev.issueAt a 5 (actMepi f))

/-- MCLR (R107). -/
def execMclr (a : Site) (f : MFields) (s : State) : Host.Outcome State Fault Refusal :=
  onDev s (s.dev.issueAt a 5 (actMclr f))

/-- WALK (R110). -/
def execWalk (a : Site) (f : XFields) (s : State) : Host.Outcome State Fault Refusal :=
  onDev s (s.dev.issueAt a 6 (actWalk f))

/-- FSET (R110). -/
def execFset (a : Site) (f : XFields) (s : State) : Host.Outcome State Fault Refusal :=
  onDev s (s.dev.issueAt a 6 (actFset f))

/-- FCLR (R110). -/
def execFclr (a : Site) (f : XFields) (s : State) : Host.Outcome State Fault Refusal :=
  onDev s (s.dev.issueAt a 6 (actFclr f))

/-- TAKE (R110). -/
def execTake (a : Site) (f : XFields) (s : State) : Host.Outcome State Fault Refusal :=
  onDev s (s.dev.issueAt a 6 (actTake f))

/-- AADD (R110). -/
def execAadd (a : Site) (f : XFields) (s : State) : Host.Outcome State Fault Refusal :=
  onDev s (s.dev.issueAt a 6 (actAadd f))

/-- ALD (R110). -/
def execAld (a : Site) (f : XFields) (s : State) : Host.Outcome State Fault Refusal :=
  onDev s (s.dev.issueAt a 6 (actAld f))

/-- AST (R110). -/
def execAst (a : Site) (f : XFields) (s : State) : Host.Outcome State Fault Refusal :=
  onDev s (s.dev.issueAt a 6 (actAst f))

/-- ACAS (R110). -/
def execAcas (a : Site) (f : XFields) (s : State) : Host.Outcome State Fault Refusal :=
  onDev s (s.dev.issueAt a 6 (actAcas f))

/-- AWATCH (R110). -/
def execAwatch (a : Site) (f : XFields) (s : State) : Host.Outcome State Fault Refusal :=
  onDev s (s.dev.issueAt a 6 (actAwatch f))

/-- FENCE (R110). -/
def execFence (a : Site) (f : XFields) (s : State) : Host.Outcome State Fault Refusal :=
  onDev s (s.dev.issueAt a 6 (actFence f))

/-- JMP (R113). -/
def execJmp (a : Site) (f : CFields) (s : State) : Host.Outcome State Fault Refusal :=
  onDev s (s.dev.issueAt a 7 (actJmp f))

/-- JAL (R113). -/
def execJal (a : Site) (f : CFields) (s : State) : Host.Outcome State Fault Refusal :=
  onDev s (s.dev.issueAt a 7 (actJal f))

/-- JR (R113). -/
def execJr (a : Site) (f : CFields) (s : State) : Host.Outcome State Fault Refusal :=
  onDev s (s.dev.issueAt a 7 (actJr f))

/-- BEQ (R113). -/
def execBeq (a : Site) (f : CFields) (s : State) : Host.Outcome State Fault Refusal :=
  onDev s (s.dev.issueAt a 7 (actBeq f))

/-- BNE (R113). -/
def execBne (a : Site) (f : CFields) (s : State) : Host.Outcome State Fault Refusal :=
  onDev s (s.dev.issueAt a 7 (actBne f))

/-- BLT (R113). -/
def execBlt (a : Site) (f : CFields) (s : State) : Host.Outcome State Fault Refusal :=
  onDev s (s.dev.issueAt a 7 (actBlt f))

/-- BGE (R113). -/
def execBge (a : Site) (f : CFields) (s : State) : Host.Outcome State Fault Refusal :=
  onDev s (s.dev.issueAt a 7 (actBge f))

/-- BLTU (R113). -/
def execBltu (a : Site) (f : CFields) (s : State) : Host.Outcome State Fault Refusal :=
  onDev s (s.dev.issueAt a 7 (actBltu f))

/-- BGEU (R113). -/
def execBgeu (a : Site) (f : CFields) (s : State) : Host.Outcome State Fault Refusal :=
  onDev s (s.dev.issueAt a 7 (actBgeu f))

/-- WAITF (R113). -/
def execWaitf (a : Site) (f : CFields) (s : State) : Host.Outcome State Fault Refusal :=
  onDev s (s.dev.issueAt a 7 (actWaitf f))

/-- WAITA (R113). -/
def execWaita (a : Site) (f : CFields) (s : State) : Host.Outcome State Fault Refusal :=
  onDev s (s.dev.issueAt a 7 (actWaita f))

/-- TILE (R113). -/
def execTile (a : Site) (f : CFields) (s : State) : Host.Outcome State Fault Refusal :=
  onDev s (s.dev.issueAt a 7 (actTile f))

/-- END (R113). -/
def execEnd (a : Site) (f : CFields) (s : State) : Host.Outcome State Fault Refusal :=
  onDev s (s.dev.issueAt a 7 (actEnd f))

/-- TRAP (R113). -/
def execTrap (a : Site) (f : CFields) (s : State) : Host.Outcome State Fault Refusal :=
  onDev s (s.dev.issueAt a 7 (actTrap f))

/-- BARRIER (R113). -/
def execBarrier (a : Site) (f : CFields) (s : State) : Host.Outcome State Fault Refusal :=
  onDev s (s.dev.issueAt a 7 (actBarrier f))

end Sys2Proof.Machine
end

