-- ==== Sys2Proof/Machine/RegSpace.lean ====
section
/-! DEFINITION. The register space as its readers and writers see it (R13-R18, R36, R37), the host's windows (R43,
R425-R428) and the PCI Express function's own events (R426, R430-R432). -/

namespace Sys2Proof.Machine

/-! ## The MSI-X table and PBA (R425, R432) -/

def msixBase : Nat := 0x3810000
def pbaBase : Nat := 0x3811000

/-- The value of a word of the table: the control word of an entry not written is 1, masked (PRESUMED, log 5). -/
def Dev.msixWord (d : Dev) (w : Nat) : W32 := spGet (if w % 4 = 3 then 1#32 else 0#32) d.pci.msixTab w

/-- A write of a word of the table: address bits [1:0] stay 0, of the control word only bit 0 is stored (PRESUMED, log
5); a vector unmasked by it sends what is pending. -/
def Dev.msixWrite (d : Dev) (w : Nat) (v : W32) : Dev :=
  let x := if w % 4 = 3 then v &&& 1#32 else if w % 4 = 0 then v &&& 0xFFFFFFFC#32 else v
  ({ d with pci := { d.pci with
      msixTab := spSet (if w % 4 = 3 then 1#32 else 0#32) d.pci.msixTab w x } } : Dev).msixSend

/-! ## Reading a register -/

/-- The STATE code of CORE_STATE (R125). -/
def CoreMode.code : CoreMode → Nat
  | .idle => 0
  | .running => 1
  | .aborting => 2
  | .standby => 3
  | .selfTest => 4
  | .fusedOff => 5
  | .rerun => 6

/-- The PWR code of CORE_ARR_STATE (R152). -/
def ArrPwr.code : ArrPwr → Nat
  | .gated => 0
  | .up => 1
  | .on => 2
  | .down => 3

/-- CORE_STATE (R125). PC is 0 when idle; while the task is aborted, or END waits for its transfers, no bundle is about to issue,
and PC stays where the core stopped (DESIGN CHOICE, log 111). -/
def Dev.coreStateVal (d : Dev) (p : Nat) : Nat :=
  let c := d.slot p
  (if c.busy then c.pc % 4096 * 2 ^ 20 else 0) + d.logicalOf p * 2 ^ 12 + c.mode.code

/-- TT_RING_STAT with its live fields (R268). -/
def Dev.ringStatVal (d : Dev) (n : Fin 16) : Nat :=
  let r := d.ring n
  d.fld .ttRingStat [n.val] 31 31 * 2 ^ 31 + b2n (d.cplFull n) * 2 ^ 30 + b2n r.cplPh * 2 ^ 29 + b2n r.cmdPh * 2 ^ 28 +
    r.cplIdx % 4096 * 2 ^ 16 + r.cmdIdx % 4096

/-- TT_TASK_STAT (R268). -/
def Dev.taskStatVal (d : Dev) : Nat :=
  let w := (d.tt.entries.filter (fun e => decide (e.2.phase = .waiting))).length + d.tt.fetched.length
  (1024 - d.entriesUsed) * 2 ^ 16 + w

/-- LOAD of R294: 0 where unit `u` did no work in the last complete 100 ms, and before there is one; else a share of time,
which the model does not measure: a free value from 0 to 100 (log 9). `under`: work is under way. -/
def Dev.loadVal (d : Dev) (u : Nat) (under : Bool) : Nat :=
  let k := d.now / loadSpan
  match keyed d.med.busy u with
  | some (f, t) => if f < k ∧ (k ≤ t + 1 ∨ under) then (Config.openByte d.free u).toNat % 101 else 0
  | none => 0

/-- The bits a read never shows: write-only and reserved fields read 0 (R13, R16). -/
def readMask (fs : List (Nat × Nat × Access)) : W32 :=
  fs.foldl (fun m f => if f.2.2 = .wo then m else m ||| fieldMask f.1 f.2.1) 0#32

/-- The value a register shows: its stored fields, or the state it reports. -/
def Dev.regVal (d : Dev) (r : Reg) (i : List Nat) : W32 :=
  let p := i.getD 0 0
  let stored := d.rg r i &&& readMask r.fields
  match r with
  | .coreState => BitVec.ofNat 32 (d.coreStateVal p)
  | .coreTask => BitVec.ofNat 32 ((d.slot p).jobId % 65536 * 2 ^ 16 + (d.slot p).entry % 1024)
  | .coreCyclesLo => BitVec.ofNat 32 (d.slot p).totCyc
  | .coreArrState =>
    let a := (d.slot p).arrA
    let b := (d.slot p).arrB
    BitVec.ofNat 32 (b.pwr.code * 2 ^ 12 + min b.step 8 * 2 ^ 8 + a.pwr.code * 2 ^ 4 + min a.step 8)
  | .coreWlkOutst =>
    let c := d.slot p
    BitVec.ofNat 32 (min c.wk2.length 8 * 2 ^ 8 + min c.wk1.length 8 * 2 ^ 4 + min c.wk0.length 8)
  | .ttTaskStat => BitVec.ofNat 32 d.taskStatVal
  | .ttBarDev => BitVec.ofNat 32 (setBits stored.toNat 5 0 (d.bar.stage.getD (stored.toNat % 64)))
  | .ttRingStat => BitVec.ofNat 32 (d.ringStatVal (Fin.ofNat 16 p))
  | .capTbNowLo => BitVec.ofNat 32 d.tb
  | .ispPipeStat => BitVec.ofNat 32 (setBits stored.toNat 23 16 (d.loadVal p (d.pipeBusy (Fin.ofNat 2 p))))
  | .vidEngStat => BitVec.ofNat 32 (setBits stored.toNat 23 16 (d.loadVal (2 + p) (d.engineBusy p)))
  | .lnkMboxStat => BitVec.ofNat 32 (setBits stored.toNat 6 0 d.lnk.mbox.length)
  | .pwrSkip => BitVec.ofNat 32 (setBits stored.toNat 19 16 (max d.skipWide (d.fld .pwrSkip [] 15 12)))
  | _ => stored

/-- What reading a register does besides: the upper halves of the counts are latched (R128, R293). -/
def Dev.readEffect (d : Dev) (r : Reg) (i : List Nat) : Dev :=
  match r with
  | .coreCyclesLo => d.setRg .coreCyclesHi i (BitVec.ofNat 32 ((d.slot (i.getD 0 0)).totCyc / 2 ^ 32))
  | .capTbNowLo => d.setRg .capTbNowHi [] (BitVec.ofNat 32 (d.tb / 2 ^ 32))
  | .ispPipeStat | .vidEngStat => d.nextFree
  | _ => d

/-- Read the word at an offset of the register space: 0 where there is no register (R17). -/
def Dev.regRead (d : Dev) (off : Nat) : W32 × Dev :=
  match regAt off with
  | some (r, i) => (d.regVal r i, d.readEffect r i)
  | none =>
    if msixBase ≤ off ∧ off < msixBase + 1024 then (d.msixWord ((off - msixBase) / 4), d)
    else if off = pbaBase then (d.pci.pba.setWidth 32, d)
    else if off = pbaBase + 4 then ((d.pci.pba >>> 32).setWidth 32, d)
    else (0#32, d)

/-- The answer of a read is kept where a statement can see it. -/
def Dev.answer (d : Dev) (bs : List Byte) (ep : Bool) : Dev := { d with rd := { data := bs, ep := ep } }

/-! ## Writing a register -/

def fin4 (i : Nat) : Fin 4 := Fin.ofNat 4 i
def fin16 (i : Nat) : Fin 16 := Fin.ofNat 16 i

/-- A write of a CORE register (R151, R160, R207, R238). -/
def Dev.coreRegWrite (d : Dev) (r : Reg) (i : List Nat) (off : Nat) (v : W32) : Dev :=
  let p := i.getD 0 0
  let d := if r = .coreHaloCtl ∧ v.getLsbD 30 then d.haloClear p else d
  if heldReg r then d.coreWrite p off v else d.coreWriteNow off v

/-- A write of EASEL_ASM_CTL (R316). Within the command a clear comes before a set, so that a bit both clear and set ends
set (R15); a hardware event of the same cycle is a command of its own, and a sender that means R15 sends it after the
write (log 14). -/
def Dev.asmCtlWrite (d : Dev) (a : Fin 16) (v : W32) : Dev :=
  let d := if v.getLsbD 30 then d.setFld .easelAsmCtl [a.val] 30 30 0 else d
  let d := if v.getLsbD 29 then d.setRg .easelAsmStat [a.val] 0#32 else d
  if v.getLsbD 31 then d.asmEnable a else d.asmDisable a

/-- A write of PRIM_CTL (R317; R15 as in asmCtlWrite, log 14). -/
def Dev.primCtlWrite (d : Dev) (v : W32) : Dev :=
  let d := if v.getLsbD 30 then d.setFld .primCtl [] 30 30 0 else d
  if v.getLsbD 31 then d.primEnable else d.primDisable

/-- A write of MEM_GCTL (R339, R340). -/
def Dev.gctlWrite (d : Dev) (v : W32) : Dev :=
  let d := d.plainWrite .memGctl [] (v &&& 0x7FFFFFFF#32)
  if v.getLsbD 31 then d.stackEnable else d

/-- A write of MEM_RD_CTL: K outside 4-12 stays (R340). -/
def Dev.rdCtlWrite (d : Dev) (v : W32) : Dev :=
  let k := bits v.toNat 27 24
  let k := if 4 ≤ k ∧ k ≤ 12 then k else d.fld .memRdCtl [] 27 24
  d.plainWrite .memRdCtl [] (BitVec.ofNat 32 (setBits v.toNat 27 24 k))

/-- A write of a register with bits that clear counts: the rest by its fields, then the counts. -/
def Dev.clrWrite (d : Dev) (r : Reg) (i : List Nat) (v : W32) (hi lo : Nat) : Dev :=
  let d := d.plainWrite r i v
  if v.getLsbD 31 then d.setFld r i hi lo 0 else d

/-- A write of a register outside the CORE blocks. -/
def Dev.unitWrite (d : Dev) (r : Reg) (i : List Nat) (v : W32) : Dev :=
  let k := i.getD 0 0
  match r with
  | .ttRingPoll => d.ringPollWrite v
  | .ttBarDev => d.barDevWrite v
  | .ttCmdBaseLo | .ttCmdBaseHi | .ttCplBaseLo | .ttCplBaseHi => if ringOn d k then d else d.plainWrite r i v
  | .ttRingCfg => d.ringCfg (fin16 k) v
  | .capTbCtl => d.tbCtlWrite v
  | .capFsyncCfg => d.fsyncCfg (fin4 k) v
  | .capPortCfg => d.portCfg (fin4 k) v
  | .capPortErr => d.clrWrite r i v 23 0
  | .capVcCfg => d.vcCfg (fin16 k) v
  | .capVcStat => d.clrWrite r i v 23 0
  | .easelAsmCtl => d.asmCtlWrite (fin16 k) v
  | .easelGrpCfg => d.groupWrite (fin16 k) v
  | .primCtl => d.primCtlWrite v
  | .memChErr => if v.getLsbD 31 then (d.setRg .memChErr i 0#32).setRg .memChOdecc i 0#32 else d
  | .memChPpr => d.pprWrite (fin16 k) v
  | .memGctl => d.gctlWrite v
  | .memRdCtl => d.rdCtlWrite v
  | .memMap => if d.stackOn then d else d.plainWrite r i v
  | .memRtThr => (d.plainWrite r i v).rtPanic k
  | .lnkCtl => d.lnkCtlWrite (fin4 k) v
  | .lnkErr => if v.getLsbD 31 then d.linkErrClear k else d
  | .lnkFabCtl => d.fabCtl v
  | .lnkRoute => d.routeWrite k v
  | .pwrCap => d.capWrite v
  | .pwrLease => d.leaseWrite v
  | .pwrDvfs => d.dvfsWrite v
  | .telEjob => d.ejobWrite v
  | .pciErr => d.clrWrite r i v 23 0
  | .pciSvcCfg => d.svcCfg v
  | .pciSvcCmdLo | .pciSvcCmdHi | .pciSvcRspLo | .pciSvcRspHi => if svcOn d then d else d.plainWrite r i v
  | .secRecovery =>
    if v.getLsbD 31 then d.recoveryGo (bits v.toNat 23 0) else d.plainWrite r i v
  | _ => d.plainWrite r i v

/-- Write the word at an offset of the register space; ignored where there is no register (R17). -/
def Dev.regWrite (d : Dev) (off : Nat) (v : W32) : Dev :=
  match regAt off with
  | some (r, i) =>
    if 0x1000000 ≤ off ∧ off < 0x1800000 then d.coreRegWrite r i off v else d.unitWrite r i v
  | none =>
    if msixBase ≤ off ∧ off < msixBase + 1024 then d.msixWrite ((off - msixBase) / 4) v else d

/-! ## The host's windows -/

/-- Through BAR0 until the loader has placed the firmware: the PCI and SEC blocks and the MSI-X table (R445). -/
def Dev.bar0Open (d : Dev) (off : Nat) : Bool :=
  decide (2 ≤ d.stage) || decide (0x3800000 ≤ off ∧ off < 0x4000000) || decide (0x6000000 ≤ off ∧ off < 0x7000000)

/-- An error of the baseline mechanism (R424): its bit of Device Status, for an Unsupported Request bit 3 too; the message
goes where Device Control enables it, for an Unsupported Request by its own bit too (PRESUMED, log 104). -/
def Dev.pciError (d : Dev) (e : ErrMsg) (ur : Bool) : Dev :=
  let i := match e with
    | .cor => 0
    | .nonfatal => 1
    | .fatal => 2
  let st := d.pci.devStat ||| (1#4 <<< i) ||| (if ur then 8#4 else 0#4)
  let send := d.pci.devCtl.getLsbD i && (!ur || d.pci.devCtl.getLsbD 3)
  { d with pci := { d.pci with devStat := st, errMsgs := if send then d.pci.errMsgs ++ [e] else d.pci.errMsgs } }

/-- An Unsupported Request (R428, R430): counted. A posted one is a non-fatal error; a read has its completion say so, an
advisory error that without AER sends no message (PRESUMED, log 104). -/
def Dev.unsupported (d : Dev) (posted : Bool) : Dev :=
  let d := d.incSat .pciErr [] 7 0 1
  if posted then d.pciError .nonfatal true
  else { d with pci := { d.pci with devStat := d.pci.devStat ||| 9#4 } }

/-- Where a byte of BAR2 lies in the stack (R426). -/
def Dev.bar2Addr (d : Dev) (o : Nat) : Nat :=
  let s := 2 ^ d.pci.bar2Log
  if d.pci.bar2Log = 34 then o else d.fld .pciBar2Base [] 5 0 * 2 ^ 28 / s * s + o

/-- What a window byte is: a byte of the stack or Commons, of a slot's Satchel or instruction memory (its logical core
and offset), or nothing. -/
inductive WinByte where
  | mem (a : Nat)
  | sat (p off : Nat)
  | im (k off : Nat)
  | none
deriving DecidableEq, Repr

/-- BAR2 and BAR4 (R43, R427, R445, R447): BAR4 is mapped at stage 5; at stage 6 its Commons half is, and BAR2 is not. -/
def Dev.winByte (d : Dev) (bar o : Nat) : WinByte :=
  if bar = 2 then
    let a := d.bar2Addr o
    if d.reach a 1 ∧ a < stackEnd ∧ d.stage ≠ 6 then .mem a else .none
  else if o < 0x1000000 then
    if d.stage = 5 ∨ d.stage = 6 then .mem (commonsBase + o) else .none
  else if d.stage ≠ 5 then .none
  else
    let k := d.fld .pciBar4Core [] 2 0
    let x := o - 0x1000000
    if 6 ≤ k then .none
    else if x < satchelSize then .sat (d.slotOf k) x
    else if x < satchelSize + imemSize then .im k (x - satchelSize)
    else .none

/-- Read a window byte. -/
def Dev.winRd (d : Dev) : WinByte → Byte
  | .mem a => d.mem.rd a
  | .sat p o => d.mem.rd (satBase p + o)
  | .im k o => d.mem.rd (imBase (d.slotOf k) + o)
  | .none => 0#8

/-- A window byte that is poisoned. -/
def Dev.winPoisoned (d : Dev) : WinByte → Bool
  | .mem a => d.poisoned a
  | _ => false

/-- The size of a BAR. -/
def Dev.barSize (d : Dev) (bar : Nat) : Nat :=
  if bar = 0 then 0x10000000 else if bar = 2 then 2 ^ d.pci.bar2Log else 0x2000000

/-- A memory request the function takes: not in D3hot, inside a BAR, at most 8 bytes through BAR0 (R425, R428, R430). -/
def Dev.barTakes (d : Dev) (bar off len : Nat) : Bool :=
  !d.pci.d3hot && decide (off + len ≤ d.barSize bar) && (bar != 0 || decide (len ≤ 8))

/-- Read the words of the register space that bytes `off` up to `off + len` lie in, the lowest first (R18). -/
def readWords : Nat → Dev → Nat → List Byte × Dev
  | 0, d, _ => ([], d)
  | n + 1, d, w =>
    let x := if d.bar0Open w then d.regRead w else (0#32, d)
    let y := readWords n x.2 (w + 4)
    (leBytes 4 x.1.toNat ++ y.1, y.2)

/-- HOST_READ through BAR0. -/
def Dev.hostReadRegs (d : Dev) (off len : Nat) : Dev :=
  let lo := off / 4 * 4
  let x := readWords (ceilDiv (off + len - lo) 4) d lo
  x.2.answer ((x.1.drop (off - lo)).take len) false

/-- HOST_READ through BAR2 or BAR4: poisoned data completes with EP and free bytes (R428). -/
def Dev.hostReadMem (d : Dev) (bar off len : Nat) : Dev :=
  let ws := (upto len).map (fun k => d.winByte bar (off + k))
  if ws.any d.winPoisoned then
    let bs := (upto len).map (fun k => Config.openByte d.free k)
    ((d.answer bs true).incSat .pciErr [] 15 8 1).nextFree
  else d.answer (ws.map d.winRd) false

/-- The capabilities of R424 by place: the PCI Express, Power Management and MSI-X ones by their ID and the next place, the
extended ones, with their version 1, too (where they lie: DESIGN CHOICE, log 97; the IDs: PRESUMED, log 104). -/
def capHead (o : Nat) : Option (List Byte) :=
  let ext (id next : Nat) : List Byte := leBytes 4 (id + 0x10000 + next * 0x100000)
  match o with
  | 0x40 => some [0x10#8, 0x80#8]
  | 0x80 => some [0x01#8, 0x90#8]
  | 0x90 => some [0x11#8, 0x00#8]
  | 0x100 => some (ext 0x03 0x110)
  | 0x110 => some (ext 0x15 0x120)
  | 0x120 => some (ext 0x19 0x140)
  | 0x140 => some (ext 0x25 0x150)
  | 0x150 => some (ext 0x26 0x180)
  | 0x180 => some (ext 0x27 0x1B0)
  | 0x1B0 => some (ext 0x2A 0)
  | _ => none

/-- The byte of a capability's head at a place. -/
def capByte (o : Nat) : Option Byte :=
  (upto 4).findSome? (fun k => if k ≤ o then (capHead (o - k)).bind (fun l => l[k]?) else none)

/-- The registers of the capabilities that R424 limits: Device and Link Capabilities, Device Control and Status, Device
Capabilities 2 (10-bit tags), Link Status, Power Management (D0 and D3hot, No_Soft_Reset, no PME), MSI-X (64 vectors, table and
PBA in BAR0), Device Serial Number, Resizable BAR (BAR2, 256 MiB to 16 GiB). The places inside a capability are the base
specification's (PRESUMED, log 104). Answers the value and the bits of it that are stated. -/
def Dev.capReg (d : Dev) (o : Nat) : Option (Nat × Nat) :=
  let ser := leNat ((upto 8).map (fun k => d.fuses.serial.getD k 0#8))
  match o with
  | 0x44 => some (0x10008002, 0x10008007)
  | 0x48 => some (d.pci.devCtl.toNat + d.pci.devStat.toNat * 2 ^ 16, 0x000FFFFF)
  | 0x4C => some (0x00000885, 0x00000FFF)
  | 0x50 => if d.pci.linkWidth = 0 then none else
      some ((d.pci.linkWidth * 16 + (if d.pci.linkRate = 320 then 5 else if d.pci.linkRate = 160 then 4 else 3)) * 2 ^ 16, 0x03FF0000)
  | 0x64 => some (0x00030000, 0x00030000)
  | 0x80 => some (0x00030000, 0xFE070000)
  | 0x84 => some ((if d.pci.d3hot then 3 else 0) + 8, 0x0000010B)
  | 0x90 => some (63 * 2 ^ 16 + b2n d.pci.msixMask * 2 ^ 30 + b2n d.pci.msixEn * 2 ^ 31, 0xC7FF0000)
  | 0x94 => some (msixBase, 0xFFFFFFFF)
  | 0x98 => some (pbaBase, 0xFFFFFFFF)
  | 0x104 => some (ser % 2 ^ 32, 0xFFFFFFFF)
  | 0x108 => some (ser / 2 ^ 32, 0xFFFFFFFF)
  | 0x114 => some (0x0007F000, 0xFFFFFFFF)
  | 0x118 => some (2 + 0x20 + (d.pci.bar2Log - 20) * 256, 0x00003FE7)
  | _ => none

/-- A byte of the function's configuration space (R423-R425): the fields the spec states; a byte or a bit that it does not
state is free (log 97). -/
def Dev.cfgByte (d : Dev) (o : Nat) : Byte :=
  match o with
  | 0x00 => Config.pciVendor.setWidth 8
  | 0x01 => (Config.pciVendor >>> 8).setWidth 8
  | 0x02 => 0x36#8
  | 0x03 => 0x48#8
  | 0x04 => (Config.openByte d.free 4 &&& 0xFB#8) ||| (if d.pci.busMaster then 4#8 else 0#8)
  | 0x08 => d.fuses.stepping
  | 0x09 => 0x00#8
  | 0x0A => 0x00#8
  | 0x0B => 0x12#8
  | 0x0E => 0x00#8
  | 0x10 => 0x04#8
  | 0x18 => 0x0C#8
  | 0x20 => 0x04#8
  | 0x34 => 0x40#8
  | 0x3D => 0x00#8
  | _ =>
    match capByte o with
    | some b => b
    | none =>
      match d.capReg (o / 4 * 4) with
      | some (v, m) =>
        let k := 8 * (o % 4)
        (Config.openByte d.free o &&& ~~~(BitVec.ofNat 8 (m >>> k))) ||| (BitVec.ofNat 8 (v >>> k) &&& BitVec.ofNat 8 (m >>> k))
      | none => Config.openByte d.free o

/-- A read of configuration space, BAR number 15 of HOST_READ in this model (log 97). -/
def Dev.cfgRead (d : Dev) (off len : Nat) : Dev :=
  (d.answer ((upto len).map (fun k => d.cfgByte (off + k))) false).nextFree

/-- HOST_READ (R43, R423, R428). -/
def Dev.hostRead (d : Dev) (bar off len : Nat) : Dev :=
  if bar = 15 then d.cfgRead off len
  else if !d.barTakes bar off len then (d.answer [] false).unsupported false
  else if bar = 0 then d.hostReadRegs off len
  else d.hostReadMem bar off len

/-- Write the whole aligned words of a BAR0 request, the lowest first; a part of a word is discarded (R18). -/
def writeWords : Nat → Dev → Nat → Nat → List Byte → Dev
  | 0, d, _, _, _ => d
  | n + 1, d, w, off, bs =>
    let d :=
      if off ≤ w ∧ w + 4 ≤ off + bs.length ∧ d.bar0Open w then
        d.regWrite w (BitVec.ofNat 32 (leNat ((bs.drop (w - off)).take 4)))
      else d
    writeWords n d (w + 4) off bs

/-- Store the bytes of one word of a window. -/
def Dev.winWr (d : Dev) (bar o : Nat) (bs : List Byte) : Dev :=
  match d.winByte bar o with
  | .mem a => d.store a bs
  | .sat p x => d.satWr p x bs
  | .im k x => d.imWr k x bs
  | .none => d

/-- Write a window word by word, each with its enabled bytes (R37, R425). -/
def writeWin : Nat → Dev → Nat → Nat → List Byte → Dev
  | 0, d, _, _, _ => d
  | n + 1, d, bar, o, bs =>
    if bs.isEmpty then d
    else
      let k := 4 - o % 4
      writeWin n (d.winWr bar o (bs.take k)) bar (o + (bs.take k).length) (bs.drop k)

/-- POWER_STATE_CHANGE (R430): what waited for the host goes on once the function may master. -/
def Dev.powerState (d : Dev) (d3hot busMaster : Bool) : Dev :=
  let d : Dev := { d with pci := { d.pci with d3hot := d3hot, busMaster := busMaster } }
  d.msixSend.svcGo

/-- A write of Device Control (R424): a payload size above 512 bytes, or a read request size above 4,096, leaves its field
(DESIGN CHOICE, log 104); bit 15, which starts a function reset, is FUNCTION_RESET's and reads 0. -/
def devCtlOf (old new : Nat) : Nat :=
  let v := new % 32768
  let v := if 2 < bits v 7 5 then setBits v 7 5 (bits old 7 5) else v
  if 5 < bits v 14 12 then setBits v 14 12 (bits old 14 12) else v

/-- MSIX_UNMASK (R432): a vector's mask, MSI-X Enable and Function Mask; then what is pending is sent. -/
def Dev.msixUnmask (d : Dev) (vector : Option (Fin 64)) (enable functionMask : Bool) : Dev :=
  let tab := match vector with
    | some v => spSet 1#32 d.pci.msixTab (4 * v.val + 3) 0#32
    | none => d.pci.msixTab
  ({ d with pci := { d.pci with msixTab := tab, msixEn := enable, msixMask := functionMask } } : Dev).msixSend

/-- BAR2_RESIZE (R424, R426): 256 MiB to 16 GiB. -/
def Dev.bar2Resize (d : Dev) (n : Nat) : Dev :=
  if 28 ≤ n ∧ n ≤ 34 then { d with pci := { d.pci with bar2Log := n } } else d

/-- A byte written to configuration space: Command's Bus Master Enable, Device Control, Device Status (a written 1 clears), the
power state (a state other than D0 and D3hot stays: DESIGN CHOICE, log 104), MSI-X Enable and Function Mask, BAR2's size; the
other fields cannot be written (log 97). -/
def Dev.cfgPut (d : Dev) (o : Nat) (b : Byte) : Dev :=
  let ctl := d.pci.devCtl.toNat
  match o with
  | 0x04 => d.powerState d.pci.d3hot (b.getLsbD 2)
  | 0x48 => { d with pci := { d.pci with devCtl := BitVec.ofNat 16 (devCtlOf ctl (setBits ctl 7 0 b.toNat)) } }
  | 0x49 => { d with pci := { d.pci with devCtl := BitVec.ofNat 16 (devCtlOf ctl (setBits ctl 15 8 b.toNat)) } }
  | 0x4A => { d with pci := { d.pci with devStat := d.pci.devStat &&& ~~~(b.setWidth 4) } }
  | 0x84 => if b.toNat % 4 = 0 ∨ b.toNat % 4 = 3 then d.powerState (decide (b.toNat % 4 = 3)) d.pci.busMaster else d
  | 0x93 => d.msixUnmask none (b.getLsbD 7) (b.getLsbD 6)
  | 0x119 => d.bar2Resize (b.toNat % 64 + 20)
  | _ => d

/-- A write of configuration space, BAR number 15 of HOST_WRITE in this model (log 97). -/
def Dev.cfgWrite (d : Dev) (off : Nat) (bs : List Byte) : Dev :=
  (bs.zip (upto bs.length)).foldl (fun d e => d.cfgPut (off + e.2) e.1) d

/-- HOST_WRITE (R43, R424, R428): one with EP set is discarded, counted and reported as a Poisoned TLP Received error. -/
def Dev.hostWrite (d : Dev) (bar off : Nat) (bs : List Byte) (ep : Bool) : Dev :=
  if bar = 15 then d.cfgWrite off bs
  else if !d.barTakes bar off bs.length then d.unsupported true
  else if ep then (d.incSat .pciErr [] 23 16 1).pciError .nonfatal false
  else if bar = 0 then writeWords (bs.length / 4 + 2) d (off / 4 * 4) off bs
  else writeWin (bs.length / 4 + 2) d bar off bs

/-! ## The function -/

/-- The registers of the PCI block. -/
def pciRegs : List Reg :=
  [.pciBar2Base, .pciBar4Core, .pciErr, .pciSvcCmdLo, .pciSvcCmdHi, .pciSvcRspLo, .pciSvcRspHi, .pciSvcCfg]

/-- A host-located ring stops (R431): nothing is fetched, its finished entries are discarded (their counters still
move, R246), entries under way and records on their way into the table end without a record. -/
def Dev.ringStop (d : Dev) (n : Fin 16) : Dev :=
  let d := d.setFld .ttRingCfg [n.val] 31 31 0
  let mine := d.tt.entries.filter (fun e => e.2.ring == n.val)
  let gone := mine.filter (fun e => decide (e.2.phase = .finished))
  let d := gone.foldl (fun d e => (d.signal e.2).dropEntry e.1) d
  let d := d.setRing n { d.ring n with unsig := 0, timer := false }
  { d with tt := { d.tt with
      entries := d.tt.entries.map (fun e => if e.2.ring == n.val then (e.1, { e.2 with cpl := false }) else e)
      fetched := d.tt.fetched.map (fun e => if e.1 = n.val then (e.1, noCompletion e.2) else e) } }

/-- A decode stream is closed by a function reset: its pictures under way are dropped. -/
def Dev.streamCut (d : Dev) (s : Nat) (x : StreamSt) : Dev :=
  let fids := (x.cur.toList ++ x.pics).map (·.fid)
  let d := fids.foldl (fun d f => d.easelDrop s f) d
  { d with med := { d.med with streams := dropKeyed d.med.streams s } }

/-- FUNCTION_RESET (R431): a host-located ring that has been disabled with commands under way loses their records too. -/
def Dev.functionReset (d : Dev) : Dev :=
  let d := ((List.finRange 16).filter (fun n => !ringLoc d n.val)).foldl Dev.ringStop d
  let d := (d.med.streams.filter (fun e => decide (16 ≤ e.1) && !e.2.loc)).foldl (fun d e => d.streamCut e.1 e.2) d
  let d := pciRegs.foldl (fun d r => d.setRg r [] r.reset) d.countStreams
  { d with pci := { msgs := d.pci.msgs, linkWidth := d.pci.linkWidth, linkRate := d.pci.linkRate, errMsgs := d.pci.errMsgs }
           svc := {} }

/-! ## Meanings -/

/-- REGISTER_WRITE (R13). -/
def execRegisterWrite (off : Nat) (v : W32) (s : State) : Host.Outcome State Fault Refusal := onDev s (s.dev.regWrite off v)
/-- SYS_LOCK_SET (R40). -/
def execSysLockSet (s : State) : Host.Outcome State Fault Refusal := onDev s (s.dev.setFld .sysLock [] 0 0 1)
/-- CYCLES_LATCH_READ (R128). -/
def execCyclesLatchRead (p : Fin 7) (s : State) : Host.Outcome State Fault Refusal :=
  onDev s ((s.dev.readEffect .coreCyclesLo [p.val]).answer (leBytes 4 (s.dev.regVal .coreCyclesLo [p.val]).toNat) false)
/-- TIMEBASE_LATCH_READ (R293). -/
def execTimebaseLatchRead (s : State) : Host.Outcome State Fault Refusal :=
  onDev s ((s.dev.readEffect .capTbNowLo []).answer (leBytes 4 (s.dev.regVal .capTbNowLo []).toNat) false)
/-- HOST_READ (R43). -/
def execHostRead (bar off len : Nat) (s : State) : Host.Outcome State Fault Refusal := onDev s (s.dev.hostRead bar off len)
/-- HOST_WRITE (R43). -/
def execHostWrite (bar off : Nat) (bs : List Byte) (ep : Bool) (s : State) : Host.Outcome State Fault Refusal :=
  onDev s (s.dev.hostWrite bar off bs ep)
/-- SERVICE_RING_ENABLE (R459): a write of PCI_SVC_CFG with EN = 1. -/
def execServiceRingEnable (v : W32) (s : State) : Host.Outcome State Fault Refusal :=
  onDev s (s.dev.svcCfg (v ||| 0x80000000#32))
/-- PCI_ERR_CLEAR (R459). -/
def execPciErrClear (s : State) : Host.Outcome State Fault Refusal := onDev s (s.dev.setFld .pciErr [] 23 0 0)
/-- MSIX_UNMASK (R432). -/
def execMsixUnmask (vector : Option (Fin 64)) (enable functionMask : Bool) (s : State) : Host.Outcome State Fault Refusal :=
  onDev s (s.dev.msixUnmask vector enable functionMask)
/-- POWER_STATE_CHANGE (R430). -/
def execPowerStateChange (d3hot busMaster : Bool) (s : State) : Host.Outcome State Fault Refusal :=
  onDev s (s.dev.powerState d3hot busMaster)
/-- FUNCTION_RESET (R431). -/
def execFunctionReset (s : State) : Host.Outcome State Fault Refusal := onDev s s.dev.functionReset
/-- BAR2_RESIZE (R426). -/
def execBar2Resize (n : Nat) (s : State) : Host.Outcome State Fault Refusal := onDev s (s.dev.bar2Resize n)

end Sys2Proof.Machine
end

