-- ==== Sys2Proof/Machine/Dispatch.lean ====
section
/-! DEFINITION. One arm per command: the meaning it calls. -/

namespace Sys2Proof.Machine

def exec (i : Instr) (s : State) : Host.Outcome State Fault Refusal :=
  match i with
  | .registerWrite off val => Sys2Proof.Machine.execRegisterWrite off val s
  | .sysLockSet => Sys2Proof.Machine.execSysLockSet s
  | .cyclesLatchRead p => Sys2Proof.Machine.execCyclesLatchRead p s
  | .timebaseLatchRead => Sys2Proof.Machine.execTimebaseLatchRead s
  | .heldWriteApply p => Sys2Proof.Machine.execHeldWriteApply p s
  | .hostRead bar off len => Sys2Proof.Machine.execHostRead bar off len s
  | .hostWrite bar off data ep => Sys2Proof.Machine.execHostWrite bar off data ep s
  | .nop at_ pos => Sys2Proof.Machine.execNop at_ pos s
  | .add at_ second f => Sys2Proof.Machine.execAdd at_ second f s
  | .sub at_ second f => Sys2Proof.Machine.execSub at_ second f s
  | .and_ at_ second f => Sys2Proof.Machine.execAnd at_ second f s
  | .or_ at_ second f => Sys2Proof.Machine.execOr at_ second f s
  | .xor_ at_ second f => Sys2Proof.Machine.execXor at_ second f s
  | .sll at_ second f => Sys2Proof.Machine.execSll at_ second f s
  | .srl at_ second f => Sys2Proof.Machine.execSrl at_ second f s
  | .sra at_ second f => Sys2Proof.Machine.execSra at_ second f s
  | .slt at_ second f => Sys2Proof.Machine.execSlt at_ second f s
  | .sltu at_ second f => Sys2Proof.Machine.execSltu at_ second f s
  | .mul at_ second f => Sys2Proof.Machine.execMul at_ second f s
  | .mulh at_ second f => Sys2Proof.Machine.execMulh at_ second f s
  | .min_ at_ second f => Sys2Proof.Machine.execMin at_ second f s
  | .max_ at_ second f => Sys2Proof.Machine.execMax at_ second f s
  | .addi at_ second f => Sys2Proof.Machine.execAddi at_ second f s
  | .andi at_ second f => Sys2Proof.Machine.execAndi at_ second f s
  | .ori at_ second f => Sys2Proof.Machine.execOri at_ second f s
  | .xori at_ second f => Sys2Proof.Machine.execXori at_ second f s
  | .slli at_ second f => Sys2Proof.Machine.execSlli at_ second f s
  | .srli at_ second f => Sys2Proof.Machine.execSrli at_ second f s
  | .srai at_ second f => Sys2Proof.Machine.execSrai at_ second f s
  | .slti at_ second f => Sys2Proof.Machine.execSlti at_ second f s
  | .lui at_ second f => Sys2Proof.Machine.execLui at_ second f s
  | .div at_ second f => Sys2Proof.Machine.execDiv at_ second f s
  | .divu at_ second f => Sys2Proof.Machine.execDivu at_ second f s
  | .remu at_ second f => Sys2Proof.Machine.execRemu at_ second f s
  | .divideComplete p second => Sys2Proof.Machine.execDivideComplete p second s
  | .gets at_ second f => Sys2Proof.Machine.execGets at_ second f s
  | .sets at_ second f => Sys2Proof.Machine.execSets at_ second f s
  | .movv at_ second f => Sys2Proof.Machine.execMovv at_ second f s
  | .vadd at_ f => Sys2Proof.Machine.execVadd at_ f s
  | .vsub at_ f => Sys2Proof.Machine.execVsub at_ f s
  | .vmul at_ f => Sys2Proof.Machine.execVmul at_ f s
  | .vfma at_ f => Sys2Proof.Machine.execVfma at_ f s
  | .vmin at_ f => Sys2Proof.Machine.execVmin at_ f s
  | .vmax at_ f => Sys2Proof.Machine.execVmax at_ f s
  | .vand at_ f => Sys2Proof.Machine.execVand at_ f s
  | .vor at_ f => Sys2Proof.Machine.execVor at_ f s
  | .vxor at_ f => Sys2Proof.Machine.execVxor at_ f s
  | .vshl at_ f => Sys2Proof.Machine.execVshl at_ f s
  | .vshr at_ f => Sys2Proof.Machine.execVshr at_ f s
  | .vcmplt at_ f => Sys2Proof.Machine.execVcmplt at_ f s
  | .vcmpeq at_ f => Sys2Proof.Machine.execVcmpeq at_ f s
  | .vsel at_ f => Sys2Proof.Machine.execVsel at_ f s
  | .vbcast at_ f => Sys2Proof.Machine.execVbcast at_ f s
  | .vcvt at_ f => Sys2Proof.Machine.execVcvt at_ f s
  | .vred at_ f => Sys2Proof.Machine.execVred at_ f s
  | .vgather at_ f => Sys2Proof.Machine.execVgather at_ f s
  | .mgen at_ f => Sys2Proof.Machine.execMgen at_ f s
  | .mand at_ f => Sys2Proof.Machine.execMand at_ f s
  | .mor at_ f => Sys2Proof.Machine.execMor at_ f s
  | .mandn at_ f => Sys2Proof.Machine.execMandn at_ f s
  | .qrinit at_ f => Sys2Proof.Machine.execQrinit at_ f s
  | .qracc at_ f => Sys2Proof.Machine.execQracc at_ f s
  | .qrange at_ f => Sys2Proof.Machine.execQrange at_ f s
  | .vquant at_ f => Sys2Proof.Machine.execVquant at_ f s
  | .vdeq at_ f => Sys2Proof.Machine.execVdeq at_ f s
  | .vrdacc at_ f => Sys2Proof.Machine.execVrdacc at_ f s
  | .vrdtal at_ f => Sys2Proof.Machine.execVrdtal at_ f s
  | .finish at_ f => Sys2Proof.Machine.execFinish at_ f s
  | .ld at_ second f => Sys2Proof.Machine.execLd at_ second f s
  | .st at_ second f => Sys2Proof.Machine.execSt at_ second f s
  | .ldw at_ second f => Sys2Proof.Machine.execLdw at_ second f s
  | .mload at_ f => Sys2Proof.Machine.execMload at_ f s
  | .mloadComplete p arr => Sys2Proof.Machine.execMloadComplete p arr s
  | .mswap at_ f => Sys2Proof.Machine.execMswap at_ f s
  | .mrun at_ f => Sys2Proof.Machine.execMrun at_ f s
  | .mrunStreamStart p arr => Sys2Proof.Machine.execMrunStreamStart p arr s
  | .mrunComplete p arr => Sys2Proof.Machine.execMrunComplete p arr s
  | .mepi at_ f => Sys2Proof.Machine.execMepi at_ f s
  | .mepiStart p arr => Sys2Proof.Machine.execMepiStart p arr s
  | .mepiComplete p arr => Sys2Proof.Machine.execMepiComplete p arr s
  | .mclr at_ f => Sys2Proof.Machine.execMclr at_ f s
  | .chainPlaneArrive p => Sys2Proof.Machine.execChainPlaneArrive p s
  | .walk at_ f => Sys2Proof.Machine.execWalk at_ f s
  | .walkerTransferStart p w => Sys2Proof.Machine.execWalkerTransferStart p w s
  | .walkerTransferComplete p w => Sys2Proof.Machine.execWalkerTransferComplete p w s
  | .remoteTimeout p w => Sys2Proof.Machine.execRemoteTimeout p w s
  | .fset at_ f => Sys2Proof.Machine.execFset at_ f s
  | .fclr at_ f => Sys2Proof.Machine.execFclr at_ f s
  | .take at_ f => Sys2Proof.Machine.execTake at_ f s
  | .aadd at_ f => Sys2Proof.Machine.execAadd at_ f s
  | .ald at_ f => Sys2Proof.Machine.execAld at_ f s
  | .ast at_ f => Sys2Proof.Machine.execAst at_ f s
  | .acas at_ f => Sys2Proof.Machine.execAcas at_ f s
  | .atomicPerform p => Sys2Proof.Machine.execAtomicPerform p s
  | .atomicComplete p => Sys2Proof.Machine.execAtomicComplete p s
  | .awatch at_ f => Sys2Proof.Machine.execAwatch at_ f s
  | .awatchFire p n => Sys2Proof.Machine.execAwatchFire p n s
  | .fence at_ f => Sys2Proof.Machine.execFence at_ f s
  | .jmp at_ f => Sys2Proof.Machine.execJmp at_ f s
  | .jal at_ f => Sys2Proof.Machine.execJal at_ f s
  | .jr at_ f => Sys2Proof.Machine.execJr at_ f s
  | .beq at_ f => Sys2Proof.Machine.execBeq at_ f s
  | .bne at_ f => Sys2Proof.Machine.execBne at_ f s
  | .blt at_ f => Sys2Proof.Machine.execBlt at_ f s
  | .bge at_ f => Sys2Proof.Machine.execBge at_ f s
  | .bltu at_ f => Sys2Proof.Machine.execBltu at_ f s
  | .bgeu at_ f => Sys2Proof.Machine.execBgeu at_ f s
  | .waitf at_ f => Sys2Proof.Machine.execWaitf at_ f s
  | .waita at_ f => Sys2Proof.Machine.execWaita at_ f s
  | .tile at_ f => Sys2Proof.Machine.execTile at_ f s
  | .end_ at_ f => Sys2Proof.Machine.execEnd at_ f s
  | .trap at_ f => Sys2Proof.Machine.execTrap at_ f s
  | .barrier at_ f => Sys2Proof.Machine.execBarrier at_ f s
  | .barrierRelease level id p => Sys2Proof.Machine.execBarrierRelease level id p s
  | .dismissHoldExpire => Sys2Proof.Machine.execDismissHoldExpire s
  | .tileWatchdog p => Sys2Proof.Machine.execTileWatchdog p s
  | .tileRerunResume p => Sys2Proof.Machine.execTileRerunResume p s
  | .arrayIdleRampDown p arr => Sys2Proof.Machine.execArrayIdleRampDown p arr s
  | .arrayRampDownStep p arr => Sys2Proof.Machine.execArrayRampDownStep p arr s
  | .rampGrant => Sys2Proof.Machine.execRampGrant s
  | .arrayRampUpStep p arr => Sys2Proof.Machine.execArrayRampUpStep p arr s
  | .haloCounterClear p => Sys2Proof.Machine.execHaloCounterClear p s
  | .ringPoll host => Sys2Proof.Machine.execRingPoll host s
  | .task ring rec => Sys2Proof.Machine.execTask ring rec s
  | .load ring rec => Sys2Proof.Machine.execLoad ring rec s
  | .mark ring rec => Sys2Proof.Machine.execMark ring rec s
  | .taskDispatch => Sys2Proof.Machine.execTaskDispatch s
  | .loadStart => Sys2Proof.Machine.execLoadStart s
  | .loadComplete entry => Sys2Proof.Machine.execLoadComplete entry s
  | .markComplete => Sys2Proof.Machine.execMarkComplete s
  | .taskComplete p => Sys2Proof.Machine.execTaskComplete p s
  | .completionRecordWrite ring => Sys2Proof.Machine.execCompletionRecordWrite ring s
  | .irqModerationTimeout ring => Sys2Proof.Machine.execIrqModerationTimeout ring s
  | .ttEnable en => Sys2Proof.Machine.execTtEnable en s
  | .ringEnable ring val => Sys2Proof.Machine.execRingEnable ring val s
  | .ringDisable ring => Sys2Proof.Machine.execRingDisable ring s
  | .counterWrite c val => Sys2Proof.Machine.execCounterWrite c val s
  | .arbModeChange group => Sys2Proof.Machine.execArbModeChange group s
  | .barrierMaskApply => Sys2Proof.Machine.execBarrierMaskApply s
  | .staffCoreAmo hart op wide addr val => Sys2Proof.Machine.execStaffCoreAmo hart op wide addr val s
  | .staffCoreLr hart wide addr => Sys2Proof.Machine.execStaffCoreLr hart wide addr s
  | .staffCoreSc hart wide addr val => Sys2Proof.Machine.execStaffCoreSc hart wide addr val s
  | .arbiterRequest arb req cls beats => Sys2Proof.Machine.execArbiterRequest arb req cls beats s
  | .arbiterGrant arb => Sys2Proof.Machine.execArbiterGrant arb s
  | .csiFrameStart port vc frameNo hdr full => Sys2Proof.Machine.execCsiFrameStart port vc frameNo hdr full s
  | .csiLinePacket port vc dt hdr crcBad full data => Sys2Proof.Machine.execCsiLinePacket port vc dt hdr crcBad full data s
  | .csiFrameEnd port vc hdr full => Sys2Proof.Machine.execCsiFrameEnd port vc hdr full s
  | .portEnable port val => Sys2Proof.Machine.execPortEnable port val s
  | .streamEnable stream val => Sys2Proof.Machine.execStreamEnable stream val s
  | .portErrClear port => Sys2Proof.Machine.execPortErrClear port s
  | .vcStatClear stream => Sys2Proof.Machine.execVcStatClear stream s
  | .ppsEdge => Sys2Proof.Machine.execPpsEdge s
  | .ppsHoldover => Sys2Proof.Machine.execPpsHoldover s
  | .timebaseLoad => Sys2Proof.Machine.execTimebaseLoad s
  | .fsyncEdge n => Sys2Proof.Machine.execFsyncEdge n s
  | .triggerWindowEnd n => Sys2Proof.Machine.execTriggerWindowEnd n s
  | .ispLineGroup pipe => Sys2Proof.Machine.execIspLineGroup pipe s
  | .ispFrameComplete pipe => Sys2Proof.Machine.execIspFrameComplete pipe s
  | .bitstreamPoll host => Sys2Proof.Machine.execBitstreamPoll host s
  | .data stream entry hdr => Sys2Proof.Machine.execData stream entry hdr s
  | .eos stream entry => Sys2Proof.Machine.execEos stream entry s
  | .pictureDecodeStart stream used => Sys2Proof.Machine.execPictureDecodeStart stream used s
  | .pictureDecodeComplete stream ns conceal pix order shown refs => Sys2Proof.Machine.execPictureDecodeComplete stream ns conceal pix order shown refs s
  | .encodeInput enc => Sys2Proof.Machine.execEncodeInput enc s
  | .accessUnitComplete enc bytes => Sys2Proof.Machine.execAccessUnitComplete enc bytes s
  | .assemblerEnable a => Sys2Proof.Machine.execAssemblerEnable a s
  | .assemblerDisable a => Sys2Proof.Machine.execAssemblerDisable a s
  | .asmStatClear a => Sys2Proof.Machine.execAsmStatClear a s
  | .groupConfigWrite g val => Sys2Proof.Machine.execGroupConfigWrite g val s
  | .sampleConvert => Sys2Proof.Machine.execSampleConvert s
  | .sampleConvertComplete => Sys2Proof.Machine.execSampleConvertComplete s
  | .batchBudgetExpire a => Sys2Proof.Machine.execBatchBudgetExpire a s
  | .batchComplete a => Sys2Proof.Machine.execBatchComplete a s
  | .lateDecode stream => Sys2Proof.Machine.execLateDecode stream s
  | .groupSetClose g => Sys2Proof.Machine.execGroupSetClose g s
  | .primerEnable => Sys2Proof.Machine.execPrimerEnable s
  | .primerPoll => Sys2Proof.Machine.execPrimerPoll s
  | .tokenise rec => Sys2Proof.Machine.execTokenise rec s
  | .tokeniseComplete => Sys2Proof.Machine.execTokeniseComplete s
  | .stackReadAccept ch req cls addr => Sys2Proof.Machine.execStackReadAccept ch req cls addr s
  | .stackWriteAccept ch req cls addr mask data => Sys2Proof.Machine.execStackWriteAccept ch req cls addr mask data s
  | .dramCommandIssue ch pc drawHits => Sys2Proof.Machine.execDramCommandIssue ch pc drawHits s
  | .stackReadComplete ch badReads => Sys2Proof.Machine.execStackReadComplete ch badReads s
  | .writeParityError ch badWrites => Sys2Proof.Machine.execWriteParityError ch badWrites s
  | .refreshDue ch pc bank => Sys2Proof.Machine.execRefreshDue ch pc bank s
  | .trackerWindowReset => Sys2Proof.Machine.execTrackerWindowReset s
  | .channelRetrain ch => Sys2Proof.Machine.execChannelRetrain ch s
  | .channelRetrainComplete ch => Sys2Proof.Machine.execChannelRetrainComplete ch s
  | .softRepairRequest ch val => Sys2Proof.Machine.execSoftRepairRequest ch val s
  | .softRepair ch => Sys2Proof.Machine.execSoftRepair ch s
  | .stackEnable => Sys2Proof.Machine.execStackEnable s
  | .memErrClear ch => Sys2Proof.Machine.execMemErrClear ch s
  | .rollCallStart => Sys2Proof.Machine.execRollCallStart s
  | .token id => Sys2Proof.Machine.execToken id s
  | .full => Sys2Proof.Machine.execFull s
  | .close id count => Sys2Proof.Machine.execClose id count s
  | .chainFrameRepeat => Sys2Proof.Machine.execChainFrameRepeat s
  | .rollCallTimeout => Sys2Proof.Machine.execRollCallTimeout s
  | .chainNoclk => Sys2Proof.Machine.execChainNoclk s
  | .linkEnable k => Sys2Proof.Machine.execLinkEnable k s
  | .linkRetrain k => Sys2Proof.Machine.execLinkRetrain k s
  | .linkTrainingComplete k goodLanes peerId peerPort rtt => Sys2Proof.Machine.execLinkTrainingComplete k goodLanes peerId peerPort rtt s
  | .linkNoPeer k => Sys2Proof.Machine.execLinkNoPeer k s
  | .flitReceive k flit => Sys2Proof.Machine.execFlitReceive k flit s
  | .nak k lastGood => Sys2Proof.Machine.execNak k lastGood s
  | .linkAck k good credits => Sys2Proof.Machine.execLinkAck k good credits s
  | .laneErrorThreshold k lane => Sys2Proof.Machine.execLaneErrorThreshold k lane s
  | .laneLockLoss k lane => Sys2Proof.Machine.execLaneLockLoss k lane s
  | .linkErrClear k => Sys2Proof.Machine.execLinkErrClear k s
  | .fabricEnable val => Sys2Proof.Machine.execFabricEnable val s
  | .read k pkt => Sys2Proof.Machine.execRead k pkt s
  | .write k pkt => Sys2Proof.Machine.execWrite k pkt s
  | .atomic k pkt => Sys2Proof.Machine.execAtomic k pkt s
  | .barArrive k pkt => Sys2Proof.Machine.execBarArrive k pkt s
  | .mgmt k pkt => Sys2Proof.Machine.execMgmt k pkt s
  | .rdata k pkt => Sys2Proof.Machine.execRdata k pkt s
  | .wack k pkt => Sys2Proof.Machine.execWack k pkt s
  | .aresult k pkt => Sys2Proof.Machine.execAresult k pkt s
  | .barRelease k pkt => Sys2Proof.Machine.execBarRelease k pkt s
  | .error k pkt => Sys2Proof.Machine.execError k pkt s
  | .fabricDiscovery mapAgrees roster routes ctl fab => Sys2Proof.Machine.execFabricDiscovery mapAgrees roster routes ctl fab s
  | .dvfsStep req => Sys2Proof.Machine.execDvfsStep req s
  | .setpointSlewDone => Sys2Proof.Machine.execSetpointSlewDone s
  | .relockWindow => Sys2Proof.Machine.execRelockWindow s
  | .relockComplete => Sys2Proof.Machine.execRelockComplete s
  | .droopTrip p => Sys2Proof.Machine.execDroopTrip p s
  | .skipFrameBoundary p => Sys2Proof.Machine.execSkipFrameBoundary p s
  | .braceEntry => Sys2Proof.Machine.execBraceEntry s
  | .braceRecovery => Sys2Proof.Machine.execBraceRecovery s
  | .braceHoldEnd => Sys2Proof.Machine.execBraceHoldEnd s
  | .braceRampStep => Sys2Proof.Machine.execBraceRampStep s
  | .supplyReset => Sys2Proof.Machine.execSupplyReset s
  | .capTick now avg => Sys2Proof.Machine.execCapTick now avg s
  | .grantWrite val => Sys2Proof.Machine.execGrantWrite val s
  | .leaseDrop => Sys2Proof.Machine.execLeaseDrop s
  | .leaseExpire => Sys2Proof.Machine.execLeaseExpire s
  | .grant payload => Sys2Proof.Machine.execGrant payload s
  | .thermalSample milli => Sys2Proof.Machine.execThermalSample milli s
  | .thermalTick => Sys2Proof.Machine.execThermalTick s
  | .energyTick charges => Sys2Proof.Machine.execEnergyTick charges s
  | .energyTableEnable base => Sys2Proof.Machine.execEnergyTableEnable base s
  | .pmbusTelemetry millivolt milliamp => Sys2Proof.Machine.execPmbusTelemetry millivolt milliamp s
  | .pmAlert => Sys2Proof.Machine.execPmAlert s
  | .marginMeasure point slackPermille => Sys2Proof.Machine.execMarginMeasure point slackPermille s
  | .reportCardWrite => Sys2Proof.Machine.execReportCardWrite s
  | .errorDetect where_ permanent => Sys2Proof.Machine.execErrorDetect where_ permanent s
  | .takeoverRemap => Sys2Proof.Machine.execTakeoverRemap s
  | .takeoverReloadDone => Sys2Proof.Machine.execTakeoverReloadDone s
  | .pllLockLoss commons => Sys2Proof.Machine.execPllLockLoss commons s
  | .pllSwitchComplete commons => Sys2Proof.Machine.execPllSwitchComplete commons s
  | .rotationDue => Sys2Proof.Machine.execRotationDue s
  | .rotationStep => Sys2Proof.Machine.execRotationStep s
  | .rotationSkip => Sys2Proof.Machine.execRotationSkip s
  | .selfTestComplete p r => Sys2Proof.Machine.execSelfTestComplete p r s
  | .recessWindow corrections => Sys2Proof.Machine.execRecessWindow corrections s
  | .deviceTestComplete passed => Sys2Proof.Machine.execDeviceTestComplete passed s
  | .servicePoll host => Sys2Proof.Machine.execServicePoll host s
  | .streamOpen req => Sys2Proof.Machine.execStreamOpen req s
  | .streamClose req => Sys2Proof.Machine.execStreamClose req s
  | .encodeOpen req => Sys2Proof.Machine.execEncodeOpen req s
  | .encodeClose req => Sys2Proof.Machine.execEncodeClose req s
  | .faultConfig req => Sys2Proof.Machine.execFaultConfig req s
  | .test req => Sys2Proof.Machine.execTest req s
  | .marionette req => Sys2Proof.Machine.execMarionette req s
  | .lease req => Sys2Proof.Machine.execLease req s
  | .settingsWrite req => Sys2Proof.Machine.execSettingsWrite req s
  | .flashWrite req => Sys2Proof.Machine.execFlashWrite req s
  | .svnCommit req => Sys2Proof.Machine.execSvnCommit req s
  | .ownerProvision req => Sys2Proof.Machine.execOwnerProvision req s
  | .identity req => Sys2Proof.Machine.execIdentity req s
  | .attest req => Sys2Proof.Machine.execAttest req s
  | .debugChallenge req random => Sys2Proof.Machine.execDebugChallenge req random s
  | .debugChallengeExpire => Sys2Proof.Machine.execDebugChallengeExpire s
  | .debugUnlock req => Sys2Proof.Machine.execDebugUnlock req s
  | .reset req => Sys2Proof.Machine.execReset req s
  | .serviceRingEnable val => Sys2Proof.Machine.execServiceRingEnable val s
  | .pciErrClear => Sys2Proof.Machine.execPciErrClear s
  | .msixUnmask vector enable functionMask => Sys2Proof.Machine.execMsixUnmask vector enable functionMask s
  | .powerStateChange d3hot busMaster => Sys2Proof.Machine.execPowerStateChange d3hot busMaster s
  | .perst => Sys2Proof.Machine.execPerst s
  | .functionReset => Sys2Proof.Machine.execFunctionReset s
  | .resetNAssert => Sys2Proof.Machine.execResetNAssert s
  | .resetRelease release => Sys2Proof.Machine.execResetRelease release s
  | .loaderImageCheck => Sys2Proof.Machine.execLoaderImageCheck s
  | .firmwareRelease selfCheckOk => Sys2Proof.Machine.execFirmwareRelease selfCheckOk s
  | .stackTrainingComplete failed up => Sys2Proof.Machine.execStackTrainingComplete failed up s
  | .bootReady => Sys2Proof.Machine.execBootReady s
  | .recoveryGo len => Sys2Proof.Machine.execRecoveryGo len s
  | .ignoredChainFrame frame => Sys2Proof.Machine.execIgnoredChainFrame frame s
  | .tb10mLock => Sys2Proof.Machine.execTb10mLock s
  | .supplyRemoval => Sys2Proof.Machine.execSupplyRemoval s
  | .bar2Resize log2Size => Sys2Proof.Machine.execBar2Resize log2Size s
  | .forcedTestTimeout => Sys2Proof.Machine.execForcedTestTimeout s

end Sys2Proof.Machine
end

