-- ==== Sys2Proof/Machine/Tick.lean ====
section
/-! DEFINITION. What passes while no command waits: time (DESIGN CHOICE, log 23). -/

namespace Sys2Proof.Machine

/-- One period of the core PLL at slot `p`: nothing while it is stopped, a skipped position, the first period of a
stretched one, or a core cycle (R371, R373); an END that waits for transfers counts it as waiting (R129). -/
def Dev.period (d : Dev) (p : Fin 7) : Dev :=
  let c := d.core p
  if c.stopped then d
  else if skipped c.skip c.pos then d.passPos p
  else if c.stretch = 1 then d.modCore p (fun c => { c with stretch := 2 })
  else
    let d := d.coreCycle p
    if c.active && c.ended && !(c.wk0.isEmpty && c.wk1.isEmpty && c.wk2.isEmpty && c.quiet) then d.incSat .coreStallWait [p.val] 31 0 1 else d

/-- `n` periods. -/
def periods : Nat → Dev → Fin 7 → Dev
  | 0, d, _ => d
  | n + 1, d, p => periods n (d.period p) p

/-- Half-periods of the core PLL in 5 ns at an operating point: 800, 700, 600 or 400 MHz (R374). -/
def halfPeriods (point : Nat) : Nat := if point = 0 then 8 else if point = 1 then 7 else if point = 2 then 6 else 4

/-- The timebase counts ns; a slew moves it by 1 ns in 10 us, 100 ppm, until its correction is made, and in holdover at the rate it had (R277; the full
rate is a DESIGN CHOICE, log 46). -/
def Dev.tbTick (d : Dev) : Dev :=
  let f := d.med.tbFrac + 5
  let e := d.med.tbHold.getD d.med.tbSlew
  let left (k : Int) : Int := if d.med.tbHold.isSome then d.med.tbSlew else k
  if e = 0 then { d with tb := d.tb + 5 }
  else if f < 10000 then { d with tb := d.tb + 5, med := { d.med with tbFrac := f } }
  else if 0 < e then { d with tb := d.tb + 4, med := { d.med with tbFrac := 0, tbSlew := left (e - 1) } }
  else { d with tb := d.tb + 6, med := { d.med with tbFrac := 0, tbSlew := left (e + 1) } }

/-- One tick: 5 ns, a cycle of the 200 MHz power-manager clock; a write of the settings store ends (log 62). -/
def Dev.tick (d : Dev) : Dev :=
  if d.stop.isSome then d
  else
    let d := d.tbTick.flashDone
    let h := d.pwr.posHalf + halfPeriods (d.fld .pwrDvfs [] 27 26)
    let d : Dev := { d with now := d.now + 5, pwr := { d.pwr with posHalf := h % 2 } }
    ([0, 1, 2, 3, 4, 5, 6] : List (Fin 7)).foldl (fun d p => periods (h / 2) d p) d

end Sys2Proof.Machine
end

