-- ==== Sys2Proof/Safety.lean ====
section
/-! DEFINITION. The terms the claims are stated in: when a core issues a bundle, the state in which a bundle has taken
effect, what a command leaves alone, and the invariants of the block. -/

namespace Sys2Proof.Machine

/-! ## Bundles -/

/-- The bundle that follows: the target of a branch whose delay slot this bundle is, else the next one (R114). -/
def CoreSt.after (c : CoreSt) : Nat := c.delay.getD (c.pc + 1)

/-- The device runs, the core issues in this cycle, and the bundle that follows exists. -/
def Ready (s : State) (p : Fin 7) : Prop :=
  s.dev.stop = none ∧ (s.dev.core p).issues = true ∧ (s.dev.core p).after < 4096

/-- No write is pending to any of these scalar, vector and mask registers (R118). -/
def NoPending (s : State) (p : Fin 7) (sr : List Nat) (vr mr : List Nat := []) : Prop :=
  (∀ r ∈ sr, r ∉ (s.dev.core p).pendS) ∧ (∀ r ∈ vr, r ∉ (s.dev.core p).pendV) ∧ (∀ r ∈ mr, r ∉ (s.dev.core p).pendM)

/-- No write is pending to the registers a vector operation of two sources reads, to its mask, or to the vector registers
`vs` and the mask registers `ms` beside them. -/
def VClear (s : State) (p : Fin 7) (f : VFields) (vs ms : List Nat) : Prop :=
  NoPending s p (if f.sb then [f.vb.toNat] else []) (f.va.toNat :: (if f.sb then [] else [f.vb.toNat]) ++ vs) (f.mask.toNat :: ms)

/-- No bank that `n` Satchel bytes from `a` lie in is in use by an array or a walker (R106). -/
def BanksFree (s : State) (p : Fin 7) (a n : Nat) : Prop :=
  ∀ b ∈ banksOf a n, b ∉ s.dev.arrayBanks p ∧ s.dev.walkerTakes p b = false

/-- The bundle is not in a delay slot, and the device runs, the core issues, a bundle follows. -/
def ReadyHere (s : State) (p : Fin 7) : Prop := Ready s p ∧ (s.dev.core p).delay = none

/-- The state with another device; its arbiters and its queue as they are. -/
def State.put (s : State) (d : Dev) : State := { s with dev := d }

/-- A bundle has taken effect on the device: one core cycle has passed, its results are under way to the registers `rs` for
`lat` cycles (R118, R121), the effect is made, control moves on. -/
def Dev.done (d : Dev) (p : Fin 7) (eff : Dev → Dev) (rs : List RegRef := []) (lat : Nat := 1) : Dev :=
  (eff ((d.coreCycle p).modCore p (·.addPend rs lat))).modCore p
    (fun c => { c with pc := (d.core p).after, delay := none, bankRetry := false })

/-- The same for the whole state. -/
def State.done (s : State) (p : Fin 7) (eff : Dev → Dev) (rs : List RegRef := []) (lat : Nat := 1) : State :=
  { s with dev := s.dev.done p eff rs lat }

/-- A bundle whose effect is on its own core alone. -/
def State.doneCore (s : State) (p : Fin 7) (g : CoreSt → CoreSt) (rs : List RegRef := []) (lat : Nat := 1) : State :=
  s.done p (fun d => d.modCore p g) rs lat

/-- The results that reach a scalar register; s0 takes none (R94). -/
def toS (r : Nat) : List RegRef := if r = 0 then [] else [.s r]

/-- The results that reach a mask register; m0 takes none (R94). -/
def toM (r : Nat) : List RegRef := if r = 0 then [] else [.m r]

/-- A bundle that opens a delay slot: after it, control goes to `target` (R114). -/
def State.branchTo (s : State) (p : Fin 7) (g : CoreSt → CoreSt) (target : Nat) : State :=
  { s with dev := ((s.dev.coreCycle p).modCore p g).modCore p (fun c =>
      { c with pc := (s.dev.core p).after, delay := some target, bankRetry := false }) }

/-- The bundle was held for one core cycle: nothing but time and the stall counter moves (R116, R129). -/
def State.held (s : State) (p : Fin 7) (h : Hold) : State := { s with dev := (s.dev.coreCycle p).stall p h }

/-- The bundle raised an exception at slot `i` (R122, R123, R127). -/
def State.raised (s : State) (p : Fin 7) (i : Nat) (c : Cause) : State :=
  { s with dev := (s.dev.coreCycle p).except p (s.dev.core p).pc i c }

/-- Two arrays alike but for their idle counts and the start times of their streams and epilogues. -/
def ArrSt.timeless (a b : ArrSt) : Prop :=
  b = { a with idle := b.idle, runs := b.runs, epis := b.epis } ∧
  b.runs.map (fun j => { j with t0 := 0 }) = a.runs.map (fun j => { j with t0 := 0 }) ∧
  b.epis.map (fun j => { j with t0 := 0 }) = a.epis.map (fun j => { j with t0 := 0 })

/-- What one core cycle of a slot leaves alone: everything but its own cycle and power counters, the latencies that run and
the places of its streams. -/
def SameButTime (c c' : CoreSt) : Prop :=
  c' = { c with totCyc := c'.totCyc, cyc := c'.cyc, tileCyc := c'.tileCyc, pos := c'.pos, skip := c'.skip
                skipOther := c'.skipOther, stretch := c'.stretch, pend := c'.pend, arrA := c'.arrA, arrB := c'.arrB } ∧
  c.arrA.timeless c'.arrA ∧ c.arrB.timeless c'.arrB

/-! ## Tables of operations: the command of a slot's operation and what it computes -/

/-- One where a condition holds, else zero. -/
def one64 (b : Bool) : W64 := if b then 1#64 else 0#64

/-- The register forms of the scalar slots (R97). -/
def scalarRegForms : List ((Site → Bool → SFields → Instr) × (W64 → W64 → W64)) :=
  [(.add, fun a b => a + b), (.sub, fun a b => a - b), (.and_, fun a b => a &&& b), (.or_, fun a b => a ||| b),
   (.xor_, fun a b => a ^^^ b), (.sll, fun a b => a <<< (b.toNat % 64)), (.srl, fun a b => a >>> (b.toNat % 64)),
   (.sra, fun a b => a.sshiftRight (b.toNat % 64)), (.slt, fun a b => one64 (decide (a.toInt < b.toInt))),
   (.sltu, fun a b => one64 (decide (a.toNat < b.toNat))),
   (.min_, fun a b => if a.toInt < b.toInt then a else b), (.max_, fun a b => if a.toInt < b.toInt then b else a)]

/-- The opcodes of the register forms, in the same order (R97). -/
def scalarRegOps : List (BitVec 8) := [0x01, 0x02, 0x03, 0x04, 0x05, 0x06, 0x07, 0x08, 0x09, 0x0A, 0x0D, 0x0E]

/-- The multiplications, whose results take 3 cycles (R97, R121). -/
def scalarMulForms : List ((Site → Bool → SFields → Instr) × (W64 → W64 → W64)) :=
  [(.mul, fun a b => BitVec.ofNat 64 (a.toNat * b.toNat)), (.mulh, fun a b => BitVec.ofInt 64 (a.toInt * b.toInt / 2 ^ 64))]

/-- The forms with a 38-bit immediate, sign-extended (R97). -/
def scalarImmForms : List ((Site → Bool → SFields → Instr) × (W64 → W64 → W64)) :=
  [(.addi, fun a b => a + b), (.andi, fun a b => a &&& b), (.ori, fun a b => a ||| b), (.xori, fun a b => a ^^^ b),
   (.slti, fun a b => one64 (decide (a.toInt < b.toInt)))]

/-- The shifts by an immediate (R97). -/
def scalarShiftForms : List ((Site → Bool → SFields → Instr) × (W64 → Nat → W64)) :=
  [(.slli, fun a n => a <<< n), (.srli, fun a n => a >>> n), (.srai, fun a n => a.sshiftRight n)]

/-- The divisions, with the results of division by zero (R97). -/
def scalarDivForms : List ((Site → Bool → SFields → Instr) × (W64 → W64 → W64)) :=
  [(.div, fun a b => if b = 0#64 then BitVec.allOnes 64 else BitVec.ofInt 64 (Int.tdiv a.toInt b.toInt)),
   (.divu, fun a b => if b = 0#64 then BitVec.allOnes 64 else BitVec.ofNat 64 (a.toNat / b.toNat)),
   (.remu, fun a b => if b = 0#64 then a else BitVec.ofNat 64 (a.toNat % b.toNat))]

/-- The special state GETS reads, by index (R95). -/
def specialState (s : State) (p : Fin 7) : List W64 :=
  let c := s.dev.core p
  [BitVec.ofNat 64 (s.dev.logicalOf p.val), BitVec.ofNat 64 c.entry, BitVec.ofNat 64 c.jobId, BitVec.ofNat 64 c.cyc,
   BitVec.ofNat 64 c.tiles, c.padv.zeroExtend 64, c.azp.zeroExtend 64, c.nflags.zeroExtend 64]

/-- VADD, VSUB, VMUL: on integers and on FP32 lanes (R101), and the latency on integers (R121). -/
def vectorArith : List ((Site → VFields → Instr) × (Int → Int → Int) × (W32 → W32 → W32) × Nat) :=
  [(.vadd, fun x y => x + y, f32Add, 2), (.vsub, fun x y => x - y, f32Sub, 2), (.vmul, fun x y => x * y, f32Mul, 3)]

/-- VMIN, VMAX (R101). -/
def vectorMinMax : List ((Site → VFields → Instr) × (Int → Int → Int) × (W32 → W32 → W32)) :=
  [(.vmin, fun x y => if x < y then x else y, f32Min), (.vmax, fun x y => if x < y then y else x, f32Max2)]

/-- The bitwise opcodes (R101). -/
def vectorBitwise : List ((Site → VFields → Instr) × (Nat → Nat → Nat)) :=
  [(.vand, fun x y => x &&& y), (.vor, fun x y => x ||| y), (.vxor, fun x y => x ^^^ y)]

/-- The compares (R101). -/
def vectorCompares : List ((Site → VFields → Instr) × (Int → Int → Bool) × (W32 → W32 → Bool)) :=
  [(.vcmplt, fun x y => decide (x < y), f32Lt), (.vcmpeq, fun x y => decide (x = y), f32Eq)]

/-- The logic on whole masks (R101). -/
def maskForms : List ((Site → VFields → Instr) × (W128 → W128 → W128)) :=
  [(.mand, fun a b => a &&& b), (.mor, fun a b => a ||| b), (.mandn, fun a b => a &&& ~~~b)]

/-- The data atomics: kind, whether SB names an argument, whether SD is written, whether SD is read (R110). -/
def atomicForms : List ((Site → XFields → Instr) × AtomKind × Bool × Bool × Bool) :=
  [(.take, .take, false, true, false), (.aadd, .aadd, true, true, false), (.ald, .ald, false, true, false),
   (.ast, .ast, true, false, false), (.acas, .acas, true, true, true)]

/-- The conditional branches (R113). -/
def branchForms : List ((Site → CFields → Instr) × (W64 → W64 → Bool)) :=
  [(.beq, fun a b => decide (a = b)), (.bne, fun a b => decide (a ≠ b)), (.blt, fun a b => decide (a.toInt < b.toInt)),
   (.bge, fun a b => decide (b.toInt ≤ a.toInt)), (.bltu, fun a b => decide (a.toNat < b.toNat)),
   (.bgeu, fun a b => decide (b.toNat ≤ a.toNat))]

/-- Every scalar operation, for the frame of the scalar slots. -/
def scalarForms : List (Site → Bool → SFields → Instr) :=
  scalarRegForms.map (·.1) ++ scalarMulForms.map (·.1) ++ scalarImmForms.map (·.1) ++ scalarShiftForms.map (·.1) ++ [.lui, .div, .divu, .remu, .gets, .sets, .movv]

/-- Every vector operation, for the frame of the vector slot. -/
def vectorForms : List (Site → VFields → Instr) :=
  vectorArith.map (·.1) ++ vectorMinMax.map (·.1) ++ vectorBitwise.map (·.1) ++ vectorCompares.map (·.1) ++ maskForms.map (·.1) ++
    [.vfma, .vshl, .vshr, .vsel, .vbcast, .vcvt, .vred, .vgather, .mgen, .qrinit, .qracc, .qrange, .vquant, .vdeq, .vrdacc,
     .vrdtal, .finish]

/-- What a bundle on slot `p` that stores nothing leaves alone outside its slot, whatever it does: the other slots, all of
memory, the arbiters and the queue, every part of the device but the registers, the slots, and the barrier arrivals and ramp
requests of a task that ends; of the registers, all but CORE_EXC, the two stall counters and the ramp wait counter of the slot, and
PWR_STRETCH, which counts a stretched pulse. -/
def FrameOutside (s t : State) (p : Fin 7) : Prop :=
  t.arbs = s.arbs ∧ t.pending = s.pending ∧ (∀ a, t.dev.mem.rd a = s.dev.mem.rd a) ∧
  (∀ q, q ≠ p → t.dev.core q = s.dev.core q) ∧
  t.dev = { s.dev with regs := t.dev.regs, cores := t.dev.cores, bar := t.dev.bar, rampReq := t.dev.rampReq } ∧
  (∀ a, a.slot ≠ p.val → (a ∈ t.dev.bar.arr ↔ a ∈ s.dev.bar.arr)) ∧
  (∀ r, r.2.1 ≠ p.val → (r ∈ t.dev.rampReq ↔ r ∈ s.dev.rampReq)) ∧
  (∀ r i, regOff r i ∉ [regOff .coreExc [p.val], regOff .coreStallIssue [p.val], regOff .coreStallWait [p.val],
    regOff .coreArrRampWait [p.val], regOff .pwrStretch []] → t.dev.rg r i = s.dev.rg r i)

/-- What it leaves alone in its slot: flags, tallies, accumulators and their tags, the planes, the checkpoint, the task's names. -/
def FrameInside (c c' : CoreSt) : Prop :=
  c'.flags = c.flags ∧ c'.tally = c.tally ∧ c'.ckpt = c.ckpt ∧ c'.entry = c.entry ∧ c'.jobId = c.jobId ∧ c'.tiles = c.tiles ∧
  c'.arrA.acc0 = c.arrA.acc0 ∧ c'.arrA.acc1 = c.arrA.acc1 ∧ c'.arrB.acc0 = c.arrB.acc0 ∧ c'.arrB.acc1 = c.arrB.acc1 ∧
  c'.arrA.active = c.arrA.active ∧ c'.arrB.active = c.arrB.active ∧ c'.wk0 = c.wk0 ∧ c'.wk1 = c.wk1

/-! ## Rounding -/

/-- `q` is n / d rounded to the nearest integer, ties away from zero (R69). -/
def tiesAway (n : Int) (d : Nat) (q : Int) : Prop :=
  2 * (q * d - n).natAbs ≤ d ∧ (2 * (q * d - n).natAbs = d → n.natAbs < (q * d).natAbs)

/-! ## Registers -/

/-- The registers outside the CORE blocks whose write does more than its fields' access types say. -/
def effectRegs : List Reg :=
  [.ttRingPoll, .ttBarDev, .ttCmdBaseLo, .ttCmdBaseHi, .ttCplBaseLo, .ttCplBaseHi, .ttRingCfg, .capTbCtl, .capFsyncCfg, .capPortCfg, .capPortErr,
   .capVcCfg, .capVcStat, .easelAsmCtl, .easelGrpCfg, .primCtl, .memChErr, .memChPpr, .memGctl, .memRdCtl, .memMap, .memRtThr] ++
  [.lnkCtl, .lnkErr, .lnkFabCtl, .lnkRoute, .pwrCap, .pwrLease, .pwrDvfs, .telEjob, .pciErr, .pciSvcCfg, .pciSvcCmdLo, .pciSvcCmdHi,
   .pciSvcRspLo, .pciSvcRspHi, .secRecovery]

/-- The registers that show state kept elsewhere. -/
def liveRegs : List Reg :=
  [.ttBarDev, .coreState, .coreTask, .coreCyclesLo, .coreArrState, .coreWlkOutst, .ttTaskStat, .ttRingStat, .capTbNowLo, .ispPipeStat,
   .vidEngStat, .lnkMboxStat, .pwrSkip]

/-! ## Service requests (R433-R435) -/

/-- The device once a request has been taken up. -/
def Dev.takenUp (d : Dev) (r : List Byte) : Dev := { d with svc := { d.svc with taken := dropFirst (fun x => x == r) d.svc.taken } }

/-- The state in which a request has been taken up, has had its effect, and is answered. -/
def State.answered (s : State) (op : Nat) (r : List Byte) (st : Byte) (res : List Byte) (eff : Dev → Dev) : State :=
  s.put ((eff (s.dev.takenUp r)).reply op (recNat r 4 4) st res)

/-- A request is laid out as R434 and R435 say: 64 bytes, its OP, PHASE 0 or 1, every byte outside its arguments 0. -/
def wellLaid (op : Nat) (args : List (Nat × Nat)) (r : List Byte) : Prop :=
  r.length = 64 ∧ recNat r 0 1 = op ∧ recNat r 1 1 < 2 ∧ r.getD 2 0#8 = 0#8 ∧ r.getD 3 0#8 = 0#8 ∧
  ∀ i, 8 ≤ i → i < 64 → (∀ a ∈ args, i < a.1 ∨ a.2 < i) → r.getD i 0#8 = 0#8

/-- The 32 bytes of a response (R434). -/
def respBytes (phase : Bool) (op tag : Nat) (st : Byte) (res : List Byte) : List Byte :=
  [st, BitVec.ofNat 8 (b2n phase), BitVec.ofNat 8 op, 0#8] ++ leBytes 4 tag ++ (res ++ List.replicate 24 0#8).take 24

/-! ## Invariants -/

/-- A bench holds at most 4 requests, at most 2 of one requester (R261). -/
def benchOk (b : List ArbReq) : Bool :=
  decide (b.length ≤ 4) && b.all (fun x => decide ((b.filter (fun y => y.req == x.req)).length ≤ 2))

/-- An arbiter is in bounds: its bench is, and every transfer has 1 to 16 beats, of which fewer than all have moved (the opening sentence of the section The arbiter,
R261). -/
def arbOk (a : Arb) : Bool :=
  benchOk a.bench && (a.holder.toList ++ a.bench ++ a.stall).all (fun x => decide (x.moved < x.beats) && decide (x.beats ≤ 16))

end Sys2Proof.Machine
end

