-- ==== Sys2Proof/Certificates/Slice0/Obligations.lean ====
section
/-! DEFINITION. The statements for the provers. -/

open Sys2Proof Sys2Proof.Machine

/-! ## The queue -/

/-- A step takes the command at the front of the queue and answers what it does to the rest. -/
def Obligations.StepTakesFront : Prop :=
  ∀ (c : Instr) (s : State),
    step { s with pending := c :: s.pending } = exec c { s with pending := s.pending } ∧ core.step = step

/-- Every command of the table completes, on every state, and leaves the queue of waiting commands as it is. The model's choices it
rests on: log 23, 71. -/
def Obligations.EveryCommandCompletes : Prop :=
  ∀ (c : Instr) (s : State), ∃ t, exec c s = .next t ∧ t.pending = s.pending

/-! ## The slots of a core -/

/-- R97: the register forms write op(sA, sB) to sD and nothing else but the passing of a core cycle (s0 stays 0: R94). R97: the
immediate forms, the shifts by an immediate, LUI, and a NOP. R97, R118, R121: the results of MUL and MULH are under way for 3 cycles.
R97, R118, R121: a division goes to its slot's divider; DIVIDE_COMPLETE writes its result to its destination. The model's choices it
rests on: log 23, 71. -/
def Obligations.ScalarResults : Prop :=
  (∀ e ∈ scalarRegForms, ∀ (s : State) (p : Fin 7) (second : Bool) (f : SFields),
     Ready s p → f.d.toNat < 32 → f.a.toNat < 32 → f.b.toNat < 32 → f.imm = 0#38 →
     NoPending s p [f.a.toNat, f.b.toNat, f.d.toNat] →
     exec (e.1 ⟨p, []⟩ second f) s =
       .next (s.doneCore p (·.setS f.d.toNat (e.2 ((s.dev.core p).s f.a.toNat) ((s.dev.core p).s f.b.toNat))))) ∧
  (∀ e ∈ scalarMulForms, ∀ (s : State) (p : Fin 7) (second : Bool) (f : SFields),
     Ready s p → f.d.toNat < 32 → f.a.toNat < 32 → f.b.toNat < 32 → f.imm = 0#38 →
     NoPending s p [f.a.toNat, f.b.toNat, f.d.toNat] →
     exec (e.1 ⟨p, []⟩ second f) s =
       .next (s.doneCore p (·.setS f.d.toNat (e.2 ((s.dev.core p).s f.a.toNat) ((s.dev.core p).s f.b.toNat))) (toS f.d.toNat) 3)) ∧
  (∀ (s : State) (p : Fin 7) (second : Bool) (f : SFields),
     Ready s p → f.d.toNat < 32 → f.b = 0#6 → NoPending s p [f.a.toNat, f.d.toNat] →
     (∀ e ∈ scalarImmForms, f.a.toNat < 32 →
       exec (e.1 ⟨p, []⟩ second f) s =
         .next (s.doneCore p (·.setS f.d.toNat (e.2 ((s.dev.core p).s f.a.toNat) (f.imm.signExtend 64))))) ∧
     (∀ e ∈ scalarShiftForms, f.a.toNat < 32 → f.imm.toNat < 64 →
       exec (e.1 ⟨p, []⟩ second f) s =
         .next (s.doneCore p (·.setS f.d.toNat (e.2 ((s.dev.core p).s f.a.toNat) f.imm.toNat)))) ∧
     (f.a = 0#6 → exec (.lui ⟨p, []⟩ second f) s =
       .next (s.doneCore p (·.setS f.d.toNat (BitVec.ofInt 64 (f.imm.toInt * 2 ^ 26))))) ∧
     (∀ pos : SlotPos, exec (.nop ⟨p, []⟩ pos) s = .next (s.doneCore p id))) ∧
  (∀ e ∈ scalarDivForms, ∀ (s : State) (p : Fin 7) (second : Bool) (f : SFields),
     (Ready s p → f.d.toNat < 32 → f.a.toNat < 32 → f.b.toNat < 32 → f.imm = 0#38 →
       NoPending s p [f.a.toNat, f.b.toNat, f.d.toNat] →
       (if second then (s.dev.core p).div1 else (s.dev.core p).div0) = none →
       let x : DivOp := ⟨f.d.toNat, e.2 ((s.dev.core p).s f.a.toNat) ((s.dev.core p).s f.b.toNat)⟩
       exec (e.1 ⟨p, []⟩ second f) s =
         .next (s.doneCore p (fun c => if second then { c with div1 := some x } else { c with div0 := some x }))) ∧
     (∀ x, s.dev.stop = none → (s.dev.core p).stopped = false → (s.dev.core p).frozen = false →
       (if second then (s.dev.core p).div1 else (s.dev.core p).div0) = some x →
       exec (.divideComplete p second) s = .next (s.put (s.dev.modCore p (fun c =>
         (if second then { c with div1 := none } else { c with div0 := none }).setS x.dest x.val)))))

/-- R95, R97: GETS reads the special state, SETS writes PADV and AZP, MOVV takes a lane of a vector register. The model's choices it
rests on: log 23. -/
def Obligations.ScalarSpecialState : Prop :=
  ∀ (s : State) (p : Fin 7) (second : Bool) (f : SFields), Ready s p → f.b = 0#6 →
    (∀ v, f.d.toNat < 32 → f.a = 0#6 → (specialState s p)[f.imm.toNat]? = some v → NoPending s p [f.d.toNat] →
      exec (.gets ⟨p, []⟩ second f) s = .next (s.doneCore p (·.setS f.d.toNat v))) ∧
    (f.a.toNat < 32 → f.d = 0#6 → NoPending s p [f.a.toNat] →
      (f.imm = 5#38 → ((s.dev.core p).s f.a.toNat).toNat < 2 ^ 32 → exec (.sets ⟨p, []⟩ second f) s =
        .next (s.doneCore p (fun c => { c with padv := ((s.dev.core p).s f.a.toNat).truncate 32 }))) ∧
      (f.imm = 6#38 → ((s.dev.core p).s f.a.toNat).toNat < 2 ^ 8 → exec (.sets ⟨p, []⟩ second f) s =
        .next (s.doneCore p (fun c => { c with azp := ((s.dev.core p).s f.a.toNat).truncate 8 })))) ∧
    (∀ i t : Nat, f.d.toNat < 32 → f.a.toNat < 32 → f.imm.toNat = t * 256 + i → t < 8 → i < laneN t →
      NoPending s p [f.d.toNat] [f.a.toNat] →
      let x := lane (laneW t) ((s.dev.core p).v f.a.toNat) i
      exec (.movv ⟨p, []⟩ second f) s = .next (s.doneCore p (·.setS f.d.toNat
        (if t = 0 ∨ t = 6 then BitVec.ofInt 64 (sgn (laneW t) x) else BitVec.ofNat 64 x)) (toS f.d.toNat) 3))

/-- R100: a write of lanes changes the unmasked lanes of its destination, keeps the masked ones, and adds the flags that the unmasked
lanes raise; every other register of the core is as it was. R99-R101: the lane-wise arithmetic, minima, maxima and bitwise opcodes, on
integer and on FP32 lanes, the second source a vector register or the low bits of a scalar one; R118, R121: the result is under way for
the opcode's latency. The model's choices it rests on: log 17, 23. -/
def Obligations.VectorLanes : Prop :=
  (∀ (c : CoreSt) (vd w n : Nat) (m : W128) (g : Nat → Nat × NumFlags), w * n = 1024 →
     (∀ i, i < n → lane w ((c.putLanes vd w n m g).v vd) i =
       if m.getLsbD i then (g i).1 % 2 ^ w else lane w (c.v vd) i) ∧
     (∀ k, k ≠ vd → (c.putLanes vd w n m g).v k = c.v k) ∧
     c.putLanes vd w n m g = { c with vregs := (c.putLanes vd w n m g).vregs, nflags := c.nflags ||| laneFlags n m (fun i => (g i).2) } ∧
     ((∀ i, i < n → m.getLsbD i = true → (g i).2 = 0#8) → laneFlags n m (fun i => (g i).2) = 0#8)) ∧
  (∀ (s : State) (p : Fin 7) (f : VFields), Ready s p →
     f.vd.toNat < 32 → f.va.toNat < 32 → f.vb.toNat < 32 → f.vc = 0#6 →
     let c := s.dev.core p
     let t := f.type.toNat
     let w := laneW t
     let x : Nat → Nat := fun i => lane w (c.v f.va.toNat) i
     let y : Nat → Nat := fun i => if f.sb then (c.s f.vb.toNat).toNat % 2 ^ w else lane w (c.v f.vb.toNat) i
     let next (i : Instr) (lat : Nat) (g : Nat → Nat × NumFlags) : Prop :=
       exec i s = .next (s.doneCore p (·.putLanes f.vd.toNat w (laneN t) (c.m f.mask.toNat) g) [.v f.vd.toNat] lat)
     (VClear s p f [f.vd.toNat] [] →
     (∀ e ∈ vectorArith, t ∈ [0, 1, 6] → f.imm = 0#24 →
       next (e.1 ⟨p, []⟩ f) e.2.2.2 (fun i => (unsgn w (e.2.1 (tyVal t (x i)) (tyVal t (y i))), 0#8))) ∧
     (∀ e ∈ vectorArith, t ∈ [0, 1, 6] → f.imm = 1#24 →
       next (e.1 ⟨p, []⟩ f) e.2.2.2 (fun i => (unsgn w (tySat t (e.2.1 (tyVal t (x i)) (tyVal t (y i)))), 0#8))) ∧
     (∀ e ∈ vectorArith, t = 7 → f.imm = 0#24 →
       next (e.1 ⟨p, []⟩ f) 4 (fun i => f32Res (e.2.2.1 (BitVec.ofNat 32 (x i)) (BitVec.ofNat 32 (y i))))) ∧
     (∀ e ∈ vectorMinMax, t ∈ [0, 1, 6] → f.imm = 0#24 →
       next (e.1 ⟨p, []⟩ f) 2 (fun i => (unsgn w (e.2.1 (tyVal t (x i)) (tyVal t (y i))), 0#8))) ∧
     (∀ e ∈ vectorMinMax, t = 7 → f.imm = 0#24 →
       next (e.1 ⟨p, []⟩ f) 4 (fun i => f32Res (e.2.2 (BitVec.ofNat 32 (x i)) (BitVec.ofNat 32 (y i))))) ∧
     (∀ e ∈ vectorBitwise, f.imm = 0#24 → next (e.1 ⟨p, []⟩ f) 2 (fun i => (e.2 (x i) (y i), 0#8))) ∧
     (f.imm = 0#24 → next (.vgather ⟨p, []⟩ f) 4 (fun i => (x (y i % laneN t), 0#8))) ∧
     (f.imm = 0#24 → exec (.vsel ⟨p, []⟩ f) s = .next (s.doneCore p (·.setV f.vd.toNat
       (ofLanes w (laneN t) (fun i => if (c.m f.mask.toNat).getLsbD i then x i else y i))) [.v f.vd.toNat] 2))) ∧
     (f.va = 0#6 → f.sb = true → f.imm = 0#24 → NoPending s p [f.vb.toNat] [f.vd.toNat] [f.mask.toNat] →
       next (.vbcast ⟨p, []⟩ f) 2 (fun i => (y i, 0#8))))

/-- R101, R102: VFMA with one rounding, the shifts, VRED's tree of FP32 sums and its integer reductions, VCVT. R94, R101: the opcodes
that write whole masks; a write to m0 is discarded. The model's choices it rests on: log 17, 23. -/
def Obligations.VectorUnaryAndMasks : Prop :=
  (∀ (s : State) (p : Fin 7) (f : VFields), Ready s p → f.vd.toNat < 32 → f.va.toNat < 32 →
     let c := s.dev.core p
     let t := f.type.toNat
     let w := laneW t
     let n := laneN t
     let x : Nat → Nat := fun i => lane w (c.v f.va.toNat) i
     let next (i : Instr) (lat w n : Nat) (g : Nat → Nat × NumFlags) : Prop :=
       exec i s = .next (s.doneCore p (·.putLanes f.vd.toNat w n (c.m f.mask.toNat) g) [.v f.vd.toNat] lat)
     (f.vb.toNat < 32 → f.vc.toNat < 32 → t = 7 → f.imm = 0#24 → VClear s p f [f.vc.toNat, f.vd.toNat] [] →
       next (.vfma ⟨p, []⟩ f) 4 32 32 (fun i => f32Res (f32Fma (BitVec.ofNat 32 (x i))
         (BitVec.ofNat 32 (if f.sb then (c.s f.vb.toNat).toNat % 2 ^ 32 else lane 32 (c.v f.vb.toNat) i))
         (BitVec.ofNat 32 (lane 32 (c.v f.vc.toNat) i))))) ∧
     (f.vb = 0#6 → f.sb = false → f.vc = 0#6 → NoPending s p [] [f.va.toNat, f.vd.toNat] [f.mask.toNat] →
       (t ∈ [0, 1, 6] → f.imm.toNat < 32 →
         next (.vshl ⟨p, []⟩ f) 2 w n (fun i => ((x i * 2 ^ f.imm.toNat) % 2 ^ w, 0#8)) ∧
         next (.vshr ⟨p, []⟩ f) 2 w n (fun i => (unsgn w (tyVal t (x i) / 2 ^ f.imm.toNat), 0#8))) ∧
       (t ∈ [0, 1, 6] → f.imm = 0#24 →
         next (.vred ⟨p, []⟩ f) 7 w n (fun i =>
           if i = 0 then (unsgn w (((upto n).map (fun j => tyVal t (x j))).sum), 0#8) else (0, 0#8))) ∧
       (t ∈ [0, 1, 6] → f.imm = 1#24 → ∃ r, (∀ j, j < n → tyVal t (x j) ≤ r) ∧ (∃ j, j < n ∧ r = tyVal t (x j)) ∧
         next (.vred ⟨p, []⟩ f) 7 w n (fun i => if i = 0 then (unsgn w r, 0#8) else (0, 0#8))) ∧
       (t ∈ [0, 1, 6] → f.imm = 2#24 → ∃ r, (∀ j, j < n → r ≤ tyVal t (x j)) ∧ (∃ j, j < n ∧ r = tyVal t (x j)) ∧
         next (.vred ⟨p, []⟩ f) 7 w n (fun i => if i = 0 then (unsgn w r, 0#8) else (0, 0#8))) ∧
       (∀ e ∈ [(0#24, f32Add), (1#24, f32Max2), (2#24, f32Min)], t = 7 → f.imm = e.1 →
         next (.vred ⟨p, []⟩ f) 7 32 32 (fun i =>
           if i = 0 then f32Res (treeF32 e.2 5 ((upto 32).map (fun j => BitVec.ofNat 32 (x j)))) else (0, 0#8))) ∧
       (∀ td q, td < 8 → f.imm.toNat = 8 * q + td →
         (q = 0 → laneN td = n → next (.vcvt ⟨p, []⟩ f) 3 (laneW td) (laneN td) (fun i => tyEnc td (tyDec t (x i)))) ∧
         (laneN td < n → q < n / laneN td →
           next (.vcvt ⟨p, []⟩ f) 3 (laneW td) (laneN td) (fun i => tyEnc td (tyDec t (x (laneN td * q + i))))) ∧
         (n < laneN td → q < laneN td / n →
           next (.vcvt ⟨p, []⟩ f) 3 (laneW td) (laneN td) (fun i =>
             if n * q ≤ i ∧ i < n * q + n then tyEnc td (tyDec t (x (i - n * q)))
             else (lane (laneW td) (c.v f.vd.toNat) i, 0#8)))))) ∧
  (∀ (s : State) (p : Fin 7) (f : VFields), Ready s p → f.vd.toNat < 16 → f.vc = 0#6 → f.imm = 0#24 →
     let c := s.dev.core p
     let t := f.type.toNat
     let w := laneW t
     let x : Nat → Nat := fun i => lane w (c.v f.va.toNat) i
     let y : Nat → Nat := fun i => if f.sb then (c.s f.vb.toNat).toNat % 2 ^ w else lane w (c.v f.vb.toNat) i
     let bitsOf (b : Nat → Bool) : W128 := BitVec.ofNat 128 (packLanes 1 ((upto (laneN t)).map (fun i => b2n (b i))))
     let next (i : Instr) (lat : Nat) (m : W128) : Prop :=
       exec i s = .next (s.doneCore p (·.setM f.vd.toNat m) (toM f.vd.toNat) lat)
     (∀ e ∈ vectorCompares, f.va.toNat < 32 → f.vb.toNat < 32 → t ∈ [0, 1, 6] → VClear s p f [] [f.vd.toNat] →
       next (e.1 ⟨p, []⟩ f) 2 (bitsOf (fun i => (c.m f.mask.toNat).getLsbD i && e.2.1 (tyVal t (x i)) (tyVal t (y i))))) ∧
     (∀ e ∈ vectorCompares, f.va.toNat < 32 → f.vb.toNat < 32 → t = 7 → VClear s p f [] [f.vd.toNat] →
       next (e.1 ⟨p, []⟩ f) 4 (bitsOf (fun i =>
         (c.m f.mask.toNat).getLsbD i && e.2.2 (BitVec.ofNat 32 (x i)) (BitVec.ofNat 32 (y i))))) ∧
     (f.mask = 0#4 → t = 0 →
       (∀ e ∈ maskForms, f.va.toNat < 16 → f.vb.toNat < 16 → f.sb = false →
         NoPending s p [] [] [f.va.toNat, f.vb.toNat, f.vd.toNat] → next (e.1 ⟨p, []⟩ f) 2 (e.2 (c.m f.va.toNat) (c.m f.vb.toNat))) ∧
       (f.va = 0#6 → f.vb.toNat < 32 → f.sb = true → NoPending s p [f.vb.toNat] [] [f.vd.toNat] →
         ∃ m : W128, next (.mgen ⟨p, []⟩ f) 2 m ∧
           ∀ i, i < 128 → m.getLsbD i = decide ((i : Int) < (c.s f.vb.toNat).toInt))))

/-- R75, R76, R101, R103, R104: range finding and quantisation: QRACC leaves out a lane that is NaN or infinite and flags it; a
quantised value is the half-away rounding of x times 255 / range plus the zero point, clamped to 0 to 255 with NSAT; a dequantised one
is (u - zero point) times range / 255; QRANGE widens the range to hold 0 and is degenerate where the bounds meet, are out of order or
are no numbers. R101, R118, R177: VRDACC, VRDTAL and FINISH, when no matrix operation that writes their plane or tally is outstanding:
the mean, the variance (0 where it comes out below), the reciprocal root with its epsilon, the reciprocal sum and the maximum. The
model's choices it rests on: log 15, 17, 23, 85, 86, 102. -/
def Obligations.QuantisationAndReadout : Prop :=
  (∀ (s : State) (p : Fin 7) (f : VFields), Ready s p → f.sb = false → f.vc = 0#6 → f.type = 7#3 →
     let c := s.dev.core p
     let m := c.m f.mask.toNat
     let fp (r i : Nat) : W32 := BitVec.ofNat 32 (lane 32 (c.v r) i)
     let vd := f.vd.toNat
     let pair (g h : Nat → Nat × NumFlags) : CoreSt → CoreSt := fun k => (k.putLanes vd 32 32 m g).putLanes (vd + 1) 32 32 m h
     (vd < 32 → vd % 2 = 0 → f.vb = 0#6 →
       (f.va = 0#6 → f.imm = 0#24 → NoPending s p [] [vd, vd + 1] [f.mask.toNat] → exec (.qrinit ⟨p, []⟩ f) s =
         .next (s.doneCore p (pair (fun _ => (0x7F800000, 0#8)) (fun _ => (0xFF800000, 0#8))) [.v vd, .v (vd + 1)] 2)) ∧
       (f.va.toNat < 32 → f.imm = 0#24 → NoPending s p [] [f.va.toNat, vd, vd + 1] [f.mask.toNat] →
         ∃ g h, exec (.qracc ⟨p, []⟩ f) s = .next (s.doneCore p (pair g h) [.v vd, .v (vd + 1)] 2) ∧ ∀ i, i < 32 →
           let x := fp f.va.toNat i
           (f32IsNan x = false → f32IsInf x = false →
             g i = f32Res (f32Min (fp vd i) x) ∧ h i = f32Res (f32Max2 (fp (vd + 1) i) x)) ∧
           (f32IsNan x = true → g i = ((fp vd i).toNat, nfNan) ∧ h i = ((fp (vd + 1) i).toNat, nfNan)) ∧
           (f32IsInf x = true → g i = ((fp vd i).toNat, nfFovf) ∧ h i = ((fp (vd + 1) i).toNat, nfFovf))) ∧
       (∀ md, md < 16 → f.imm.toNat = md → f.va.toNat < 32 → f.va.toNat % 2 = 0 →
         NoPending s p [] [f.va.toNat, f.va.toNat + 1, vd, vd + 1] [f.mask.toNat, md] →
         let q (i : Nat) := qrange (fp f.va.toNat i) (fp (f.va.toNat + 1) i)
         exec (.qrange ⟨p, []⟩ f) s = .next (s.doneCore p (fun k =>
           (pair (fun i => ((q i).1.toNat, (q i).2.2.2)) (fun i => (unsgn 32 (q i).2.1, 0#8)) k).setM md
             (BitVec.ofNat 128 (packLanes 1 ((upto 32).map (fun i =>
               b2n (if m.getLsbD i then (q i).2.2.1 else (c.m md).getLsbD i)))))) ([.v vd, .v (vd + 1)] ++ toM md) 6))) ∧
     (∀ q, q < 4 → f.imm.toNat = 8 * q → vd < 32 → f.va.toNat < 32 → f.vb.toNat < 32 → f.vb.toNat % 2 = 0 →
       NoPending s p [] [f.va.toNat, f.vb.toNat, f.vb.toNat + 1, vd] [f.mask.toNat] →
       exec (.vquant ⟨p, []⟩ f) s = .next (s.doneCore p (·.putLanes vd 8 128 m (fun i =>
         if i / 32 = q then
           let r := quantise (fp f.va.toNat (i % 32)) (fp f.vb.toNat (i % 32))
             (sgn 32 (lane 32 (c.v (f.vb.toNat + 1)) (i % 32)))
           (r.1.toNat, r.2)
         else (lane 8 (c.v vd) i, 0#8))) [.v vd] 3) ∧
       exec (.vdeq ⟨p, []⟩ f) s = .next (s.doneCore p (·.putLanes vd 32 32 m (fun j =>
         f32Res (dequantise (lane 8 (c.v f.va.toNat) (32 * q + j)) (fp f.vb.toNat j)
           (sgn 32 (lane 32 (c.v (f.vb.toNat + 1)) j))))) [.v vd] 3))) ∧
  (∀ (s : State) (p : Fin 7) (f : VFields), Ready s p → f.vd.toNat < 32 → f.vc = 0#6 → f.type = 7#3 →
     let c := s.dev.core p
     let next (i : Instr) (lat : Nat) (g : Nat → Nat × NumFlags) : Prop :=
       exec i s = .next (s.doneCore p (·.putLanes f.vd.toNat 32 32 (c.m f.mask.toNat) g) [.v f.vd.toNat] lat)
     (f.vb = 0#6 → f.sb = false → NoPending s p [] [f.vd.toNat] [f.mask.toNat] →
       (∀ row q, row < 128 → q < 4 → f.imm.toNat = 128 * q + row → f.va.toNat < 4 → planeReady c f.va.toNat = true →
         (planeTag c f.va.toNat ≠ .grouped →
           next (.vrdacc ⟨p, []⟩ f) 4 (fun j => ((accEl (planeRow c f.va.toNat row) (32 * q + j)).toNat, 0#8))) ∧
         (planeTag c f.va.toNat = .grouped → next (.vrdacc ⟨p, []⟩ f) 4 (fun j =>
           let pair (k : Nat) : W32 := accEl (planeRow c (f.va.toNat / 2 * 2 + k) row) (32 * q + j)
           ((longF32 (pair 1) (pair 0)).toNat, 0#8)))) ∧
       (∀ comp q, comp < 3 → q < 4 → f.imm.toNat = 4 * q + comp → f.va.toNat < 8 → tallyBusy s.dev p f.va.toNat = false →
         next (.vrdtal ⟨p, []⟩ f) 4 (fun j => ((c.tal f.va.toNat comp (32 * q + j)).toNat, 0#8)))) ∧
     (∀ fn q eps n, fn < 5 → q < 4 → eps < 65536 → f.imm.toNat = 256 * eps + 8 * q + fn → f.va.toNat < 8 →
       f.vb.toNat < 32 → f.sb = true → (c.s f.vb.toNat).toNat = n → 1 ≤ n → n ≤ 2 ^ 24 →
       tallyBusy s.dev p f.va.toNat = false → NoPending s p [f.vb.toNat] [f.vd.toNat] [f.mask.toNat] →
       next (.finish ⟨p, []⟩ f) 12 (fun j => f32Res
         (let t := f.va.toNat
          let r := 32 * q + j
          let mean := f32Div (c.tal t 0 r) (f32OfInt n 0)
          let v := f32Sub (f32Div (c.tal t 1 r) (f32OfInt n 0)) (f32Mul mean mean)
          let var := if f32Lt v 0#32 then 0#32 else v
          if fn = 0 then mean else if fn = 1 then var
          else if fn = 2 then f32Rsqrt (f32Add var (f32Of (fpDec fp16 eps)))
          else if fn = 3 then f32Div 0x3F800000#32 (c.tal t 0 r) else c.tal t 2 r)))) ∧
  f32Rsqrt 0#32 = f32Inf ∧
  (∀ x : W32, let e : Nat := x.toNat / 2 ^ 23 % 256
     e < 255 → f32Dec x = .fin (x.getLsbD 31) (x.toNat % 2 ^ 23 + (if e = 0 then 0 else 2 ^ 23)) (if e = 0 then -149 else (e : Int) - 150)) ∧
  (∀ (x r : W32) (zp : Int),
     (∀ s m e, f32Dec x = .fin s m e →
       (∃ q : Int, (quantise x r zp).1 = max 0 (min 255 (q + zp)) ∧
         (quantise x r zp).2 = if q + zp < 0 ∨ 255 < q + zp then nfNsat else 0#8) ∧
       (∀ t n g, f32Dec r = .fin t n g → n ≠ 0 →
         ∃ q : Int, tiesAway ((if s = t then 1 else -1) * (m * 255 * 2 ^ (e - g).toNat : Nat)) (n * 2 ^ (g - e).toNat) q ∧
           (quantise x r zp).1 = max 0 (min 255 (q + zp)) ∧
           (quantise x r zp).2 = if q + zp < 0 ∨ 255 < q + zp then nfNsat else 0#8)) ∧
     (f32IsNan x = true → 0 ≤ zp → zp ≤ 255 → quantise x r zp = (zp, nfNan)) ∧
     quantise f32Inf r zp = (255, nfNsat) ∧ quantise f32NegInf r zp = (0, nfNsat) ∧
     (∀ (u : Nat) s m e, f32Dec r = .fin s m e →
       dequantise u r zp = f32OfRat (s ^^ decide ((u : Int) < zp)) (((u : Int) - zp).natAbs * m) 255 e)) ∧
  (∀ lo hi : W32,
     (f32IsNan lo = false → f32IsNan hi = false → f32Lt hi lo = true → qrange lo hi = (0x437F0000#32, 0, true, nfDegen)) ∧
     ((f32IsNan lo = true ∨ f32IsNan hi = true) ∨ (f32IsInf lo = true ∨ f32IsInf hi = true) ∧ f32Lt hi lo = false →
       qrange lo hi = (0x437F0000#32, 0, true, (if f32IsNan lo = true ∨ f32IsNan hi = true then nfNan else 0#8) |||
         (if f32IsInf lo = true ∨ f32IsInf hi = true then nfFovf else 0#8) ||| nfDegen)) ∧
     (∀ a b : Bool × Nat × Int, f32Dec lo = .fin a.1 a.2.1 a.2.2 → f32Dec hi = .fin b.1 b.2.1 b.2.2 → f32Lt hi lo = false →
       let lo2 := if f32Lt lo 0#32 then lo else 0#32
       let hi2 := if f32Lt 0#32 hi then hi else 0#32
       let degen : NumFlags := if f32Eq lo hi then nfDegen else 0#8
       (f32Eq hi2 lo2 = true → qrange lo hi = (0x437F0000#32, 0, true, nfDegen)) ∧
       (f32Eq hi2 lo2 = false → ∃ (r : W32) (zp : Int) (fl : NumFlags), qrange lo hi = (r, zp, f32Eq lo hi, fl ||| degen) ∧
         (f32IsInf (f32Sub hi2 lo2) = false → r = f32Sub hi2 lo2 ∧ fl = 0#8) ∧
         (f32IsInf (f32Sub hi2 lo2) = true → r = f32Max ∧ fl = nfFovf) ∧
         (∀ s m e t n g, f32Dec lo2 = .fin s m e → f32Dec r = .fin t n g → n ≠ 0 →
           ∃ q : Int, tiesAway ((if s then 1 else -1) * (m * 255 * 2 ^ (e - g).toNat : Nat)) (n * 2 ^ (g - e).toNat) q ∧
             zp = max 0 (min 255 q)))))

/-- R105: LD and LDW read the core's own Satchel into the unmasked elements of a vector register; ST writes its unmasked bytes, and
every other byte of memory, whatever the address, reads as before; no bank of R106 is in use. The model's choices it rests on: log 23,
78. -/
def Obligations.SatchelLoadsAndStores : Prop :=
  ∀ (s : State) (p : Fin 7) (second : Bool) (f : LFields), Ready s p →
    f.vd.toNat < 32 → f.sa.toNat < 32 → f.r1 = 0#6 → f.r2 = 0#8 → f.gran.toNat < 3 →
    NoPending s p [f.sa.toNat] [f.vd.toNat] [f.mask.toNat] →
    let c := s.dev.core p
    let a := (c.s f.sa.toNat + f.off.signExtend 64).toNat
    let sel (i : Nat) : Bool := (c.m f.mask.toNat).getLsbD (i / 2 ^ f.gran.toNat)
    a < 0x800000 →
    (a % 128 = 0 → BanksFree s p a 128 → exec (.ld ⟨p, []⟩ second f) s = .next (s.doneCore p (fun k =>
      k.setV f.vd.toNat (mergeBytes (k.v f.vd.toNat) (s.dev.satRd p.val a 128) sel)) [.v f.vd.toNat] 4)) ∧
    (a % 4 = 0 → BanksFree s p a 4 → exec (.ldw ⟨p, []⟩ second f) s = .next (s.doneCore p (fun k => k.setV f.vd.toNat
      (mergeBytes (k.v f.vd.toNat) (List.replicate 32 (s.dev.satRd p.val a 4)).flatten sel)) [.v f.vd.toNat] 4)) ∧
    (a % 128 = 0 → BanksFree s p a 128 → ∃ m : Memory,
      exec (.st ⟨p, []⟩ second f) s = .next (s.done p (fun d => { d with mem := m })) ∧
      (∀ i, i < 128 → sel i = true → m.rd (satBase p.val + a + i) = (c.v f.vd.toNat).extractLsb' (8 * i) 8) ∧
      (∀ x, (¬ ∃ i, i < 128 ∧ sel i = true ∧ x = satBase p.val + a + i) → m.rd x = s.dev.mem.rd x))

/-- R106, R118, R121, R129: a bundle that reads or writes a scalar register with a write pending, or divides in a busy divider, is held:
a cycle passes, CORE_STALL_ISSUE counts it, and nothing else happens; so is a load or store on a Satchel bank that an array is using
(R106). R92, R93, R122, R123, R127: an operand field out of range, or an unused field that is not zero, ends the task with
CORE_EXCEPTION and records ILLEGAL_OPERAND, the slot and the bundle in CORE_EXC; no register of the core takes a result. The model's
choices it rests on: log 16, 23, 78, 79. -/
def Obligations.BundlesHeldOrRefused : Prop :=
  (∀ e ∈ scalarRegForms ++ scalarMulForms, ∀ (s : State) (p : Fin 7) (second : Bool) (f : SFields),
     Ready s p → (∃ r ∈ [f.a.toNat, f.b.toNat, f.d.toNat], r ∈ (s.dev.core p).pendS) →
     exec (e.1 ⟨p, []⟩ second f) s = .next (s.held p .issue)) ∧
  (∀ e ∈ scalarDivForms, ∀ (s : State) (p : Fin 7) (second : Bool) (f : SFields),
     Ready s p → f.d.toNat < 32 → f.a.toNat < 32 → f.b.toNat < 32 → f.imm = 0#38 →
     (if second then (s.dev.core p).div1 else (s.dev.core p).div0) ≠ none →
     exec (e.1 ⟨p, []⟩ second f) s = .next (s.held p .issue)) ∧
  (∀ (s : State) (p : Fin 7) (second : Bool) (f : LFields), Ready s p → lCheck (s.dev.core p) f 128 = none →
     (∃ b ∈ banksOf (lAddr (s.dev.core p) f) 128, b ∈ s.dev.arrayBanks p ∨ s.dev.walkerTakes p b = true) →
     exec (.ld ⟨p, []⟩ second f) s = .next (s.held p .issue) ∧ exec (.st ⟨p, []⟩ second f) s = .next (s.held p .issue)) ∧
  (∀ e ∈ scalarRegForms ++ scalarMulForms, ∀ (s : State) (p : Fin 7) (second : Bool) (f : SFields),
     Ready s p → NoPending s p [f.a.toNat, f.b.toNat, f.d.toNat] →
     (32 ≤ f.d.toNat ∨ 32 ≤ f.a.toNat ∨ 32 ≤ f.b.toNat ∨ f.imm ≠ 0#38) →
     ∃ t, exec (e.1 ⟨p, []⟩ second f) s = .next t ∧ t = s.raised p (if second then 1 else 0) .illegalOperand ∧
       (t.dev.core p).mode = .aborting ∧ (t.dev.core p).ended = true ∧ (t.dev.core p).sregs = (s.dev.core p).sregs ∧
       (t.dev.core p).vregs = (s.dev.core p).vregs ∧ (t.dev.core p).pc = (s.dev.core p).pc ∧
       t.dev.rg .coreExc [p.val] = BitVec.ofNat 32 ((s.dev.core p).pc * 2 ^ 20 + (if second then 1 else 0) * 2 ^ 8 + 2) ∧
       t.dev.mem = s.dev.mem)

/-- The frame of the scalar and the vector slot, whatever a bundle of one operation comes to (its effect, a stall, an exception), in
every state: outside its slot nothing but the registers FrameOutside names; in its slot the registers of the other kinds, and every
register of its own kind but its destinations. The model's choices it rests on: log 23. -/
def Obligations.SlotFrames : Prop :=
  ∀ (s t : State) (p : Fin 7),
    let c := s.dev.core p
    let c' := t.dev.core p
    (∀ e ∈ scalarForms, ∀ (second : Bool) (f : SFields), exec (e ⟨p, []⟩ second f) s = .next t →
      FrameOutside s t p ∧ FrameInside c c' ∧ c'.vregs = c.vregs ∧ c'.mregs = c.mregs ∧ c'.nflags = c.nflags ∧
        ∀ k, k ≠ f.d.toNat → c'.s k = c.s k) ∧
    (∀ e ∈ vectorForms, ∀ (f : VFields), exec (e ⟨p, []⟩ f) s = .next t →
      FrameOutside s t p ∧ FrameInside c c' ∧ c'.sregs = c.sregs ∧ c'.padv = c.padv ∧ c'.azp = c.azp ∧
        (∀ k, k ≠ f.vd.toNat → k ≠ f.vd.toNat + 1 → c'.v k = c.v k) ∧
        (∀ k, k ≠ f.vd.toNat → k ≠ f.imm.toNat → c'.m k = c.m k))

/-- R117: the slots of a bundle read their operands before any of them writes: with any two register forms in S0 and S1, each
destination takes the value computed from the registers as they were at issue; a VBCAST beside a register form broadcasts its scalar
register, and an ST beside one stores its vector register at the address, as they were at issue, even where the scalar slot writes that
register. R119: two register forms that write one register, s0 apart, raise BUNDLE_CONFLICT at slot S1. The model's choices it rests on:
log 23, 71, 79. -/
def Obligations.BundleReadsBeforeWrites : Prop :=
  ∀ e ∈ scalarRegForms, ∀ (s : State) (p : Fin 7) (second : Bool) (f : SFields) (w : BitVec 64), Ready s p →
    f.d.toNat < 32 → f.a.toNat < 32 → f.b.toNat < 32 → f.imm = 0#38 →
    let c := s.dev.core p
    let val : W64 := e.2 (c.s f.a.toNat) (c.s f.b.toNat)
    (∀ e' ∈ scalarRegForms.zip scalarRegOps, w.extractLsb' 56 8 = e'.2 → second = false →
      let g := sFields w
      g.d.toNat < 32 → g.a.toNat < 32 → g.b.toNat < 32 → g.imm = 0#38 →
      NoPending s p [f.a.toNat, f.b.toNat, f.d.toNat, g.a.toNat, g.b.toNat, g.d.toNat] →
      (f.d ≠ g.d ∨ f.d = 0#6 → exec (e.1 ⟨p, [⟨1, w⟩]⟩ false f) s = .next (s.doneCore p (fun k =>
        (k.setS f.d.toNat val).setS g.d.toNat (e'.1.2 (c.s g.a.toNat) (c.s g.b.toNat))))) ∧
      (f.d = g.d → f.d ≠ 0#6 → exec (e.1 ⟨p, [⟨1, w⟩]⟩ false f) s = .next (s.raised p 1 .bundleConflict))) ∧
    (w.extractLsb' 56 8 = 0x0F#8 →
      let g := vFields w
      g.vd.toNat < 32 → g.vb.toNat < 32 → g.va = 0#6 → g.sb = true → g.vc = 0#6 → g.imm = 0#24 →
      NoPending s p [f.a.toNat, f.b.toNat, f.d.toNat, g.vb.toNat] [g.vd.toNat] [g.mask.toNat] →
      let lw := laneW g.type.toNat
      exec (e.1 ⟨p, [⟨2, w⟩]⟩ second f) s = .next (s.doneCore p (fun k => (k.setS f.d.toNat val).putLanes g.vd.toNat lw
        (laneN g.type.toNat) (c.m g.mask.toNat) (fun _ => ((c.s g.vb.toNat).toNat % 2 ^ lw, 0#8))) [.v g.vd.toNat] 2)) ∧
    (w.extractLsb' 56 8 = 0x02#8 →
      let g := lFields w
      let a := (c.s g.sa.toNat + g.off.signExtend 64).toNat
      let sel (i : Nat) : Bool := (c.m g.mask.toNat).getLsbD (i / 2 ^ g.gran.toNat)
      g.vd.toNat < 32 → g.sa.toNat < 32 → g.r1 = 0#6 → g.r2 = 0#8 → g.gran.toNat < 3 → a < 0x800000 → a % 128 = 0 →
      BanksFree s p a 128 →
      NoPending s p [f.a.toNat, f.b.toNat, f.d.toNat, g.sa.toNat] [g.vd.toNat] [g.mask.toNat] → ∃ m : Memory,
      exec (e.1 ⟨p, [⟨3, w⟩]⟩ second f) s = .next (s.done p (fun d => { d.modCore p (·.setS f.d.toNat val) with mem := m })) ∧
      (∀ i, i < 128 → sel i = true → m.rd (satBase p.val + a + i) = (c.v g.vd.toNat).extractLsb' (8 * i) 8) ∧
      (∀ x, (¬ ∃ i, i < 128 ∧ sel i = true ∧ x = satBase p.val + a + i) → m.rd x = s.dev.mem.rd x))

/-! ## Arrays -/

/-- R107, R109, R132, R135: with legal operands and room in the queue, MLOAD, MSWAP, MRUN, MEPI and MCLR enter their array's queue in
order, what can start at its head starts, and MRUN and MCLR set the tags of their planes at issue. R109: a matrix operation for an array
whose queue holds four is held: a cycle passes, nothing else happens. The model's choices it rests on: log 23, 79, 81. -/
def Obligations.MatrixOperationsEnter : Prop :=
  (∀ (s : State) (p : Fin 7) (f : MFields), Ready s p →
     let c := s.dev.core p
     let flag : Option Nat := if f.f then some f.flag.toNat else none
     let plain : Prop := f.mode = 0#3 ∧ f.axis = false ∧ f.clr = false ∧ f.mask = 0#4
     let enter (i : Instr) (arr : Nat) (o : Nat → MOp) (tags : CoreSt → CoreSt) : Prop :=
       exec i s = .next (s.done p (fun d => (d.modCore p (fun k => tags (pushOp k arr (o k.mseq)))).drainM p arr))
     (plain → f.d.toNat < 2 → f.sa.toNat < 32 → f.fmt.toNat < 13 → isGrouped f.fmt.toNat = false → f.sb = 0#6 → f.stride = 0#12 → f.chain = 0#4 → f.ch = false →
       f.r = false → (c.arr f.d.toNat).queue.length < 4 → NoPending s p [f.sa.toNat] →
       (c.s f.sa.toNat).toNat + planeBytes f.fmt.toNat ≤ 0x800000 → (c.s f.sa.toNat).toNat % 128 = 0 →
       enter (.mload ⟨p, []⟩ f) f.d.toNat (fun n => .load ⟨(c.s f.sa.toNat).toNat, f.fmt.toNat, 0, 0, false, flag, n, none, 0⟩) id) ∧
     (plain → f.d.toNat < 2 → 8 ≤ f.fmt.toNat → f.fmt.toNat < 12 → f.sa.toNat < 32 → f.sb.toNat < 32 → f.stride = 0#12 → f.chain = 0#4 →
       f.ch = false → f.r = false → (c.arr f.d.toNat).queue.length < 4 → NoPending s p [f.sa.toNat, f.sb.toNat] →
       ∀ gs saddr, gs < 3 → saddr < 2 ^ 24 → (c.s f.sb.toNat).toNat = gs * 2 ^ 24 + saddr →
       (c.s f.sa.toNat).toNat + planeBytes f.fmt.toNat ≤ 0x800000 → (c.s f.sa.toNat).toNat % 128 = 0 →
       saddr + scaleBytes f.fmt.toNat gs ≤ 0x800000 → saddr % 128 = 0 →
       enter (.mload ⟨p, []⟩ f) f.d.toNat (fun n => .load ⟨(c.s f.sa.toNat).toNat, f.fmt.toNat, gs, saddr, false, flag, n, none, 0⟩) id) ∧
     (plain → f.d.toNat < 2 → f.fmt.toNat < 13 → isGrouped f.fmt.toNat = false → f.sb = 0#6 → f.stride = 0#12 → f.chain = 0#4 → f.ch = true →
       f.r = false → (c.arr f.d.toNat).queue.length < 4 → s.dev.flag .coreWchCtl [p.val] 7 = true →
       enter (.mload ⟨p, []⟩ f) f.d.toNat (fun n => .load ⟨(c.s f.sa.toNat).toNat, f.fmt.toNat, 0, 0, true, flag, n, none, 0⟩) id) ∧
     (plain → f.d.toNat < 2 → f.sa = 0#6 → f.sb = 0#6 → f.fmt = 0#4 → f.stride = 0#12 → f.chain = 0#4 → f.ch = false →
       f.r = false → (c.arr f.d.toNat).queue.length < 4 →
       enter (.mswap ⟨p, []⟩ f) f.d.toNat (fun n => .swap flag n) id) ∧
     (∀ n fst, mrunCause s.dev p f = none → (c.arr (f.d.toNat / 2)).queue.length < 4 →
       NoPending s p [f.sa.toNat, f.sb.toNat] [] [f.mask.toNat] → rowsArg (c.s f.sb.toNat) = some (n, fst) → isGrouped f.fmt.toNat = false →
       enter (.mrun ⟨p, []⟩ f) (f.d.toNat / 2)
         (fun q => .run
           { plane := f.d.toNat, addr := (c.s f.sa.toNat).toNat, count := n, first := fst, mode := f.mode.toNat,
             axis := f.axis, fmt := f.fmt.toNat, clr := f.clr, flag := flag, mask := c.m f.mask.toNat,
             stride := f.stride.toNat, chain := f.chain.toNat, azp := if f.fmt.toNat = 1 then c.azp.toNat else 0,
             pair := planeTag c f.d.toNat == .grouped, seq := q })
         (fun k => let k := setTag k f.d.toNat (fmtTag f.fmt.toNat)
           if planeTag c f.d.toNat = .grouped then setTag k (f.d.toNat / 2 * 2 + 1) .none else k)) ∧
     (∀ n fst, mrunCause s.dev p f = none → (c.arr (f.d.toNat / 2)).queue.length < 4 →
       NoPending s p [f.sa.toNat, f.sb.toNat] [] [f.mask.toNat] → rowsArg (c.s f.sb.toNat) = some (n, fst) → f.fmt.toNat ∈ [8, 9, 10, 11] →
       enter (.mrun ⟨p, []⟩ f) (f.d.toNat / 2)
         (fun q => .run
           { plane := f.d.toNat, addr := (c.s f.sa.toNat).toNat, count := n, first := fst, mode := f.mode.toNat,
             axis := f.axis, fmt := f.fmt.toNat, clr := f.clr, flag := flag, mask := c.m f.mask.toNat,
             stride := f.stride.toNat, chain := f.chain.toNat,
             azp := if f.fmt.toNat = 9 ∨ f.fmt.toNat = 11 then c.azp.toNat else 0,
             pair := true, seq := q })
         (fun k => setTag (setTag k f.d.toNat .grouped) (f.d.toNat / 2 * 2 + 1) .grouped)) ∧
     (∀ n fst, mepiCause s.dev p f = none → (c.arr (f.d.toNat / 2)).queue.length < 4 →
       NoPending s p [f.sa.toNat, f.sb.toNat] → rowsArg (c.s f.sb.toNat) = some (n, fst) →
       enter (.mepi ⟨p, []⟩ f) (f.d.toNat / 2)
         (fun q => .epi
           { plane := f.d.toNat, addr := (c.s f.sa.toNat).toNat, count := n, first := fst, flag := flag,
             stride := f.stride.toNat, chain := f.chain.toNat, tag := planeTag c f.d.toNat, seq := q }) id) ∧
     (plain → f.d.toNat < 4 → f.sa = 0#6 → f.sb = 0#6 → f.fmt = 0#4 → f.stride = 0#12 → f.chain = 0#4 → f.ch = false →
       f.r = false → (c.arr (f.d.toNat / 2)).queue.length < 4 →
       (planeTag c f.d.toNat = .grouped →
         enter (.mclr ⟨p, []⟩ f) (f.d.toNat / 2) (fun n => .clr f.d.toNat true flag n)
           (fun k => setTag (setTag k (f.d.toNat / 2 * 2) .none) (f.d.toNat / 2 * 2 + 1) .none)) ∧
       (planeTag c f.d.toNat ≠ .grouped →
       enter (.mclr ⟨p, []⟩ f) (f.d.toNat / 2) (fun n => .clr f.d.toNat false flag n) (fun k => setTag k f.d.toNat .none)))) ∧
  (∀ (s : State) (p : Fin 7) (f : MFields), Ready s p →
     let full (arr : Nat) : Prop := 4 ≤ ((s.dev.core p).arr arr).queue.length
     (full f.d.toNat → exec (.mload ⟨p, []⟩ f) s = .next (s.held p .issue) ∧
       exec (.mswap ⟨p, []⟩ f) s = .next (s.held p .issue)) ∧
     (full (f.d.toNat / 2) → exec (.mrun ⟨p, []⟩ f) s = .next (s.held p .issue) ∧
       exec (.mepi ⟨p, []⟩ f) s = .next (s.held p .issue) ∧ exec (.mclr ⟨p, []⟩ f) s = .next (s.held p .issue)))

/-- R109, R135: at the head of a queue whose load path is free, an MSWAP exchanges the active and the shadow plane, and an MLOAD begins;
an MCLR whose plane nothing running targets clears it, of both arrays' planes where they work as one and head both queues. An MRUN or
MEPI stays for its own event. R109, R131, R134-R136, R138, R139, R154, R164: the events of an array: a plane load completes into the
shadow plane, a stream starts and takes the active plane and its vectors, the Satchel words its address and pitch name (and those of its
prologue), its results land row by row, an epilogue starts and its rows reach the Satchel; each sets the completion flag of its
operation where it has one. No event lengthens a queue. While the core aborts, what runs ends and writes nothing (R123). R130, R132,
R133, R140: which Satchel byte is which weight of the loaded plane. R137, R141, R143, R145, R147: landing row i of a stream changes row
first + i of its plane alone; its column n comes from the old element (none with CLR) and the weights of column n (row n with AXIS)
beside the inputs, for the unmasked lanes: in an integer format the saturated sum, minimum or maximum of the mode, with ASAT; in a float
format one element after another; in a grouped one the group sums, scaled, in the 64-bit pair, with LSAT. R66, R67, R165, R166: without
a chain an epilogue's row holds the 128 values of the accumulator row; with one whose path is integer, or float without steps, the codes
of its columns, scaled with their records, rounded half away and clamped; no other byte changes. The model's choices it rests on: log
23, 80, 82, 109. -/
def Obligations.ArrayWork : Prop :=
  (∀ (now : Nat) (a : ArrSt) (k : Nat) (r : List MOp) (fl : List Nat), a.loading = none →
     (∀ f n, a.queue = .swap f n :: r → drainArr now (k + 1) a fl =
       drainArr now k { a with queue := r, active := a.shadow, shadow := a.active } (fl ++ f.toList)) ∧
     (∀ o, a.queue = .load o :: r →
       drainArr now (k + 1) a fl = drainArr now k { a with queue := r, loading := some { o with t0 := now } } fl) ∧
     (∀ pl f n, a.queue = .clr pl false f n :: r → a.busyPlane (pl % 2) = false →
       ∃ b, drainArr now (k + 1) a fl = drainArr now k b (fl ++ f.toList) ∧ b.queue = r ∧ b.active = a.active ∧ b.shadow = a.shadow ∧
         (pl % 2 = 0 → b.acc0 = [] ∧ b.acc1 = a.acc1) ∧ (pl % 2 = 1 → b.acc1 = [] ∧ b.acc0 = a.acc0)) ∧
     (∀ pl f n, a.queue = .clr pl true f n :: r → a.busyPlane 0 = false → a.busyPlane 1 = false →
       drainArr now (k + 1) a fl =
         drainArr now k { a with queue := r, acc0 := [], acc1 := [], latch := 0#2048 } (fl ++ f.toList)) ∧
     (∀ o, a.queue = .run o :: r → drainArr now (k + 1) a fl = (a, fl)) ∧
     (∀ o, a.queue = .epi o :: r → drainArr now (k + 1) a fl = (a, fl))) ∧
  (∀ (s : State) (p : Fin 7) (arr : Fin 2), s.dev.stop = none → (s.dev.core p).stopped = false → (s.dev.core p).frozen = false →
     let c := s.dev.core p
     let a := c.arr arr.val
     let epis := c.arrA.epiOps ++ c.arrB.epiOps
     (∀ o w, a.loading = some o → (∀ j ∈ a.epis, j.op.seq < o.seq → spansMeet o.spans (j.op.spans s.dev p.val) = false) →
       let full : Dev := s.dev.modCore p (fun c =>
         if c.mode = .aborting then c.modArr arr.val (fun a => { a with loading := none })
         else (c.modArr arr.val (fun a => { a with shadow := w, loading := none })).raiseF o.flag)
       (o.chain = false → headForwards s.dev p.val o.addr = false → w = loadPlane s.dev p.val o →
         exec (.mloadComplete p arr) s = .next (s.put (full.drainM p arr.val))) ∧
       (o.chain = false → headForwards s.dev p.val o.addr = true → w = loadPlane s.dev p.val o →
         (hasRoom s.dev 8 p.val w.hopLines = true →
           exec (.mloadComplete p arr) s = .next (s.put ((full.forward p.val w).drainM p arr.val))) ∧
         (hasRoom s.dev 8 p.val w.hopLines = false → exec (.mloadComplete p arr) s = .next s)) ∧
       (o.chain = true → o.got = some w →
         exec (.mloadComplete p arr) s = .next (s.put ((full.incMod .coreWchStat [p.val] 31 16 1).drainM p arr.val)))) ∧
     (∀ o rest, a.queue = .run o :: rest → a.pwr = .on → s.dev.arraysHeld = false →
       (∀ j ∈ a.epis, spansMeet (o.spans ++ o.vecSpans s.dev p.val) (j.op.spans s.dev p.val) = false) →
       (∀ t ∈ o.normTallies s.dev p.val, ∀ e ∈ epis, e.seq < o.seq → t ∉ e.tallies s.dev p.val) →
       let w := if o.fmt = 6 ∨ o.fmt = 7 then 2 else 1
       let code (i k : Nat) : Nat := leNat (s.dev.mem.rdN (satBase p.val + o.addr + 128 * o.stride * i + w * k) w)
       ∃ job : RunJob, job.op = o ∧ job.w = a.active ∧ job.xs.length = o.count ∧ job.t0 = c.totCyc ∧
         job.pitch = (if o.chain ≠ 0 ∧ (o.fmt = 10 ∨ o.fmt = 11) then 2 else 1) ∧
         (a.runs = [] → job.lead = if o.chain = 0 then 0 else 12) ∧ (o.chain = 0 → job.fl = 0#8) ∧
         (∀ i, i < o.count → ∃ xs : List Nat, xs.length = vecLen o.fmt ∧ (∀ k, k < vecLen o.fmt → xs.getD k 0 = code i k) ∧
           job.xs.getD i [] = (if o.chain = 0 then xs else (prologue s.dev p o i xs).1)) ∧
         exec (.mrunStreamStart p arr) s = .next (s.put ((s.dev.modCore p (·.modArr arr.val (fun a =>
           { a with queue := rest, runs := a.runs ++ [job], idle := 0 }))).drainM p arr.val))) ∧
     (∀ j rest, a.runs = j :: rest → (s.dev.arraysHeld = false ∨ j.streams c.totCyc = false) →
       (c.mode = .aborting → exec (.mrunComplete p arr) s = .next (s.put (s.dev.modCore p
         (·.modArr arr.val (fun a => { a with runs := rest }))))) ∧
       (c.mode ≠ .aborting → ∃ (b : ArrSt) (fl : NumFlags),
         exec (.mrunComplete p arr) s = .next (s.put ((s.dev.modCore p (fun c =>
           ((c.setArr arr.val b).addNf fl).raiseF j.op.flag)).drainM p arr.val)) ∧
         b.runs = rest ∧ b.queue = a.queue ∧ b.active = a.active ∧ b.shadow = a.shadow ∧
         (j.op.pair = false → isGrouped j.op.fmt = false →
           (b, fl) = (upto j.op.count).foldl (landRow j) ({ a with runs := rest }, j.fl)) ∧
         (j.op.pair = true → isGrouped j.op.fmt = false → (b, fl) =
           (upto j.op.count).foldl (landRow j) ({ a with runs := rest, acc1 := [], latch := 0#2048 }, j.fl)) ∧
         (isGrouped j.op.fmt = true →
           ({ b with latch := a.latch }, fl) = (upto j.op.count).foldl (landRow j) ({ a with runs := rest }, j.fl) ∧
           b.latch = classScales j.w j.op.fmt))) ∧
     (∀ o rest, a.queue = .epi o :: rest → a.epis = [] →
       (∀ j ∈ a.runs, ∀ k ∈ (MOp.run j.op).targets, k ∉ (MOp.epi o).targets) →
       (∀ e ∈ epis, e.seq < o.seq → ∀ t ∈ e.tallies s.dev p.val, t ∉ o.tallies s.dev p.val) →
       (∀ r, MOp.run r ∈ c.arrA.queue ++ c.arrB.queue → r.seq < o.seq →
         ∀ t ∈ r.normTallies s.dev p.val, t ∉ o.tallies s.dev p.val) →
       exec (.mepiStart p arr) s = .next (s.put ((s.dev.modCore p (·.modArr arr.val (fun a =>
         { a with queue := rest
                  epis := a.epis ++ [⟨o, if o.tag = .grouped ∨ o.plane % 2 = 0 then a.acc0 else a.acc1, a.acc1, a.latch,
                    c.totCyc, epiRowBytes s.dev p.val o.chain, o.residReads s.dev p.val, o.vecSpans s.dev p.val⟩] }))).drainM
           p arr.val))) ∧
     (∀ j rest, a.epis = j :: rest →
       (c.mode = .aborting → exec (.mepiComplete p arr) s = .next (s.put (s.dev.modCore p
         (·.modArr arr.val (fun a => { a with epis := rest }))))) ∧
       (c.mode ≠ .aborting → (∀ o, a.loading = some o → o.seq < j.op.seq → spansMeet o.spans (j.op.spans s.dev p.val) = false) →
         exec (.mepiComplete p arr) s = .next (s.put (((epilogue p j s.dev).modCore p (fun c =>
           (c.modArr arr.val (fun a => { a with epis := rest })).raiseF j.op.flag)).drainM p arr.val)))) ∧
     (∀ i ∈ [Instr.mloadComplete p arr, .mrunStreamStart p arr, .mrunComplete p arr, .mepiStart p arr, .mepiComplete p arr], ∀ t,
       exec i s = .next t → ∀ k, ((t.dev.core p).arr k).queue.length ≤ (c.arr k).queue.length)) ∧
  (∀ (d : Dev) (p : Nat) (o : LoadOp) (k n : Nat), o.chain = false →
     let at_ (x : Nat) : Nat := (d.mem.rd (satBase p + x)).toNat
     let w := loadPlane d p o
     (o.fmt ∉ [6, 7, 10, 11] → k < 128 → n < 128 → w.el o.fmt k n = at_ (o.addr + 128 * k + n)) ∧
     (o.fmt ∈ [6, 7] → k < 64 → n < 64 → w.el o.fmt k n = at_ (o.addr + 128 * k + 2 * n) + 256 * at_ (o.addr + 128 * k + 2 * n + 1)) ∧
     (o.fmt ∈ [10, 11] → k < 256 → n < 128 → w.el o.fmt k n = at_ (o.addr + 64 * k + n / 2) / 16 ^ (n % 2) % 16) ∧
     (isGrouped o.fmt = true → o.gsize < 3 → n < 128 →
       let groups := planeK o.fmt / groupSize o.gsize
       (k < groups → lane 8 (spGet 0#1024 w.scales k) n = at_ (o.saddr + 128 * k + n)) ∧
       bits (classScales w o.fmt).toNat (16 * n + 15) (16 * n) =
         at_ (o.saddr + 128 * groups + 2 * n) + 256 * at_ (o.saddr + 128 * groups + 2 * n + 1))) ∧
  (∀ (o : RunOp) (w : Plane) (xs : List Nat) (n : Nat), xs.length = vecLen o.fmt → colPairs o w xs n =
     ((upto (vecLen o.fmt)).filter (fun k => o.mask.getLsbD (if o.fmt = 10 ∨ o.fmt = 11 then k / 2 else k))).map (fun k =>
       (if o.axis then w.el o.fmt n k else w.el o.fmt k n, xs.getD k 0))) ∧
  (∀ (j : RunJob) (a : ArrSt) (fl : NumFlags) (i : Nat),
     let o := j.op
     let r := o.first + i
     let xs := j.xs.getD i []
     let b := (landRow j (a, fl) i).1
     let up (x : ArrSt) : Sparse AccRow := if o.plane % 2 = 0 then x.acc0 else x.acc1
     let el (m : Sparse AccRow) (n : Nat) : W32 := accEl (spGet 0#4096 m r) n
     (isGrouped o.fmt = false →
       let col (n : Nat) : W32 × NumFlags := if isFloat o.fmt then floatCol o (colPairs o j.w xs n) (el (up a) n)
         else intCol o (colPairs o j.w xs n) (el (up a) n)
       let nc := if o.fmt = 6 ∨ o.fmt = 7 then 64 else 128
       (∀ n, n < 128 → el (up b) n = if n < nc then (col n).1 else if o.clr then 0#32 else el (up a) n) ∧
       (∀ k, k < 8 → (landRow j (a, fl) i).2.getLsbD k = (fl.getLsbD k || (upto nc).any (fun n => (col n).2.getLsbD k))) ∧
       (∀ k, k ≠ r → spGet 0#4096 (up b) k = spGet 0#4096 (up a) k) ∧
       b = (if o.plane % 2 = 0 then { a with acc0 := b.acc0 } else { a with acc1 := b.acc1 })) ∧
     (isGrouped o.fmt = true →
       let pair (x : ArrSt) (n : Nat) : Int := sgn 64 (hiLo (el x.acc1 n) (el x.acc0 n))
       (∀ n, n < 128 → pair b n = (groupCol o j.w xs n (pair a n)).1) ∧
       (∀ k, k < 8 → (landRow j (a, fl) i).2.getLsbD k =
         (fl.getLsbD k || (upto 128).any (fun n => (groupCol o j.w xs n (pair a n)).2.getLsbD k))) ∧
       (∀ k, k ≠ r → spGet 0#4096 b.acc0 k = spGet 0#4096 a.acc0 k ∧ spGet 0#4096 b.acc1 k = spGet 0#4096 a.acc1 k) ∧
       b = { a with acc0 := b.acc0, acc1 := b.acc1 })) ∧
  (∀ (o : RunOp) (ps : List (Nat × Nat)) (acc : W32),
     let w (e : Nat × Nat) : Int := sgn 8 e.1
     let x (e : Nat × Nat) : Int := actInt o.fmt o.azp e.2
     let res := intCol o ps acc
     (∀ g ∈ [(0, fun e => w e * x e), (1, fun e => ((w e - x e).natAbs : Int)), (2, fun e => (w e - x e) * (w e - x e)),
         (5, fun e => (((upto 8).filter (fun b => (e.1 ^^^ e.2).testBit b)).length : Int))], o.mode = g.1 →
       let sum : Int := (if o.clr then 0 else acc.toInt) + (ps.map g.2).sum
       (-(2 : Int) ^ 31 ≤ sum → sum < (2 : Int) ^ 31 → res.1.toInt = sum ∧ res.2 = 0#8) ∧
       ((2 : Int) ^ 31 ≤ sum → res.1 = 0x7FFFFFFF#32 ∧ res.2 = nfAsat) ∧
       (sum < -(2 : Int) ^ 31 → res.1 = 0x80000000#32 ∧ res.2 = nfAsat)) ∧
     (o.azp < 256 → (∀ e ∈ ps, e.2 < 256) → res.2 = 0#8 ∨ o.mode ∉ [3, 4]) ∧
     (o.azp < 256 → (∀ e ∈ ps, e.2 < 256) → o.mode = 3 →
       res.1.toInt = (ps.map (fun e => w e + x e)).foldl min (if o.clr then 2 ^ 31 - 1 else acc.toInt)) ∧
     (o.azp < 256 → (∀ e ∈ ps, e.2 < 256) → o.mode = 4 →
       res.1.toInt = (ps.map (fun e => w e + x e)).foldl max (if o.clr then -2 ^ 31 else acc.toInt))) ∧
  (∀ (o : RunOp) (ps : List (Nat × Nat)) (e : Nat × Nat) (acc : W32),
     let w := (wgtFmt o.fmt).dec e.1
     let x := (actFmt o.fmt).dec e.2
     let was := (floatCol o ps acc).1
     let now := floatCol o (ps ++ [e]) acc
     let diff := f32Of (fvAdd w (fvNeg x))
     (o.mode ≤ 2 → (floatCol o [] acc).1 = (if o.clr then 0#32 else acc) ∧ (floatCol o [] acc).2 = 0#8) ∧
     (o.mode = 0 → now.1 = f32Of (fvAdd (f32Dec was) (fvMul w x))) ∧
     (o.mode = 1 → now.1 = f32Add was (diff &&& 0x7FFFFFFF#32)) ∧
     (o.mode = 2 → now.1 = f32Add was (f32Mul diff diff)) ∧
     (o.mode = 3 → o.clr = true → (floatCol o [] acc).1 = f32Inf ∧ now.1 = f32Min was (f32Of (fvAdd w x))) ∧
     (o.mode = 4 → o.clr = true → (floatCol o [] acc).1 = f32NegInf ∧ now.1 = f32Max2 was (f32Of (fvAdd w x))) ∧
     (o.mode = 3 → o.clr = false → was = f32Min acc (floatCol { o with clr := true } ps acc).1) ∧
     (o.mode = 4 → o.clr = false → was = f32Max2 acc (floatCol { o with clr := true } ps acc).1) ∧
     now.2 = if f32IsNan now.1 then nfNan else 0#8) ∧
  (∀ (o : RunOp) (w : Plane) (xs : List Nat) (n : Nat) (long : Int), xs.length = vecLen o.fmt → w.gsize < 3 →
     let g := 32 * 2 ^ w.gsize
     let weight (k : Nat) : Int := if o.fmt ≤ 9 then sgn 8 (w.el o.fmt k n) else sgn 4 (w.el o.fmt k n)
     let part (r : Nat) : Int := (((upto (vecLen o.fmt)).filter (fun k => decide (k / g = r) &&
       o.mask.getLsbD (if o.fmt = 10 ∨ o.fmt = 11 then k / 2 else k))).map (fun k => weight k * actInt o.fmt o.azp (xs.getD k 0))).sum
     let scale (r : Nat) : Int :=
       let b := lane 8 (spGet 0#1024 w.scales r) n
       if b = 0 then 0 else (16 + b % 16) * 2 ^ (b / 16)
     let upTo (m : Nat) : Int := (if o.clr then 0 else long) + ((upto m).map (fun r => part r * scale r)).sum
     let fits (m : Nat) : Prop := -(2 : Int) ^ 63 ≤ upTo m ∧ upTo m < (2 : Int) ^ 63
     let groups := planeK o.fmt / g
     ((∀ m, m ≤ groups → fits m) → groupCol o w xs n long = (upTo groups, 0#8)) ∧
     (0 < groups → (∀ m, m < groups → fits m) → (2 : Int) ^ 63 ≤ upTo groups → groupCol o w xs n long = (2 ^ 63 - 1, nfLsat)) ∧
     (0 < groups → (∀ m, m < groups → fits m) → upTo groups < -(2 : Int) ^ 63 → groupCol o w xs n long = (-2 ^ 63, nfLsat))) ∧
  (∀ (d : Dev) (p : Fin 7) (j : EpiJob),
     let o := j.op
     let t := epilogue p j d
     let lo (r n : Nat) : W32 := accEl (spGet 0#4096 j.lo r) n
     let long (r n : Nat) : W32 := f32Mul (longF32 (accEl (spGet 0#4096 j.hi r) n) (lo r n))
       (f32Of (fpDec fp16 (bits j.latch.toNat (16 * n + 15) (16 * n))))
     let out (i : Nat) : Nat := satBase p.val + o.addr + 128 * o.stride * i
     let entry (n : Nat) : W32 := match o.tag with
       | .none => 0#32 | .integer => f32OfInt (lo o.first n).toInt 0 | .float => lo o.first n | .grouped => long o.first n
     (o.chain = 0 → 4 ≤ o.stride ∨ o.count ≤ 1 →
       (∀ i n, i < o.count → n < 128 → leNat (t.mem.rdN (out i + 4 * n) 4) = (match o.tag with
         | .none => 0#32 | .integer => lo (o.first + i) n | .float => lo (o.first + i) n | .grouped => long (o.first + i) n).toNat) ∧
       (∀ x, (∀ i, i < o.count → x < out i ∨ out i + 512 ≤ x) → t.mem.rd x = d.mem.rd x)) ∧
     (o.chain ≠ 0 → o.count = 1 →
       let c := chd d p.val o.chain
       (∀ f, c.path = true → efmtOf c.fmt = some f → f = .int8 ∨ f = .uint8 →
         let rec_ (k : Nat) : Int := sgn 32 (leNat (d.mem.rdN (satBase p.val + addrWord (c.p 0) + k) 4))
         (∀ n, n ≤ c.ncol → (t.mem.rd (out 0 + n)).toNat = unsgn 8 (intEpilogue (if o.tag = .integer then (lo o.first n).toInt else 0)
           (rec_ (8 * n)) (rec_ (8 * n + 4)) ((c.p 1).toNat % 64) (f.code c.zp) f.lo f.hi c.relu
           (if f = .uint8 then (c.cap : Int) else sgn 8 c.cap)).1) ∧
         (∀ x, (x < out 0 ∨ out 0 + c.ncol < x) → t.mem.rd x = d.mem.rd x)) ∧
       (∀ f, c.path = false → c.ops.getD 0 0 = 0 → efmtOf c.fmt = some f → f.bits = 8 →
         (∀ n, n ≤ c.ncol → (t.mem.rd (out 0 + n)).toNat = (f.enc (f.code c.zp) (f32Dec (entry n))).1 % 256) ∧
         (∀ x, (x < out 0 ∨ out 0 + c.ncol < x) → t.mem.rd x = d.mem.rd x)))) ∧
  (∀ (acc bias mult zp flo fhi cap : Int) (sh relu : Nat), relu < 3 →
     let res := intEpilogue acc bias mult sh zp flo fhi relu cap
     ∃ q : Int, tiesAway ((acc + bias) * mult) (2 ^ sh) q ∧
       (let lo := if relu = 0 then flo else max flo zp
        let hi := if relu = 2 then min fhi cap else fhi
        (q + zp < lo → res.1 = lo) ∧ (lo ≤ q + zp → hi < q + zp → res.1 = hi) ∧
          (lo ≤ q + zp → q + zp ≤ hi → res.1 = q + zp)) ∧
       res.2 = if q + zp < flo ∨ fhi < q + zp then nfNsat else 0#8)

/-- R202-R205: a plane on its way to a slot: a slot that is not an enabled member running a task passes it on; a member gives it to the
chain MLOAD that waits for it, if its format agrees, and passes it on. R152-R155, R377: an idle array ramps down after IDLE_CYC cycles;
each step takes one column step off, gated after the last; the oldest request that still waits gets the grant; each step up adds one, on
after the eighth. HALO_COUNTER_CLEAR zeroes the four halo counters (R238). The model's choices it rests on: log 74. -/
def Obligations.ChainPlanesAndRamps : Prop :=
  (∀ (s : State) (p : Fin 7) (w : Plane) (rest : List (Nat × Plane)), s.dev.stop = none →
     takeFly p.val s.dev.chainFly = some (w, rest) →
     let d : Dev := { s.dev with chainFly := rest }
     let room := hasRoom s.dev 8 p.val w.hopLines
     (s.dev.flag .coreWchCtl [p.val] 7 = false ∨ (s.dev.core p).active = false →
       (room = true → exec (.chainPlaneArrive p) s = .next (s.put (d.forward p.val w))) ∧
       (room = false → exec (.chainPlaneArrive p) s = .next s)) ∧
     (∀ (i : Fin 2) (o : LoadOp), s.dev.flag .coreWchCtl [p.val] 7 = true → (s.dev.core p).active = true →
       ((s.dev.core p).arr i.val).loading = some o → nextChainLoad (s.dev.core p) = some o.seq →
       (i = 1 → ∀ x, (s.dev.core p).arrA.loading = some x → x.seq ≠ o.seq) →
       w.fmt = some o.fmt → (isGrouped o.fmt = true → w.gsize = o.gsize) → room = true →
       exec (.chainPlaneArrive p) s = .next (s.put ((d.modCore p (·.modArr i.val (fun a =>
         { a with loading := some { o with got := some w } }))).forward p.val w)))) ∧
  (∀ (s : State) (p : Fin 7) (arr : Fin 2), s.dev.stop = none →
     let a := (s.dev.core p).arr arr.val
     let with_ (g : ArrSt → ArrSt) : State := s.put (s.dev.modCore p (·.modArr arr.val g))
     (a.pwr = .on → a.hasRun = false → s.dev.fld .coreArrIdle [p.val] 15 0 ≠ 0 → s.dev.fld .coreArrIdle [p.val] 15 0 ≤ a.idle →
       exec (.arrayIdleRampDown p arr) s = .next (with_ (fun a => { a with pwr := .down }))) ∧
     (a.pwr = .down → a.waitsGrant = false → s.dev.arraysHeld = false → 1 < a.step →
       exec (.arrayRampDownStep p arr) s = .next (with_ (fun a => { a with step := a.step - 1, pwr := .down }))) ∧
     (a.pwr = .down → a.waitsGrant = false → s.dev.arraysHeld = false → a.step ≤ 1 →
       exec (.arrayRampDownStep p arr) s = .next (with_ (fun a => { a with step := a.step - 1, pwr := .gated }))) ∧
     (a.pwr = .up → s.dev.arraysHeld = false → a.step < 7 →
       exec (.arrayRampUpStep p arr) s = .next (with_ (fun a => { a with step := a.step + 1, pwr := .up }))) ∧
     (a.pwr = .up → s.dev.arraysHeld = false → a.step = 7 →
       exec (.arrayRampUpStep p arr) s = .next (with_ (fun a => { a with step := 8, pwr := .on }))) ∧
     (∀ now r, s.dev.fld .pwrSupply [] 31 30 ≠ 1 → s.dev.fld .pwrSupply [] 31 30 ≠ 2 → s.dev.arraysHeld = false →
       s.dev.liveRamps = (now, p.val, arr.val) :: r → ∃ t, exec .rampGrant s = .next t ∧ t.dev.rampReq = r ∧
         (t.dev.core p).arr arr.val = { a with pwr := if 8 ≤ a.step then .on else .up, waitsGrant := false }) ∧
     (∃ t, exec (.haloCounterClear p) s = .next t ∧ ∀ r ∈ [Reg.coreHaloRdyUp, .coreHaloRdyDn, .coreHaloSpcUp, .coreHaloSpcDn],
       t.dev.rg r [p.val] = 0#32))

/-! ## Movement and control -/

/-- R110-R112, R115, R183, R196: WALK copies its descriptor and its index into its walker's list, a write held until its tile ends; FSET
and FCLR write a flag; AWATCH joins the watches; FENCE passes once no data atomic is outstanding. The model's choices it rests on: log
23, 37. -/
def Obligations.MovementOperations : Prop :=
  ∀ (s : State) (p : Fin 7) (f : XFields), Ready s p → f.r = 0#15 →
    let c := s.dev.core p
    let plain : Prop := f.walker = 0#2 ∧ f.cls = 0#2 ∧ f.dsrc = false ∧ f.bundle = 0#12
    let sa := (c.s f.sa.toNat).toNat
    (f.sd = 0#6 → f.sb.toNat < 32 → f.dsrc = false → f.sa.toNat < 32 → f.bundle = 0#12 → f.walker.toNat < 3 → f.cls.toNat < 3 →
      (f.walker.toNat = 2 → f.cls.toNat = 0) → (f.cls.toNat = 2 → c.tiles = 0) → sa % 64 = 0 →
      c.resident.length < 16 → c.nextDescs.length < 16 → (c.wk f.walker.toNat).length < 8 →
      NoPending s p [f.sa.toNat, f.sb.toNat] →
      ∃ x : Xfer, x.words = copyDesc s.dev p.val false sa 0 ∧ x.idx = c.s f.sb.toNat ∧ x.padv = c.padv ∧
        x.cls = f.cls.toNat ∧ x.flag = some f.flag.toNat ∧ x.released = decide (f.walker.toNat ≠ 2) ∧ x.started = false ∧
        exec (.walk ⟨p, []⟩ f) s = .next (s.doneCore p (fun k =>
          let k := k.setWk f.walker.toNat (k.wk f.walker.toNat ++ [x])
          if f.cls.toNat = 2 then { k with resident := k.resident ++ [⟨f.walker.toNat, x⟩] }
          else if f.cls.toNat = 1 then { k with nextDescs := k.nextDescs ++ [⟨f.walker.toNat, x⟩] } else k))) ∧
    (plain → f.sd = 0#6 → f.sa = 0#6 → f.sb = 0#6 →
      exec (.fset ⟨p, []⟩ f) s = .next (s.doneCore p (·.setF f.flag.toNat true)) ∧
      exec (.fclr ⟨p, []⟩ f) s = .next (s.doneCore p (·.setF f.flag.toNat false)) ∧
      (f.flag = 0#6 → c.atomics = [] → exec (.fence ⟨p, []⟩ f) s = .next (s.doneCore p id)) ∧
      (f.flag = 0#6 → c.atomics ≠ [] → exec (.fence ⟨p, []⟩ f) s = .next (s.held p (.wait none)))) ∧
    (plain → f.sd = 0#6 → f.sa.toNat < 32 → f.sb.toNat < 32 → NoPending s p [f.sa.toNat, f.sb.toNat] → c.watches.length < 4 →
      0x810000000 ≤ sa → sa < 0x810100000 → sa % 8 = 0 →
      exec (.awatch ⟨p, []⟩ f) s = .next (s.doneCore p (fun k =>
        { k with watches := k.watches ++ [⟨sa - 0x810000000, c.s f.sb.toNat, f.flag.toNat⟩] })))

/-- R86, R87, R111, R112: a data atomic on an aligned word of the window, with fewer than 8 outstanding and fewer than 16 in its tile,
joins the atomics in flight under the task's next tag. R110, R121, R257, R258: the first atomic of a slot that has no result yet is
performed on its Commons word, and its result is recorded; performed again under a recorded key, it answers the recorded result and
leaves the word alone. The result of a performed atomic is written to its destination, and a watch whose word has reached its threshold
sets its flag; while Commons has a clock. The model's choices it rests on: log 23, 36, 37, 89. -/
def Obligations.AtomicOperations : Prop :=
  (∀ e ∈ atomicForms, ∀ (s : State) (p : Fin 7) (f : XFields), Ready s p → f.r = 0#15 → f.walker = 0#2 → f.cls = 0#2 →
     f.dsrc = false → f.bundle = 0#12 → f.flag = 0#6 → f.sa.toNat < 32 →
     (if e.2.2.1 then f.sb.toNat < 32 else f.sb = 0#6) → (if e.2.2.2.1 then f.sd.toNat < 32 else f.sd = 0#6) →
     NoPending s p [f.sa.toNat, f.sb.toNat, f.sd.toNat] →
     let c := s.dev.core p
     let sa := (c.s f.sa.toNat).toNat
     0x810000000 ≤ sa → sa < 0x810100000 → sa % 8 = 0 → c.nAtomics < 16 → c.atomics.length < 8 →
     ∃ a : AtomOp, a.kind = e.2.1 ∧ a.off = sa - 0x810000000 ∧ a.arg = c.s f.sb.toNat ∧ a.expect = c.s f.sd.toNat ∧
       a.dest = f.sd.toNat ∧ a.tag = c.tagctr ∧ a.result = none ∧
       exec (e.1 ⟨p, []⟩ f) s = .next (s.doneCore p (fun k =>
         { k with atomics := k.atomics ++ [a], tagctr := k.tagctr + 1, nAtomics := k.nAtomics + 1 }))) ∧
  (∀ (s : State) (p : Fin 7), s.dev.stop = none →
     let c := s.dev.core p
     let word (off : Nat) : Nat := leNat (s.dev.mem.rdN (0x800000000 + off) 8)
     (∀ a rest, c.atomics = a :: rest → a.result = none → a.off + 8 ≤ 0x1000000 → s.dev.com.find p.val c.keySlot a.tag = none →
       s.dev.pwr.commonsOff = false → s.dev.poison = [] → ∃ t, exec (.atomicPerform p) s = .next t ∧
         (t.dev.core p).atomics = { a with result := some (BitVec.ofNat 64 (word a.off)) } :: rest ∧
         leNat (t.dev.mem.rdN (0x800000000 + a.off) 8) = (match a.kind with
           | .take => (word a.off + 1) % 2 ^ 64 | .aadd => (word a.off + a.arg.toNat) % 2 ^ 64 | .ald => word a.off
           | .ast => a.arg.toNat | .acas => if word a.off = a.expect.toNat then a.arg.toNat else word a.off) ∧
         (∀ x, (x < 0x800000000 + a.off ∨ 0x800000000 + a.off + 8 ≤ x) → t.dev.mem.rd x = s.dev.mem.rd x) ∧
         t.dev.com.find p.val c.keySlot a.tag = some (BitVec.ofNat 64 (word a.off))) ∧
     (∀ a rest r, c.atomics = a :: rest → a.result = none → s.dev.com.find p.val c.keySlot a.tag = some r →
       s.dev.pwr.commonsOff = false → exec (.atomicPerform p) s = .next (s.put (s.dev.modCore p (fun k =>
         { k with atomics := { a with result := some r } :: rest })))) ∧
     (∀ a rest r, c.atomics = a :: rest → a.result = some r → c.frozen = false → s.dev.pwr.commonsOff = false →
       exec (.atomicComplete p) s = .next (s.put (s.dev.modCore p (fun k =>
         { k with atomics := rest }.setS a.dest r)))) ∧
     (∀ n w, c.watches[n]? = some w → c.frozen = false → s.dev.pwr.commonsOff = false → s.dev.poison = [] →
       exec (.awatchFire p n) s = .next (s.put (if w.thr.toNat ≤ word w.off then
           s.dev.modCore p (fun k => { k with watches := k.watches.eraseIdx n }.setF w.flag true)
         else s.dev))))

/-- R113, R114: a branch opens a delay slot: the next bundle is the one after it, then control goes to the target; a branch not taken
goes on behind the delay slot. JAL links PC + 2. R113, R115, R122: WAITF is held while its flag is 0 and then clears it if CLR says so;
WAITA is held while a plane it names is not ready; TRAP raises its code in CORE_EXC. The model's choices it rests on: log 16, 23. -/
def Obligations.ControlFlow : Prop :=
  (∀ (s : State) (p : Fin 7) (f : CFields), ReadyHere s p → f.r = 0#3 → f.flag = 0#6 → f.clr = false → f.planes = 0#4 →
     f.opnd = 0#12 →
     let c := s.dev.core p
     (f.sd = 0#6 → f.sa = 0#6 → f.sb = 0#6 → exec (.jmp ⟨p, []⟩ f) s = .next (s.branchTo p id f.target.toNat)) ∧
     (f.sd.toNat < 32 → f.sa = 0#6 → f.sb = 0#6 → NoPending s p [f.sd.toNat] →
       exec (.jal ⟨p, []⟩ f) s = .next (s.branchTo p (·.setS f.sd.toNat (BitVec.ofNat 64 (c.pc + 2))) f.target.toNat)) ∧
     (f.sd = 0#6 → f.sa.toNat < 32 → f.sb = 0#6 → f.target = 0#12 → NoPending s p [f.sa.toNat] →
       ((c.s f.sa.toNat).toNat ≤ 4095 → exec (.jr ⟨p, []⟩ f) s = .next (s.branchTo p id (c.s f.sa.toNat).toNat)) ∧
       (4095 < (c.s f.sa.toNat).toNat → exec (.jr ⟨p, []⟩ f) s = .next (s.raised p 7 .pcRange))) ∧
     (∀ e ∈ branchForms, f.sd = 0#6 → f.sa.toNat < 32 → f.sb.toNat < 32 → NoPending s p [f.sa.toNat, f.sb.toNat] →
       exec (e.1 ⟨p, []⟩ f) s = .next (s.branchTo p id
         (if e.2 (c.s f.sa.toNat) (c.s f.sb.toNat) then f.target.toNat else c.pc + 2)))) ∧
  (∀ (s : State) (p : Fin 7) (f : CFields), Ready s p → f.r = 0#3 → f.sd = 0#6 → f.sa = 0#6 → f.sb = 0#6 → f.target = 0#12 →
     let c := s.dev.core p
     (f.planes = 0#4 → f.opnd = 0#12 →
       (c.f f.flag.toNat = true → exec (.waitf ⟨p, []⟩ f) s =
         .next (s.doneCore p (fun k => if f.clr then k.setF f.flag.toNat false else k))) ∧
       (c.f f.flag.toNat = false → exec (.waitf ⟨p, []⟩ f) s = .next (s.held p (.wait (some f.flag.toNat))))) ∧
     (f.flag = 0#6 → f.clr = false → f.opnd = 0#12 →
       ((∀ k, k < 4 → f.planes.getLsbD k = true → planeReady c k = true) → exec (.waita ⟨p, []⟩ f) s = .next (s.doneCore p id)) ∧
       ((∃ k, k < 4 ∧ f.planes.getLsbD k = true ∧ planeReady c k = false) →
         exec (.waita ⟨p, []⟩ f) s = .next (s.held p (.wait none)))) ∧
     (f.flag = 0#6 → f.clr = false → f.planes = 0#4 → f.opnd.toNat < 256 → c.delay = none →
       ∃ t, exec (.trap ⟨p, []⟩ f) s = .next t ∧ t = s.raised p 7 (.trap f.opnd.toNat) ∧
         t.dev.rg .coreExc [p.val] = BitVec.ofNat 32 (c.pc * 2 ^ 20 + f.opnd.toNat * 2 ^ 11 + 7 * 2 ^ 8 + 10) ∧
         (t.dev.core p).ended = true ∧ (t.dev.core p).mode = .aborting))

/-- R83-R85, R89: TILE, once no matrix operation and no atomic is outstanding, ends the tile: the vector registers, planes and
accumulators are zero, the written transfers are released, the checkpoint holds the state of the next tile's start. END, under the same
condition, ends the task. The model's choices it rests on: log 22, 23, 79, 84, 114. -/
def Obligations.TileAndEnd : Prop :=
  ∀ (s : State) (p : Fin 7) (f : CFields), f = ⟨0#6, 0#6, 0#6, 0#6, false, 0#4, 0#3, 0#12, 0#12⟩ → Ready s p →
    s.dev.flt.forced = false →
    let c := s.dev.core p
    (c.quiet = true → ∃ t, exec (.tile ⟨p, []⟩ f) s = .next t ∧
      let k := t.dev.core p
      k.pc = c.after ∧ k.vregs = [] ∧ k.arrA.active = {} ∧ k.arrB.active = {} ∧ k.arrA.shadow = {} ∧ k.arrB.shadow = {} ∧ k.arrA.acc0 = [] ∧ k.arrA.acc1 = [] ∧
      k.arrB.acc0 = [] ∧ k.arrB.acc1 = [] ∧ k.tiles = c.tiles + 1 ∧ k.tileCyc = 0 ∧ k.nAtomics = 0 ∧ k.sregs = c.sregs ∧
      k.flags = c.flags ∧ k.tally = c.tally ∧ (∀ x ∈ k.wk2, x.released = true) ∧ k.wk2.length = c.wk2.length ∧
      k.ckpt = { pc := c.after, sregs := c.divided.sregs, mregs := c.mregs, tally := c.tally, flags := c.flags, padv := c.padv
                 azp := c.azp, tiles := c.tiles + 1, tagctr := c.tagctr, nflags := c.nflags, resident := c.resident
                 next := c.nextDescs, pendingWr := k.wk2 } ∧ k.takenAt = none ∧
      (c.takenAt = none → t.dev.mem = s.dev.mem)) ∧
    (c.quiet = false → exec (.tile ⟨p, []⟩ f) s = .next (s.held p (.wait none)) ∧
      exec (.end_ ⟨p, []⟩ f) s = .next (s.held p (.wait none))) ∧
    (c.quiet = true → c.delay = none → ∃ t, exec (.end_ ⟨p, []⟩ f) s = .next t ∧
      (t.dev.core p).ended = true ∧ (t.dev.core p).abort = c.abort ∧ (∀ x ∈ (t.dev.core p).wk2, x.released = true) ∧
      (t.dev.core p).sregs = c.sregs ∧ (t.dev.core p).takenAt = none ∧ (c.takenAt = none → t.dev.mem = s.dev.mem))

/-- R252-R255: a core that meets a device barrier whose mask includes it arrives and is held; once every core of the mask has arrived,
the release lets each of them pass; a core whose arrival was released goes on. The oldest release held after a dismissal takes effect at
its time, and a staged mask once no arrival is pending. R85, R88, R123: a tile that has run 19,200 core cycles ends its task with
TILE_WATCHDOG; a re-run whose transfers have all been issued and completed again goes on with the checkpointed flags and those of its
class N descriptors. The model's choices it rests on: log 34. -/
def Obligations.BarriersAndReruns : Prop :=
  (∀ (s : State) (p : Fin 7) (f : CFields) (id : Nat), id < 1024 → f = ⟨0#6, 0#6, 0#6, 0#6, false, 0#4, 0#3, BitVec.ofNat 12 (1024 + id), 0#12⟩ →
     let c := s.dev.core p
     let mine (a : BarArr) : Bool := a.slot == p.val && a.level == 1 && a.id == id
     (Ready s p → s.dev.logicalOf p.val < 6 → bit s.dev.barMask (s.dev.logicalOf p.val) = true → c.barDone ≤ c.barIdx →
       ((∀ a ∈ s.dev.bar.arr, mine a = false) → ∃ t, exec (.barrier ⟨p, []⟩ f) s = .next t ∧
         t.dev.bar = { s.dev.bar with arr := s.dev.bar.arr ++ [{ level := 1, id := id, slot := p.val, entry := c.entry }] } ∧
         (t.dev.core p).pc = c.pc ∧ (t.dev.core p).delay = c.delay) ∧
       ((∃ a ∈ s.dev.bar.arr, mine a = true ∧ a.released = true) → ∃ t, exec (.barrier ⟨p, []⟩ f) s = .next t ∧
         (t.dev.core p).pc = c.after ∧ (t.dev.core p).barIdx = c.barIdx + 1 ∧
         t.dev.bar = { s.dev.bar with arr := s.dev.bar.arr.filter (fun a => !(mine a && a.released)) })) ∧
     (s.dev.stop = none →
       ((∀ k, k < 6 → bit s.dev.barMask k = true → s.dev.arrivedAt 1 id (s.dev.slotOf k) = true) →
         exec (.barrierRelease 1 (BitVec.ofNat 10 id) p) s =
           .next (s.put (s.dev.letPass (fun a => a.level == 1 && a.id == id)))) ∧
       (∀ h r, s.dev.bar.hold = h :: r → exec .dismissHoldExpire s = .next (s.put (({ s.dev with bar := { s.dev.bar with hold := r } } : Dev).letPass (fun a => a.level == 2 && a.id == h && a.held)))) ∧
       (∀ m, s.dev.bar.stage = some m → s.dev.barPending = false → exec .barrierMaskApply s = .next (s.put (({ s.dev with bar := { s.dev.bar with stage := none } } : Dev).setFld .ttBarDev [] 5 0 m))))) ∧
  (∀ (s : State) (p : Fin 7), s.dev.stop = none → s.dev.flt.takeover = none →
     let c := s.dev.core p
     (s.dev.wdSuspended = false → c.active = true → c.abort = none → c.carryBad = false → 19200 ≤ c.tileCyc → ∃ t, exec (.tileWatchdog p) s = .next t ∧
       (t.dev.core p).abort = some 0x20#8 ∧ (t.dev.core p).ended = true ∧
       t.dev.rg .coreExc [p.val] = BitVec.ofNat 32 (c.pc * 2 ^ 20) ∧ (t.dev.core p).sregs = c.sregs ∧ t.dev.mem = s.dev.mem) ∧
     (c.tileCyc < 19200 → exec (.tileWatchdog p) s = .next s) ∧
     (c.mode = .rerun → c.reloading = true → (∀ x ∈ c.wk0 ++ c.wk1, x.reissue = false) → ∃ t, exec (.tileRerunResume p) s = .next t ∧
       (t.dev.core p).reloading = false ∧ (t.dev.core p).tileCyc = 0 ∧ (t.dev.core p).pc = c.pc ∧
       (∀ i, i < 64 → (t.dev.core p).f i = (c.ckpt.flags.getLsbD i || c.ckpt.next.any (fun x => x.xfer.flag == some i)))))

/-- R188, R189, R192, R193, R195, R196, R200, R357: a released transfer at the head of its walker's list, with fewer than 8 of the list
started, starts: one whose copied descriptor lay outside the Satchel (R192) faults with reason 0x04 and ends the task; one that passes
both stages of checks is under way from its far base, and where that lies at another device a read sends a READ for every block its far
bytes lie in. A read that has started, whose answers are all in and whose source is not poisoned delivers its bytes, counts its blocks,
leaves its walker's list and sets its flag, an empty one with the blocks of its list entry and header alone; a local write stores its
bytes; in MODE 0, uncompressed and without conversion, each position in bounds moves between the far address and the near one that its
coordinates give, a read pads the others, and no other byte changes; a started remote transfer with no response faults with reason 0x0B
and ends the task. The model's choices it rests on: log 19, 82, 89, 103. -/
def Obligations.WalkerEvents : Prop :=
  ∀ (s : State) (p : Fin 7) (w : Fin 3), s.dev.stop = none → (s.dev.core p).stopped = false → (s.dev.core p).frozen = false →
    let c := s.dev.core p
    (∀ x rest, c.wk w.val = x :: rest → x.started = true → x.sent = [] → (x.remote = true → w = 2 → x.wrote = true) →
      s.dev.pwr.commonsOff = false →
      let groups := farGroups s.dev x x.base x.mdev
      let from_ (k : Nat) : Nat → Byte := x.farRd s.dev ((groups[k]?).bind (·.1))
      let leave (k : CoreSt) : CoreSt := (k.setWk w.val rest).raiseF x.flag
      (x.empty = true → exec (.walkerTransferComplete p w) s =
        .next (s.put ((s.dev.incSat .coreWlkRdblk [p.val] 31 0 (entryBlocks c x)).modCore p leave))) ∧
      (x.empty = false → w ≠ 2 → s.dev.poison = [] →
        exec (.walkerTransferComplete p w) s = .next (s.put (((moveRead s.dev p x x.base (from_ 0) (from_ 1) (from_ 2)).incSat
          .coreWlkRdblk [p.val] 31 0 (blockCount c x false groups)).modCore p leave))) ∧
      (x.empty = false → w = 2 → x.remote = false →
        exec (.walkerTransferComplete p w) s = .next (s.put (((moveWrite s.dev p x x.base).incSat
          .coreWlkWrblk [p.val] 31 0 (blockCount c x true groups)).modCore p leave)))) ∧
    (∀ x rest, c.wk w.val = x :: rest → x.started = true → x.remote = true → x.sent ≠ [] → x.cls < 4 → c.wlkFault = false → c.mode = .running →
      c.abort = none → c.carryBad = false → ∃ t, exec (.remoteTimeout p w) s = .next t ∧ (t.dev.core p).abort = some 0x10#8 ∧
        (t.dev.core p).wlkFault = true ∧ bits (t.dev.rg .coreWlkFault [p.val]).toNat 31 24 = 0x0B) ∧
    (∀ x rest, c.wk w.val = x :: rest → x.started = false → x.released = true → (rest.filter (·.started)).length < 8 →
      (∀ y ∈ rest, y.readsFirst = false) → s.dev.pwr.commonsOff = false →
      let y := parseDsc x.words
      let spans (base : Nat) := farSpans y none base (y.origin (y.split x.idx.toNat).2)
      (x.words = [] → x.cls < 4 → c.wlkFault = false → c.mode = .running → c.abort = none → c.carryBad = false →
        ∃ t, exec (.walkerTransferStart p w) s = .next t ∧ (t.dev.core p).abort = some 0x10#8 ∧
          bits (t.dev.rg .coreWlkFault [p.val]).toNat 31 24 = 0x04) ∧
      (stage1 s.dev c w.val x = none → s.dev.poison = [] → y.mode = 0 →
        (y.remote = false → y.pl = 0 → y.fmc = 0 → stage2 s.dev c x (w.val == 2) = .ok (y.far, none)) ∧
        (y.remote = true → y.pl = 0 → farDev s.dev true y.far = some (y.far / 2 ^ 48) → y.fmc = 0 →
          stage2 s.dev c x (w.val == 2) = .ok (y.far % 2 ^ 48, some (y.far / 2 ^ 48))) ∧
        (∀ base, stage2 s.dev c x (w.val == 2) = .ok (base, none) → x.sent = [] → exec (.walkerTransferStart p w) s =
          .next (s.put (s.dev.modCore p (fun k => k.setWk w.val
            ({ x with started := true, empty := false, base := base, mdev := none, remote := false } :: rest))))) ∧
        (∀ base v, w ≠ 2 → y.fmc = 0 → stage2 s.dev c x false = .ok (base, some v) → ∃ t x', exec (.walkerTransferStart p w) s = .next t ∧
          (t.dev.core p).wk w.val = x' :: rest ∧ x'.started = true ∧ x'.remote = true ∧ x'.base = base ∧ x'.mdev = some v ∧
          (∀ b, (∃ e ∈ x'.sent, e.2 = v * 2 ^ 48 + b) ↔ ∃ e ∈ spans base, b ∈ blocksOf e) ∧ t.dev.mem = s.dev.mem))) ∧
    (∀ (d : Dev) (x : Xfer) (base : Nat) (rd rdG rdC : Nat → Byte),
      let y := parseDsc x.words
      let o := y.origin (y.split x.idx.toNat).2
      let size := y.nf.bits / 8
      let box (i : Nat → Nat) : Prop := ∀ k, k < 5 → i k < y.tl k
      let at_ (i : Nat → Nat) (k : Nat) : Nat := o.getD k 0 + i k
      let inb (i : Nat → Nat) : Prop := ∀ k, k < 5 → at_ i k < y.sz k
      let near (i : Nat → Nat) : Nat := satBase p.val + (y.near + i 0 * size + 16 * (i 1 * y.ns 1 + i 2 * y.ns 2 + i 3 * y.ns 3 + i 4 * y.ns 4))
      let far (i : Nat → Nat) : Int := (base : Int) + at_ i 0 * size + at_ i 1 * y.fs 1 + at_ i 2 * y.fs 2 + at_ i 3 * y.fs 3 + at_ i 4 * y.fs 4
      let same (i j : Nat → Nat) : Prop := ∀ k, k < 5 → i k = j k
      y.mode = 0 → y.fmc = 0 → y.ffmt = y.nfmt → y.nf.bits ≠ 4 → (∀ i, box i → inb i → 0 ≤ far i) →
      ((∀ i j a b, box i → box j → a < size → b < size → near i + a = near j + b → same i j) →
        let t := moveRead d p x base rd rdG rdC
        (∀ i b, box i → b < size → inb i → t.mem.rd (near i + b) = rd ((far i).toNat + b)) ∧
        (∀ i b, box i → b < size → ¬ inb i → t.mem.rd (near i + b) = BitVec.ofNat 8 (x.padv.toNat / 256 ^ b)) ∧
        (∀ a, (∀ i b, box i → b < size → a ≠ near i + b) → t.mem.rd a = d.mem.rd a)) ∧
      ((∀ i j a b, box i → box j → inb i → inb j → a < size → b < size → (far i).toNat + a = (far j).toNat + b → same i j) →
        let t := moveWrite d p x base
        (∀ i b, box i → b < size → inb i → t.mem.rd ((far i).toNat + b) = d.mem.rd (near i + b)) ∧
        (∀ a, (∀ i b, box i → b < size → inb i → a ≠ (far i).toNat + b) → t.mem.rd a = d.mem.rd a)))

/-! ## Register space and host windows -/

/-- R13, R14, R16, R17, R40: a write of a register with no further effect changes each bit by the access type of its field and no
reserved bit; the RWL bits stay once SYS_LOCK is set; where there is no register nothing changes. R13, R17, R18, R128, R293: a
register's word read through BAR0 shows its stored bits but the write-only and the reserved ones; an offset with no register reads 0; a
whole word written is a register write, a part of one is discarded; the counts' low words latch their upper halves. The model's choices
it rests on: log 70. -/
def Obligations.RegisterAccess : Prop :=
  (∀ (s : State) (off : Nat) (v : W32), s.dev.stop = none → off < 0x1000000 ∨ 0x1800000 ≤ off →
     (∀ r i, regAt off = some (r, i) → r ∉ effectRegs → ∃ x : W32,
       exec (.registerWrite off v) s = .next (s.put (s.dev.setRg r i x)) ∧
       ∀ k, k < 32 → x.getLsbD k = (match r.fields.find? (fun f => decide (f.2.1 ≤ k ∧ k ≤ f.1)) with
         | none => (s.dev.rg r i).getLsbD k
         | some (_, _, a) => (match a with
           | .ro | .wo => (s.dev.rg r i).getLsbD k
           | .rw => v.getLsbD k
           | .w1c => (s.dev.rg r i).getLsbD k && !v.getLsbD k
           | .w1s => (s.dev.rg r i).getLsbD k || v.getLsbD k
           | .rwl => if s.dev.locked then (s.dev.rg r i).getLsbD k else v.getLsbD k))) ∧
     (regAt off = none → off < 0x3810000 ∨ 0x3810400 ≤ off → exec (.registerWrite off v) s = .next s) ∧
     (∃ t, exec .sysLockSet s = .next t ∧ t = s.put (s.dev.setRg .sysLock [] (s.dev.rg .sysLock [] ||| 1#32)) ∧ t.dev.locked = true)) ∧
  (∀ (s : State) (off : Nat), s.dev.stop = none → s.dev.pci.d3hot = false → 2 ≤ s.dev.stage → off + 4 ≤ 0x10000000 →
     (∀ r i, regAt off = some (r, i) → off % 4 = 0 → r ∉ liveRegs → ∃ x : W32,
       exec (.hostRead 0 off 4) s = .next (s.put (s.dev.answer (leBytes 4 x.toNat) false)) ∧
       ∀ k, k < 32 → x.getLsbD k = ((s.dev.rg r i).getLsbD k &&
         r.fields.any (fun f => decide (f.2.1 ≤ k ∧ k ≤ f.1) && decide (f.2.2 ≠ .wo)))) ∧
     (regAt off = none → off % 4 = 0 → off < 0x3810000 ∨ 0x3811008 ≤ off →
       exec (.hostRead 0 off 4) s = .next (s.put (s.dev.answer [0#8, 0#8, 0#8, 0#8] false))) ∧
     (∀ data : List Byte, data.length = 4 → off % 4 = 0 →
       exec (.hostWrite 0 off data false) s = exec (.registerWrite off (BitVec.ofNat 32 (leNat data))) s) ∧
     (∀ data : List Byte, data.length < 4 → exec (.hostWrite 0 off data false) s = .next s) ∧
     (∀ p : Fin 7, ∃ t, exec (.cyclesLatchRead p) s = .next t ∧ t.dev.rd.data = leBytes 4 ((s.dev.core p).totCyc % 2 ^ 32) ∧
       t.dev.rg .coreCyclesHi [p.val] = BitVec.ofNat 32 ((s.dev.core p).totCyc / 2 ^ 32) ∧ t.dev.cores = s.dev.cores) ∧
     (∃ t, exec .timebaseLatchRead s = .next t ∧ t.dev.rd.data = leBytes 4 (s.dev.tb % 2 ^ 32) ∧
       t.dev.rg .capTbNowHi [] = BitVec.ofNat 32 (s.dev.tb / 2 ^ 32) ∧ t.dev.tb = s.dev.tb))

/-- R43, R425, R428, R430: BAR4's lower half is Commons in service: reads answer its bytes, writes store them and no other byte; a write
with EP set is discarded and counted; in D3hot a request is unsupported and counted. R151, R160, R401: a register that a running core
holds is written when the core has left its task, in order, but for the fused entries of a spare map (R150); the write goes to the image
of the core it is mapped to as well (R401), and to no other word of the images. R14: while SYS_LOCK is set, a held write that lands
leaves it set. The model's choices it rests on: log 68, 70, 104. -/
def Obligations.HostAccess : Prop :=
  (∀ (s : State) (o len : Nat) (data : List Byte), s.dev.stop = none →
     (s.dev.pci.d3hot = false → s.dev.stage = 5 → s.dev.poison = [] → o + len ≤ 0x1000000 →
       exec (.hostRead 4 o len) s = .next (s.put (s.dev.answer (s.dev.mem.rdN (0x800000000 + o) len) false))) ∧
     (s.dev.pci.d3hot = false → s.dev.stage = 5 → o + data.length ≤ 0x1000000 → ∃ t, exec (.hostWrite 4 o data false) s = .next t ∧
       t.dev.mem.rdN (0x800000000 + o) data.length = data ∧
       (∀ a, a < 0x800000000 + o ∨ 0x800000000 + o + data.length ≤ a → t.dev.mem.rd a = s.dev.mem.rd a) ∧
       t.dev.regs = s.dev.regs ∧ t.dev.cores = s.dev.cores) ∧
     (s.dev.pci.d3hot = false → o + data.length ≤ 0x1000000 → ∃ t, exec (.hostWrite 4 o data true) s = .next t ∧
       t.dev.fld .pciErr [] 23 16 = min (s.dev.fld .pciErr [] 23 16 + 1) 255 ∧ t.dev.pci.devStat.getLsbD 1 = true ∧
       t.dev.pci.errMsgs = (if s.dev.pci.devCtl.getLsbD 1 then s.dev.pci.errMsgs ++ [.nonfatal] else s.dev.pci.errMsgs) ∧
       t.dev.mem = s.dev.mem) ∧
     (s.dev.pci.d3hot = true →
       (∃ t, exec (.hostWrite 4 o data false) s = .next t ∧
         t.dev.fld .pciErr [] 7 0 = min (s.dev.fld .pciErr [] 7 0 + 1) 255 ∧ t.dev.pci.devStat.getLsbD 3 = true ∧
         t.dev.mem = s.dev.mem) ∧
       (∃ t, exec (.hostRead 4 o len) s = .next t ∧ t.dev.rd.data = [] ∧
         t.dev.fld .pciErr [] 7 0 = min (s.dev.fld .pciErr [] 7 0 + 1) 255 ∧ t.dev.mem = s.dev.mem))) ∧
  (∀ (s : State) (p : Fin 7) (r : Reg) (i : List Nat) (off : Nat) (v : W32), s.dev.stop = none → regAt off = some (r, p.val :: i) →
     heldReg r = true → 0x1000000 ≤ off → off < 0x1800000 →
     ((s.dev.core p).busy = true → v.getLsbD 30 = false →
       exec (.registerWrite off v) s = .next (s.put (s.dev.modCore p (fun c => { c with held := c.held ++ [(off, v)] })))) ∧
     ((s.dev.core p).busy = true → exec (.heldWriteApply p) s = .next s) ∧
     ((s.dev.core p).busy = false → (s.dev.core p).held = [(off, v)] → ∃ t, exec (.heldWriteApply p) s = .next t ∧
       (t.dev.core p).held = [] ∧
       (spfuseAt r = none → t.dev.rg r (p.val :: i) = mergeWrite s.dev.locked r.fields (s.dev.rg r (p.val :: i)) v) ∧
       (∀ lo e, spfuseAt r = some lo → e < 4 →
         bits (t.dev.rg r (p.val :: i)).toNat (8 * e + 7) (8 * e) =
           bits (if s.dev.flag .coreArrSpfuse (p.val :: i) (lo + e) then s.dev.rg r (p.val :: i)
             else mergeWrite s.dev.locked r.fields (s.dev.rg r (p.val :: i)) v).toNat (8 * e + 7) (8 * e)) ∧
       (let w := (off % 0x100000 - 0x4000) / 4
        let k := s.dev.logicalOf p.val
        (0x4000 ≤ off % 0x100000 → off % 0x100000 < 0x5000 → k < 6 → spGet 0#32 t.dev.coreImg (k * 1024 + w) = t.dev.rg r (p.val :: i) ∧
          ∀ x, x ≠ k * 1024 + w → spGet 0#32 t.dev.coreImg x = spGet 0#32 s.dev.coreImg x) ∧
        (6 ≤ k → t.dev.coreImg = s.dev.coreImg)) ∧
       (∀ q, q ≠ p → t.dev.core q = s.dev.core q) ∧ t.dev.mem = s.dev.mem) ∧
     (∀ (v' : W32) (r' : Reg) (i' : List Nat) (off' : Nat), (s.dev.core p).busy = false → (s.dev.core p).held = [(off, v), (off', v')] →
       regAt off' = some (r', p.val :: i') → heldReg r' = true → spfuseAt r = none → spfuseAt r' = none →
       ∃ t, exec (.heldWriteApply p) s = .next t ∧ (t.dev.core p).held = [] ∧
         let once (x : Reg) (u y : W32) : W32 := mergeWrite s.dev.locked x.fields y u
         (regOff r' (p.val :: i') ≠ regOff r (p.val :: i) → t.dev.rg r (p.val :: i) = once r v (s.dev.rg r (p.val :: i)) ∧
           t.dev.rg r' (p.val :: i') = once r' v' (s.dev.rg r' (p.val :: i'))) ∧
         (r' = r → i' = i → t.dev.rg r (p.val :: i) = once r v' (once r v (s.dev.rg r (p.val :: i))))) ∧
     (∀ (h : Nat × W32) (rest : List (Nat × W32)), (s.dev.core p).busy = false → (s.dev.core p).held = h :: rest →
       let only (x : State) (l : List (Nat × W32)) : State := x.put (x.dev.modCore p (fun c => { c with held := l }))
       ∃ t, exec (.heldWriteApply p) (only s [h]) = .next t ∧ exec (.heldWriteApply p) s = exec (.heldWriteApply p) (only t rest)) ∧
     (s.dev.locked = true → (s.dev.core p).busy = false → ∃ t, exec (.heldWriteApply p) s = .next t ∧ t.dev.locked = true))

/-- R426: BAR2 reaches the stack at PCI_BAR2_BASE, cut to a multiple of BAR2's size; at 16 GiB it starts at the stack's first byte. What
a read answers shows in the model's own field rd (log 70). -/
def Obligations.Bar2Window : Prop :=
  ∀ (s : State) (o len : Nat) (data : List Byte), s.dev.stop = none → s.dev.pci.d3hot = false → s.dev.flag .memGctl [] 31 = true →
    s.dev.stage ≠ 6 → 28 ≤ s.dev.pci.bar2Log → s.dev.pci.bar2Log ≤ 34 →
    let size := 2 ^ s.dev.pci.bar2Log
    let b := if s.dev.pci.bar2Log = 34 then 0 else s.dev.fld .pciBar2Base [] 5 0 * 268435456 / size * size
    (s.dev.poison = [] → o + len ≤ size → b + o + len ≤ 0x3F0000000 →
      exec (.hostRead 2 o len) s = .next (s.put (s.dev.answer (s.dev.mem.rdN (b + o) len) false))) ∧
    (o + data.length ≤ size → b + o + data.length ≤ 0x3F0000000 → ∃ t, exec (.hostWrite 2 o data false) s = .next t ∧
      t.dev.mem.rdN (b + o) data.length = data ∧
      (∀ a, a < b + o ∨ b + o + data.length ≤ a → t.dev.mem.rd a = s.dev.mem.rd a) ∧ t.dev.regs = s.dev.regs ∧ t.dev.cores = s.dev.cores) ∧
    (∀ x : BitVec 6, ∃ t, exec (.registerWrite 0x3800000 (x.setWidth 32)) s = .next t ∧ t.dev.fld .pciBar2Base [] 5 0 = x.toNat ∧
      t.dev.pci = s.dev.pci ∧ t.dev.mem = s.dev.mem)

/-- R17: an offset that holds no register, and no word of the MSI-X structure, reads 0 and ignores a write. What a read answers shows in
the model's own field rd (log 70). -/
def Obligations.UnusedOffsets : Prop :=
  ∀ (s : State) (off : Nat) (v : W32), s.dev.stop = none → s.dev.pci.d3hot = false → off % 4 = 0 → off + 4 ≤ 0x10000000 →
    regAt off = none → off < 0x3810000 ∨ 0x3811008 ≤ off →
    exec (.registerWrite off v) s = .next s ∧
    exec (.hostWrite 0 off (leBytes 4 v.toNat) false) s = .next s ∧
    exec (.hostRead 0 off 4) s = .next (s.put (s.dev.answer [0#8, 0#8, 0#8, 0#8] false))

/-! ## Rings and the Timetable unit -/

/-- R268: enabling a ring whose sizes and extents are allowed resets its indices and phases; one with a size out of range stays off with
ERR; disabling clears EN alone; R246: a counter takes the value written; TT_CTL.EN follows TT_ENABLE. R241, R242: a poll writes what the
submitter wrote, and nothing more while polling is off; on the one enabled ring it takes the new record at its index, counts it in
CMD_CONSUMED, inverts the phase at the wrap, stops at the first record that is not new and reads CPL_CONSUMED; a ring with LOC = 1
(R240) does the same in device memory. -/
def Obligations.CommandRings : Prop :=
  (∀ (s : State) (n : Fin 16) (v : W32), s.dev.stop = none →
     let log (x : Nat) : Prop := 4 ≤ x ∧ x ≤ 12
     (ringOn s.dev n.val = false → log (bits v.toNat 23 20) → log (bits v.toNat 19 16) → bit v.toNat 30 = false →
       ∃ t, exec (.ringEnable n v) s = .next t ∧ ringOn t.dev n.val = true ∧ cplLog t.dev n.val = bits v.toNat 23 20 ∧
         cmdLog t.dev n.val = bits v.toNat 19 16 ∧ t.dev.ring n = { cmdPh := true, cplPh := true } ∧
         (∀ m, m ≠ n → t.dev.ring m = s.dev.ring m) ∧ t.dev.mem = s.dev.mem) ∧
     (ringOn s.dev n.val = false → ¬ (log (bits v.toNat 23 20) ∧ log (bits v.toNat 19 16)) →
       ∃ t, exec (.ringEnable n v) s = .next t ∧ ringOn t.dev n.val = false ∧ t.dev.flag .ttRingStat [n.val] 31 = true ∧
         t.dev.tt = s.dev.tt) ∧
     (ringOn s.dev n.val = true → exec (.ringEnable n v) s = .next s ∧
       exec (.ringDisable n) s = .next (s.put (s.dev.setFld .ttRingCfg [n.val] 31 31 0))) ∧
     (∀ (c : Fin 128) (x : BitVec 24), ∃ t, exec (.counterWrite c x) s = .next t ∧ t.dev.fld .ttCnt [c.val] 23 0 = x.toNat ∧
       t.dev.tt = s.dev.tt ∧ t.dev.cores = s.dev.cores) ∧
     (∀ en : Bool, ∃ t, exec (.ttEnable en) s = .next t ∧ t.dev.flag .ttCtl [] 0 = en ∧ t.dev.tt = s.dev.tt ∧ t.dev.cores = s.dev.cores)) ∧
  (∀ (s : State) (n : Fin 16) (host : List Host.Cell), s.dev.stop = none →
     let d := s.dev.hostPut host
     let r := d.ring n
     let base := cmdBase d n.val
     let at_ (i : Nat) : List Byte := rdCells 0#8 d.hostMem (base + 64 + 64 * i) 64
     let new (i : Nat) (ph : Bool) : Bool := ((at_ i).getD 1 0#8).getLsbD 0 == ph
     let j := (r.cmdIdx + 1) % 2 ^ cmdLog d n.val
     let ph := if j = 0 then !r.cmdPh else r.cmdPh
     (s.dev.flag .ttCtl [] 0 = false → exec (.ringPoll host) s = .next (s.put d)) ∧
     (s.dev.flag .ttCtl [] 0 = true → s.dev.flt.forced = false → s.dev.flt.mario = none → s.dev.flt.recEn = false →
       s.dev.tt.fetched = [] → ringOn d n.val = true → (∀ m, m ≠ n → ringOn d m.val = false) → ringLoc d n.val = false →
       d.master = true →
       (new r.cmdIdx r.cmdPh = false → exec (.ringPoll host) s = .next (s.put (d.setRing n
         { r with consumed := leNat (rdCells 0#8 d.hostMem (base + 8) 8) }))) ∧
       (new r.cmdIdx r.cmdPh = true → new j ph = false → d.entriesUsed < 1024 → r.fetched + 1 < 2 ^ 64 →
         1 ≤ recNat (at_ r.cmdIdx) 0 1 → recNat (at_ r.cmdIdx) 0 1 ≤ 3 → ∃ t, exec (.ringPoll host) s = .next t ∧
         t.dev.tt.fetched = [(n.val, at_ r.cmdIdx)] ∧
         t.dev.ring n = { r with cmdIdx := j, cmdPh := ph, fetched := r.fetched + 1
                                 consumed := leNat (rdCells 0#8 d.hostMem (base + 8) 8) } ∧
         leNat (rdCells 0#8 t.dev.hostMem base 8) = r.fetched + 1 ∧ t.dev.tt.entries = s.dev.tt.entries ∧
         (∀ a, a < base ∨ base + 8 ≤ a → spGet 0#8 t.dev.hostMem a = spGet 0#8 d.hostMem a) ∧ t.dev.mem = s.dev.mem)) ∧
     (s.dev.flag .ttCtl [] 0 = true → s.dev.flt.forced = false → s.dev.flt.mario = none → s.dev.flt.recEn = false →
       s.dev.tt.fetched = [] → ringOn d n.val = true → (∀ m, m ≠ n → ringOn d m.val = false) → ringLoc d n.val = true →
       s.dev.flag .memGctl [] 31 = true → base + 64 + 64 * 2 ^ cmdLog d n.val ≤ 0x3F0000000 → r.cmdIdx < 2 ^ cmdLog d n.val →
       d.entriesUsed < 1024 → r.fetched + 1 < 2 ^ 64 →
       let at_ (i : Nat) : List Byte := s.dev.mem.rdN (base + 64 + 64 * i) 64
       ((at_ r.cmdIdx).getD 1 0#8).getLsbD 0 = r.cmdPh → ((at_ j).getD 1 0#8).getLsbD 0 ≠ ph →
       1 ≤ recNat (at_ r.cmdIdx) 0 1 → recNat (at_ r.cmdIdx) 0 1 ≤ 3 → ∃ t, exec (.ringPoll host) s = .next t ∧
         t.dev.tt.fetched = [(n.val, at_ r.cmdIdx)] ∧
         t.dev.ring n = { r with cmdIdx := j, cmdPh := ph, fetched := r.fetched + 1
                                 consumed := leNat (s.dev.mem.rdN (base + 8) 8) } ∧
         leNat (t.dev.mem.rdN base 8) = r.fetched + 1 ∧
         (∀ a, a < base ∨ base + 8 ≤ a → t.dev.mem.rd a = s.dev.mem.rd a) ∧ t.dev.hostMem = d.hostMem))

/-- R244, R245: the record at the front enters the table at a free index with the next fetch number; one that breaks a rule completes at
once with COMMAND_INVALID, which its completion record carries. The model's choices it rests on: log 24. -/
def Obligations.RecordsEnter : Prop :=
  ∀ e ∈ ([(.task, 1), (.load, 2), (.mark, 3)] : List ((Fin 16 → List Byte → Instr) × Nat)),
    ∀ (s : State) (n : Fin 16) (r : List Byte), s.dev.stop = none → s.dev.tt.fetched = [(n.val, r)] → recNat r 0 1 = e.2 →
      s.dev.flt.recEn = false →
      let x := parseEntry n.val s.dev.tt.fetchSeq r
      let i := s.dev.freeIndex
      s.dev.entry i = none →
      (recordOk s.dev r = true → ∃ t, exec (e.1 n r) s = .next t ∧ t.dev.tt.entries = s.dev.tt.entries ++ [(i, x)] ∧
        t.dev.tt.fetchSeq = s.dev.tt.fetchSeq + 1 ∧ t.dev.tt.fetched = [] ∧ t.dev.cores = s.dev.cores ∧ t.dev.mem = s.dev.mem) ∧
      (recordOk s.dev r = false → x.cpl = true → ∃ t, exec (e.1 n r) s = .next t ∧
        t.dev.tt.entries = s.dev.tt.entries ++ [(i, { x with phase := .finished, status := 0x15#8, done := s.dev.tb })] ∧
        t.dev.tt.finish = s.dev.tt.finish ++ [i] ∧ t.dev.cores = s.dev.cores ∧ t.dev.mem = s.dev.mem) ∧
      (recordOk s.dev r = false → x.cpl = false → ∃ t, exec (e.1 n r) s = .next t ∧
        (t.dev.tt.entries.any (fun y => y.1 == i)) = false ∧ t.dev.cores = s.dev.cores ∧
        (∀ c, x.signal = some c → t.dev.fld .ttCnt [c] 23 0 = (s.dev.fld .ttCnt [c] 23 0 + 1) % 2 ^ 24))

/-- R246, R247, R414: the ready entries stand in the order of CLASS, then of their fetch numbers; the first of them that can start does,
on the lowest idle core it names that no load holds back, a SPREAD entry whose cores are all idle on every one of them; where the first
cannot start, the next does on a core the first does not hold; a SPREAD entry with a busy core starts nothing and holds its idle cores;
with dispatch off nothing starts. The model's choices it rests on: log 39. -/
def Obligations.TasksDispatch : Prop :=
  ∀ (s : State), s.dev.stop = none →
    let starts (t : State) (i : Nat) (e : TEntry) (k : Nat) (p : Fin 7) : Prop :=
      let c := t.dev.core p
      c.mode = .running ∧ c.pc = e.start ∧ c.s 1 = BitVec.ofNat 64 e.arg0 ∧ c.s 2 = BitVec.ofNat 64 e.arg1 ∧
      c.s 3 = (if e.pl then 1#64 else 0#64) ∧ c.s 4 = BitVec.ofNat 64 k ∧ c.s 5 = BitVec.ofNat 64 i ∧
      (∀ x, 5 < x → c.s x = 0#64) ∧ c.flags = 0#64 ∧ c.tiles = 0 ∧ c.vregs = [] ∧ c.entry = i ∧ c.jobId = e.jobId ∧ c.cyc = 0
    (s.dev.flag .ttCtl [] 0 = false → s.dev.flt.mario = none → exec .taskDispatch s = .next s) ∧
    (s.dev.order.Pairwise (fun x y => y.2.cls < x.2.cls ∨ (y.2.cls = x.2.cls ∧ x.2.seq ≤ y.2.seq)) ∧
      ∀ x, x ∈ s.dev.order ↔ x ∈ s.dev.tt.entries ∧ x.2.phase = .waiting ∧ x.2.op = 1 ∧ x.2.ready s.dev = true) ∧
    (∀ (i : Nat) (e : TEntry) (rest : List (Nat × TEntry)) (k : Nat) (p : Fin 7), s.dev.flag .ttCtl [] 0 = true →
      s.dev.flt.forced = false → s.dev.flt.lost = [] → s.dev.order = (i, e) :: rest →
      (∀ x ∈ rest, ∃ j, j < 6 ∧ bit x.2.cores j = true) → s.dev.entry i = some e → e.spread = false →
      k < 6 → bit e.cores k = true → s.dev.idleCore k = true → s.dev.loadBlocks e.seq k = false →
      (∀ j, j < k → bit e.cores j = true → s.dev.idleCore j = false ∨ s.dev.loadBlocks e.seq j = true) →
      s.dev.slotOf k = p.val → (s.dev.core p).held = [] → ∃ t, exec .taskDispatch s = .next t ∧ starts t i e k p ∧
        (∀ q, q ≠ p → t.dev.core q = s.dev.core q) ∧ t.dev.mem = s.dev.mem ∧
        (∃ y, t.dev.entry i = some y ∧ y.phase = .running ∧ y.live = [k] ∧ y.ran = 2 ^ k ∧ y.tag = e.tag)) ∧
    (∀ (i : Nat) (e : TEntry) (rest : List (Nat × TEntry)), s.dev.flag .ttCtl [] 0 = true → s.dev.flt.forced = false →
      s.dev.flt.lost = [] → s.dev.order = (i, e) :: rest → (∀ x ∈ rest, ∃ j, j < 6 ∧ bit x.2.cores j = true) →
      s.dev.entry i = some e → e.spread = true → (∀ j k, j < 6 → k < 6 → s.dev.slotOf j = s.dev.slotOf k → j = k) →
      (∀ k, k < 6 → bit e.cores k = true → s.dev.idleCore k = true ∧ s.dev.loadBlocks e.seq k = false ∧
        ∃ p : Fin 7, s.dev.slotOf k = p.val ∧ (s.dev.core p).held = []) → ∃ t, exec .taskDispatch s = .next t ∧
        (∀ (k : Nat) (p : Fin 7), k < 6 → bit e.cores k = true → s.dev.slotOf k = p.val → starts t i e k p) ∧
        (∀ q : Fin 7, (∀ k, k < 6 → bit e.cores k = true → s.dev.slotOf k ≠ q.val) → t.dev.core q = s.dev.core q) ∧
        t.dev.mem = s.dev.mem ∧ ∃ y, t.dev.entry i = some y ∧ y.phase = .running ∧ y.tag = e.tag ∧
          ∀ k, k ∈ y.live ↔ k < 6 ∧ bit e.cores k = true) ∧
    (∀ (i j : Nat) (e f : TEntry) (rest : List (Nat × TEntry)), s.dev.flag .ttCtl [] 0 = true → s.dev.flt.forced = false →
      s.dev.flt.lost = [] → s.dev.order = (i, e) :: (j, f) :: rest →
      (∀ x ∈ s.dev.order, ∃ k, k < 6 ∧ bit x.2.cores k = true) → s.dev.entry j = some f → f.spread = false →
      (e.spread = true → ∃ k, k < 6 ∧ bit e.cores k = true ∧ s.dev.idleCore k = false) →
      (e.spread = false → ∀ k, k < 6 → bit e.cores k = true → s.dev.idleCore k = false ∨ s.dev.loadBlocks e.seq k = true) →
      let free (k : Nat) : Prop := k < 6 ∧ bit f.cores k = true ∧ s.dev.idleCore k = true ∧ s.dev.loadBlocks f.seq k = false ∧
        ¬ (e.spread = true ∧ bit e.cores k = true)
      (∀ (k : Nat) (p : Fin 7), free k → (∀ l, l < k → ¬ free l) → s.dev.slotOf k = p.val → (s.dev.core p).held = [] →
        ∃ t, exec .taskDispatch s = .next t ∧ starts t j f k p ∧ (∀ q, q ≠ p → t.dev.core q = s.dev.core q) ∧ t.dev.mem = s.dev.mem) ∧
      ((∀ k, ¬ free k) → rest = [] → ∃ t, exec .taskDispatch s = .next t ∧ t.dev.cores = s.dev.cores ∧
        t.dev.tt.entries = s.dev.tt.entries)) ∧
    (∀ (i : Nat) (e : TEntry), s.dev.flag .ttCtl [] 0 = true → s.dev.flt.forced = false → s.dev.flt.lost = [] →
      s.dev.order = [(i, e)] → e.spread = true → (∃ k, k < 6 ∧ bit e.cores k = true ∧ s.dev.idleCore k = false) →
      ∃ t, exec .taskDispatch s = .next t ∧ t.dev.cores = s.dev.cores ∧ t.dev.tt.entries = s.dev.tt.entries ∧ i ∈ t.dev.tt.holding)

/-- R248, R249: a load that is ready runs, and when done its image lies at its bundles of the core it names; a mark completes once
nothing fetched before it from its ring is open. R89, R123, R196, R250: an instance that has ended and has nothing outstanding reports,
and its core is idle; the last instance's report finishes the task with its status; while a transfer is outstanding nothing happens.
R245, R246, R250, R251: the record of a ring's oldest finished command is written to its completion ring, its counter moves and its
entry is free; no record is written while the ring is full; a record with IRQ, or the end of the moderation time, signals the ring's
vector. The model's choices it rests on: log 75, 80. -/
def Obligations.TaskCompletion : Prop :=
  (∀ (s : State) (i : Fin 1024) (e : TEntry), s.dev.stop = none → s.dev.tt.entries = [(i.val, e)] → s.dev.flt.recEn = false →
     (s.dev.flag .ttCtl [] 0 = true → s.dev.flt.forced = false → s.dev.flt.lost = [] → e.op = 2 → e.phase = .waiting →
       e.waitsOk s.dev = true → (∀ k, k < 6 → bit e.cores k = true → s.dev.idleCore k = true) →
       exec .loadStart s = .next (s.put { s.dev with tt := { s.dev.tt with entries := [(i.val, { e with phase := .running })] } })) ∧
     (∀ k, k < 6 → e.op = 2 → e.phase = .running → e.cores = 2 ^ k → e.cfg = 0 → e.cpl = true →
       ∃ t, exec (.loadComplete i) s = .next t ∧
         (∀ x, x < e.arg1 →
           t.dev.mem.rd (0x900800000 + s.dev.slotOf k * 0x1000000 + 64 * e.start + x) = s.dev.mem.rd (e.arg0 + x)) ∧
         t.dev.tt.entries = [(i.val, { e with phase := .finished, done := s.dev.tb, status := 0#8, nflags := 0#8, ran := 0 })] ∧
         t.dev.tt.finish = s.dev.tt.finish ++ [i.val] ∧ t.dev.cores = s.dev.cores) ∧
     (e.op = 3 → e.phase = .waiting → e.cpl = true → e.waitsOk s.dev = true → ∃ t, exec .markComplete s = .next t ∧
       t.dev.tt.entries = [(i.val, { e with phase := .finished, done := s.dev.tb, status := 0#8, nflags := 0#8, ran := 0 })] ∧
       t.dev.tt.finish = s.dev.tt.finish ++ [i.val] ∧ t.dev.cores = s.dev.cores ∧ t.dev.mem = s.dev.mem) ∧
     (e.op = 3 → e.waitsOk s.dev = false → exec .markComplete s = .next s)) ∧
  (∀ (s : State) (p : Fin 7) (i : Nat) (e : TEntry) (k : Nat), s.dev.stop = none → s.dev.flt.recEn = false →
     let c := s.dev.core p
     (c.wk2 ≠ [] → exec (.taskComplete p) s = .next s) ∧
     (c.busy = true → c.ended = true → c.frozen = false → c.wk0 = [] → c.wk1 = [] → c.wk2 = [] → c.quiet = true → c.takenAt = none → c.entry = i →
       s.dev.logicalOf p.val = k → s.dev.entry i = some e → s.dev.tt.entries = [(i, e)] → e.cpl = true → e.live = [k] →
       ∃ t st, exec (.taskComplete p) s = .next t ∧ (t.dev.core p).mode = .idle ∧ (t.dev.core p).watches = [] ∧
         (t.dev.core p).sregs = c.sregs ∧ (∀ q, q ≠ p → t.dev.core q = s.dev.core q) ∧ t.dev.mem = s.dev.mem ∧
         t.dev.tt.finish = s.dev.tt.finish ++ [i] ∧
         (∃ y, t.dev.tt.entries = [(i, y)] ∧ y.phase = .finished ∧ y.status = st ∧ y.done = s.dev.tb ∧ y.ran = e.ran ∧ y.tag = e.tag ∧
           (e.ends = [] → y.nflags = c.nflags ||| c.nfUnion)) ∧
         (e.ends = [] → ∀ x, c.abort = some x → aborting x = true → st = x) ∧
         (e.ends = [] → c.abort = none → c.carryBad = false → c.nflags ||| c.nfUnion = 0#8 → c.emptyOut = false →
           c.taken = false → c.replayed = false → c.parity = false → st = 0#8))) ∧
  (∀ (s : State) (n : Fin 16) (i : Nat) (e : TEntry), s.dev.stop = none →
     let r := s.dev.ring n
     let at_ := cplBase s.dev n.val + 16 * r.cplIdx
     let j := (r.cplIdx + 1) % 2 ^ cplLog s.dev n.val
     (s.dev.tt.finish = [i] → s.dev.entry i = some e → e.ring = n.val → s.dev.cplFull n = true →
       exec (.completionRecordWrite n) s = .next s) ∧
     (s.dev.tt.finish = [i] → s.dev.entry i = some e → e.ring = n.val → s.dev.cplFull n = false → ringLoc s.dev n.val = false →
       s.dev.master = true → ∃ t, exec (.completionRecordWrite n) s = .next t ∧
         rdCells 0#8 t.dev.hostMem at_ 16 = [e.status, (if r.cplPh then 1#8 else 0#8), e.nflags, BitVec.ofNat 8 e.ran] ++
           leBytes 4 e.tag ++ leBytes 2 e.jobId ++ [BitVec.ofNat 8 e.ring, 0#8] ++ leBytes 4 e.done ∧
         (∀ a, a < at_ ∨ at_ + 16 ≤ a → spGet 0#8 t.dev.hostMem a = spGet 0#8 s.dev.hostMem a) ∧
         (t.dev.ring n).cplIdx = j ∧ (t.dev.ring n).cplPh = (if j = 0 then !r.cplPh else r.cplPh) ∧
         (t.dev.ring n).written = r.written + 1 ∧ t.dev.entry i = none ∧ t.dev.tt.finish = [] ∧
         (∀ c, e.signal = some c → t.dev.fld .ttCnt [c] 23 0 = (s.dev.fld .ttCnt [c] 23 0 + 1) % 2 ^ 24) ∧
         (e.irq = true → s.dev.flag .ttRingIrq [n.val] 31 = true → s.dev.pci.msixEn = true → s.dev.pci.msixMask = false →
           s.dev.pci.pba = 0#64 → s.dev.pci.vecMasked (s.dev.fld .ttRingIrq [n.val] 21 16) = false →
           t.dev.pci.msgs = s.dev.pci.msgs ++ [s.dev.fld .ttRingIrq [n.val] 21 16])) ∧
     (s.dev.flag .ttRingIrq [n.val] 31 = true → r.timer = true → s.dev.pci.msixEn = false → ∃ t,
       exec (.irqModerationTimeout n) s = .next t ∧ (t.dev.ring n).unsig = 0 ∧ (t.dev.ring n).timer = false ∧
       t.dev.pci.pba = s.dev.pci.pba ||| (1#64 <<< s.dev.fld .ttRingIrq [n.val] 21 16) ∧ t.dev.tt.entries = s.dev.tt.entries) ∧
     (r.timer = false → exec (.irqModerationTimeout n) s = .next s))

/-! ## Arbitration -/

/-- R257, R259: an AMO on an aligned Commons word stores its result; LR reserves the 64-byte granule; SC stores only while its hart's
reservation holds, and ends it; a store by another hart ends a reservation of its granule; at 2^48 and above the access faults (R44).
The model's choices it rests on: log 25. -/
def Obligations.StaffCoreAtomics : Prop :=
  (∀ (s : State) (h : Hart) (a : Nat) (v : W64), s.dev.stop = none → 2 ^ 48 ≤ a →
    let faults (i : Instr) (e : StaffExc) : Prop := ∃ t, exec i s = .next t ∧ t.dev.staff[h].exc = some (e, a) ∧
      t.dev.mem = s.dev.mem ∧ t.dev.com = s.dev.com ∧ t.dev.regs = s.dev.regs
    (∀ (op : AmoOp) (wide : Bool), faults (.staffCoreAmo h op wide a v) .storeAccess) ∧
    (∀ wide : Bool, faults (.staffCoreLr h wide a) .loadAccess ∧ faults (.staffCoreSc h wide a v) .storeAccess)) ∧
  ∀ (s : State) (h : Hart) (a : Nat) (v : W64), s.dev.stop = none → s.dev.poison = [] → 0x800000000 ≤ a → a + 8 ≤ 0x801000000 →
    a % 8 = 0 →
    let old := leNat (s.dev.mem.rdN a 8)
    let g := a / 64 * 64
    let frame (t : State) : Prop := (∀ x, x < a ∨ a + 8 ≤ x → t.dev.mem.rd x = s.dev.mem.rd x) ∧ t.dev.regs = s.dev.regs ∧
      t.dev.cores = s.dev.cores
    (∀ op : AmoOp, ∃ t, exec (.staffCoreAmo h op true a v) s = .next t ∧ frame t ∧
      (∀ k, k ≠ h.val → (k, g) ∉ t.dev.com.resv) ∧
      leNat (t.dev.mem.rdN a 8) = (match op with
        | .swap => v.toNat | .add => (old + v.toNat) % 2 ^ 64 | .xor => old ^^^ v.toNat | .and => old &&& v.toNat
        | .or => old ||| v.toNat
        | .min => if (BitVec.ofNat 64 old).toInt ≤ v.toInt then old else v.toNat
        | .max => if (BitVec.ofNat 64 old).toInt ≤ v.toInt then v.toNat else old
        | .minu => min old v.toNat | .maxu => max old v.toNat)) ∧
    (∃ t, exec (.staffCoreLr h true a) s = .next t ∧ (h.val, g) ∈ t.dev.com.resv ∧
      (∀ x, x ≠ g → (h.val, x) ∉ t.dev.com.resv) ∧ (∀ k x, k ≠ h.val → ((k, x) ∈ t.dev.com.resv ↔ (k, x) ∈ s.dev.com.resv)) ∧
      t.dev.mem = s.dev.mem ∧ t.dev.regs = s.dev.regs) ∧
    ((h.val, g) ∈ s.dev.com.resv → ∃ t, exec (.staffCoreSc h true a v) s = .next t ∧ frame t ∧
      leNat (t.dev.mem.rdN a 8) = v.toNat ∧ (∀ x, (h.val, x) ∉ t.dev.com.resv) ∧ (∀ k, (k, g) ∉ t.dev.com.resv)) ∧
    ((h.val, g) ∉ s.dev.com.resv → ∃ t, exec (.staffCoreSc h true a v) s = .next t ∧ t.dev.mem = s.dev.mem ∧
      (∀ x, (h.val, x) ∉ t.dev.com.resv) ∧ t.dev.regs = s.dev.regs)

/-- R260-R264: a request is presented with its age; a free arbiter grants the only request and moves its first beat in the next cycle;
of two, the higher class, else the older, else the lower requester; a hall pass of class 0 or 1 is revoked by a request of class 2 or 3,
and keeps its progress; a port that still presents a request presents no other (R262); in H4 mode the decision goes by the panic, the
Recess window and the full queues of the cycle before, and a request withdrawn after the decision is a lost cycle, in which it still
revokes; requests that a full queue of a stack channel holds are not granted (R323, R325); those of a real-time port rank by its panic
(R328); the mode reaches arbiters that hold no hall pass. The model's choices it rests on: log 39, 51, 94. -/
def Obligations.ArbiterDecisions : Prop :=
  ∀ (s : State) (i : Fin 84), s.dev.stop = none →
    let a := s.arbs[i]
    let e := s.dev.arbEnv i.val
    let v := a.view e
    let with_ (b : Arb) : State := { s with arbs := s.arbs.set i b }
    let passed (b : Arb) : State := with_ { b with clock := a.clock + 1, seen := e.now }
    let ranked (r : ArbReq) : ArbReq := if isPort r.req r.cls then { r with cls := if v.panic.contains r.req then 3 else 2 } else r
    let due (x : ArbReq) : Prop := a.h4 = false ∨ x.age + 2 ≤ a.clock
    (e.now.up = s.dev.recess ∧ ∀ q, q < 13 → (q ∈ e.now.panic ↔ s.dev.flag .memRtThr [q] 30 = true)) ∧
    (a.h4 = false → v = e.now) ∧ (a.h4 = true → v = a.seen) ∧
    (∀ (q : Nat) (cls : Fin 4) (n : Nat) (wr : Bool), 1 ≤ n → n ≤ 16 →
      (a.stalled q = false → exec (.arbiterRequest i q cls (.transfer n wr)) s = .next (with_
        { a with stall := a.stall ++ [{ req := q, cls := cls.val, beats := n, moved := 0, write := wr, age := a.clock }] })) ∧
      (a.stalled q = true → exec (.arbiterRequest i q cls (.transfer n wr)) s = .next (with_ a)) ∧
      (a.h4 = false → exec (.arbiterRequest i q cls .withdraw) s = .next (with_
        { a with stall := a.stall.filter (fun x => x.req != q) }))) ∧
    (s.dev.pwr.commonsOff = false →
      (∀ x, a.holder = none → a.bench = [] → a.stall = [x] → x.gone = none → v.held (ranked x) = false →
        (due x → exec (.arbiterGrant i) s = .next (passed { a with holder := some (ranked x), stall := [] })) ∧
        (¬ due x → exec (.arbiterGrant i) s = .next (passed { a with stall := [ranked x] }))) ∧
      (∀ x, a.holder = none → a.bench = [] → a.stall = [x] → a.h4 = true → x.gone ≠ none → due x →
        v.held (ranked x) = false → exec (.arbiterGrant i) s = .next (passed { a with stall := [] })) ∧
      (∀ x y, a.holder = none → a.bench = [] → a.stall = [x, y] → due x → due y → v.up = false →
        x.gone = none → y.gone = none → v.held (ranked x) = false → v.held (ranked y) = false →
        (ranked x).cls < (ranked y).cls ∨ ((ranked x).cls = (ranked y).cls ∧ (y.age < x.age ∨ (y.age = x.age ∧ y.req < x.req))) →
        exec (.arbiterGrant i) s = .next (passed { a with holder := some (ranked y), bench := [ranked x], stall := [] })) ∧
      (∀ x, a.holder = some x → x.moved + 1 < x.beats → a.bench = [] →
        (∀ y, a.stall = [y] → due y → e.now.held (ranked x) = false → v.held (ranked y) = false →
          2 ≤ (ranked y).cls → (ranked x).cls < (ranked y).cls → y.req ≠ x.req →
          (y.gone = none → exec (.arbiterGrant i) s = .next (passed
            { a with holder := some (ranked y), bench := [{ ranked x with moved := x.moved + 1 }], stall := [] })) ∧
          (a.h4 = true → y.gone ≠ none → exec (.arbiterGrant i) s = .next (passed
            { a with holder := none, bench := [{ ranked x with moved := x.moved + 1 }], stall := [] }))) ∧
        (a.stall = [] → e.now.held (ranked x) = false →
          exec (.arbiterGrant i) s = .next (passed { a with holder := some { ranked x with moved := x.moved + 1 } })) ∧
        (a.stall = [] → e.now.held (ranked x) = true → v.held (ranked x) = true →
          (e.took ≠ some a.clock → exec (.arbiterGrant i) s = .next (passed { a with holder := none, bench := [ranked x] })) ∧
          (e.took = some a.clock → exec (.arbiterGrant i) s = .next (passed
            { a with holder := none, bench := [{ ranked x with moved := x.moved + 1 }] })))) ∧
      (∀ x, a.holder = some x → x.beats ≤ x.moved + 1 → a.bench = [] → a.stall = [] →
        e.now.held (ranked x) = false ∨ e.took = some a.clock →
          exec (.arbiterGrant i) s = .next (passed { a with holder := none }))) ∧
    (∀ g : Fin 3, ∃ t, exec (.arbModeChange g) s = .next t ∧ t.dev = s.dev ∧
      ∀ k : Fin 84, t.arbs[k] = (if arbGroup k.val = g.val ∧ s.arbs[k].holder = none then
        { s.arbs[k] with h4 := s.dev.flag .ttArbCtl [] g.val } else s.arbs[k]))

/-- R261, R262, and the opening sentence of The arbiter (08_timetable_and_synchronisation.md): whatever step the block takes, no bench
holds more than 4 requests or more than 2 of one requester, and every transfer an arbiter holds has 1 to 16 beats and has moved fewer. -/
def Obligations.ArbitersStayBounded : Prop :=
  ∀ s t : State, (∀ i : Fin 84, arbOk s.arbs[i] = true) → step s = .next t → ∀ i : Fin 84, arbOk t.arbs[i] = true

/-- The same holds at reset. -/
def Obligations.ArbitersBoundedAtReset : Prop :=
 ∀ i : Fin 84, arbOk State.reset.arbs[i] = true

/-! ## Media -/

/-- R274-R276, R282: on the one stream of a port's virtual channel, a frame start opens a frame in a free buffer with the timebase and
counts a frame dropped without one; a line is taken, padded with its last pixel, and flagged when short or damaged; the frame end hands
the frame, missing lines copied, to its pipeline; a header with two errors is counted and discarded; while the receive buffer has room.
The model's choices it rests on: log 40, 51. -/
def Obligations.CaptureFrames : Prop :=
  ∀ (s : State) (port : Fin 4) (vc : Fin 16) (k : Nat) (x : StreamSt), s.dev.stop = none → portOn s.dev port.val = true →
    streamsAt s.dev port.val vc.val = [k] → s.dev.stream k = some x →
    let shown (q : Nat) (t : State) : Prop := ∀ r i, regOff r i ∉ [regOff .capPortErr [port.val], regOff .memRtThr [q]] →
      t.dev.rg r i = s.dev.rg r i
    (∀ (no : BitVec 16) (i : Nat), s.dev.rtFull port.val 1 = false → x.frame = none → keyed s.dev.med.portHold port.val = none → keyed s.dev.med.vcHold k = none →
      4 ≤ vcSync s.dev k → s.dev.flt.forced = false → vcByp s.dev k = true → s.dev.med.easel.binds = [] →
      s.dev.freeBuf k x = some i → ∃ t y, exec (.csiFrameStart port vc no 0 false) s = .next t ∧ t.dev.stream k = some y ∧
        y.frame = some { fid := x.fids, ts := s.dev.tb, no := no.toNat, dt := vcDt s.dev k, port := port.val, buf := i } ∧
        y.fids = x.fids + 1 ∧ (∃ b ∈ y.bufs, b.ix = i ∧ b.busy = true) ∧ t.dev.mem = s.dev.mem ∧ shown port.val t) ∧
    (∀ no : BitVec 16, s.dev.rtFull port.val 1 = false → x.frame = none → keyed s.dev.med.portHold port.val = none → keyed s.dev.med.vcHold k = none →
      4 ≤ vcSync s.dev k → s.dev.freeBuf k x = none → exec (.csiFrameStart port vc no 0 false) s =
        .next (s.put (s.dev.incSat .capVcStat [k] 23 12 1))) ∧
    (∀ (no : BitVec 16) (full : Bool), exec (.csiFrameStart port vc no 2 full) s =
      .next (s.put (s.dev.incSat .capPortErr [port.val] 15 8 1))) ∧
    (∀ (f : CapFrame) (data : List Byte), vcDt s.dev k = 0x2A → x.frame = some f → f.dt = 0x2A → f.lines.length < x.height →
      0 < data.length → data.length ≤ x.width → s.dev.rtFull port.val data.length = false → ∀ bad : Bool, ∃ t y,
        exec (.csiLinePacket port vc 0x2A#6 0 bad false data) s = .next t ∧ t.dev.stream k = some y ∧
        (∃ g, y.frame = some g ∧ g.lines = f.lines ++ [data.map (·.toNat) ++
            List.replicate (x.width - data.length) (data.getLastD 0#8).toNat] ∧
          g.flags = f.flags ||| (if bad then 1#8 else 0#8) ||| (if data.length < x.width then 2#8 else 0#8) ∧ g.ts = f.ts ∧
          g.port = f.port ∧ (f.port = port.val → t.dev.rtUsed port.val = min (s.dev.rtUsed port.val + g.lineLen) 131072)) ∧
        t.dev.fld .capPortErr [port.val] 23 16 = (if bad then min (s.dev.fld .capPortErr [port.val] 23 16 + 1) 255
          else s.dev.fld .capPortErr [port.val] 23 16) ∧
        t.dev.mem = s.dev.mem ∧ shown f.port t) ∧
    (∀ (f : CapFrame) (l : List Nat), s.dev.rtFull port.val 1 = false → x.frame = some f → vcByp s.dev k = false → f.lines.getLast? = some l → f.lines.length ≤ x.height →
      ∃ t y g, exec (.csiFrameEnd port vc 0 false) s = .next t ∧ t.dev.stream k = some y ∧ y.frame = none ∧
        t.dev.med.pipes[vcPipe s.dev k].queue = s.dev.med.pipes[vcPipe s.dev k].queue ++ [(k, g)] ∧
        g.lines = f.lines ++ List.replicate (x.height - f.lines.length) l ∧ g.ts = f.ts ∧ g.buf = f.buf ∧
        g.port = f.port ∧ g.flags = f.flags ||| (if f.lines.length < x.height then 2#8 else 0#8) ∧ t.dev.mem = s.dev.mem ∧
        shown port.val t)

/-- R273, R275, R293: a port is enabled with 1, 2 or 4 lanes at 80 to 4,500 Mb/s, else refused with CFGERR; a stream's enable is refused
without an open capture stream; a refused write leaves EN as it is; PORT_ERR_CLEAR and VC_STAT_CLEAR clear their counts and leave CFGERR
and TLOST. R277, R278: a TB_PPS edge less than 999 ms after the last is ignored; an accepted one applies a pending load, steps the
counter forward when it is more than 1 ms behind and else slews it, and locks SRC 2 within 1 us; holdover unlocks; a load acts at once
where no TB_PPS steers. R279, R280: an enabled FSYNC output's edge, at its instant and not before, opens its trigger window where WIN is
not 0 and fixes the next edge a multiple of PERIOD on; at the window's end each enabled stream that names the output and had no frame
start in it has missed, and the third miss in a row sets TLOST. The model's choices it rests on: log 46. -/
def Obligations.CaptureControl : Prop :=
  (∀ (s : State) (p : Fin 4) (k : Fin 16) (v : W32), s.dev.stop = none → bit v.toNat 31 = true →
     let ok : Prop := bits v.toNat 17 16 ≠ 3 ∧ 80 ≤ bits v.toNat 12 0 ∧ bits v.toNat 12 0 ≤ 4500
     let err (t : State) (q : Nat) : Prop := t.dev.flag .capPortErr [q] 30 = true
     (portOn s.dev p.val = false → ok → ∃ t, exec (.portEnable p v) s = .next t ∧ portOn t.dev p.val = true ∧
       t.dev.fld .capPortCfg [p.val] 17 16 = bits v.toNat 17 16 ∧ t.dev.fld .capPortCfg [p.val] 12 0 = bits v.toNat 12 0 ∧
       t.dev.med = s.dev.med ∧ t.dev.mem = s.dev.mem) ∧
     (portOn s.dev p.val = false → ¬ ok → ∃ t, exec (.portEnable p v) s = .next t ∧ portOn t.dev p.val = false ∧ err t p.val) ∧
     (vcOn s.dev k.val = false → s.dev.stream k.val = none → ∃ t, exec (.streamEnable k v) s = .next t ∧ vcOn t.dev k.val = false ∧
       err t (bits v.toNat 30 29) ∧ t.dev.med = s.dev.med) ∧
     (vcOn s.dev k.val = false → vcOk s.dev k.val v.toNat = true → ∃ t, exec (.streamEnable k v) s = .next t ∧
       vcOn t.dev k.val = true ∧ vcPort t.dev k.val = bits v.toNat 30 29 ∧ vcVc t.dev k.val = bits v.toNat 23 20 ∧
       vcDt t.dev k.val = bits v.toNat 19 14 ∧ t.dev.med = s.dev.med ∧ t.dev.mem = s.dev.mem) ∧
     (∃ t, exec (.portErrClear p) s = .next t ∧ t.dev.fld .capPortErr [p.val] 23 0 = 0 ∧
       t.dev.flag .capPortErr [p.val] 30 = s.dev.flag .capPortErr [p.val] 30 ∧ t = s.put (s.dev.setRg .capPortErr [p.val] (t.dev.rg .capPortErr [p.val]))) ∧
     (∃ t, exec (.vcStatClear k) s = .next t ∧ t.dev.fld .capVcStat [k.val] 23 0 = 0 ∧
       t.dev.flag .capVcStat [k.val] 30 = s.dev.flag .capVcStat [k.val] 30 ∧ t = s.put (s.dev.setRg .capVcStat [k.val] (t.dev.rg .capVcStat [k.val])))) ∧
  (∀ s : State, s.dev.stop = none →
     let err : Int := if s.dev.tb % 1000000000 ≤ 500000000 then ((s.dev.tb % 1000000000 : Nat) : Int)
       else ((s.dev.tb % 1000000000 : Nat) : Int) - 1000000000
     (tbSrc s.dev < 2 → exec .ppsEdge s = .next s) ∧
     (∀ e, s.dev.med.lastPps = some e → s.dev.now < e + 999000000 → exec .ppsEdge s = .next s) ∧
     (2 ≤ tbSrc s.dev → s.dev.med.lastPps = none → s.dev.flag .capTbCtl [] 2 = true → ∃ t, exec .ppsEdge s = .next t ∧
       t.dev.tb = (s.dev.rg .capTbSet []).toNat * 1000000000 ∧ t.dev.flag .capTbCtl [] 2 = false ∧ t.dev.flag .capTbCtl [] 30 = false ∧
       t.dev.med.lastPps = some s.dev.now) ∧
     (2 ≤ tbSrc s.dev → s.dev.med.lastPps = none → s.dev.flag .capTbCtl [] 2 = false → ∃ t, exec .ppsEdge s = .next t ∧
       (err < -1000000 → (t.dev.tb : Int) = s.dev.tb - err ∧ t.dev.med.tbSlew = 0 ∧
         t.dev.fld .capTbCtl [] 15 8 = (s.dev.fld .capTbCtl [] 15 8 + 1) % 256) ∧
       (-1000000 ≤ err → t.dev.tb = s.dev.tb ∧ t.dev.med.tbSlew = err ∧ t.dev.fld .capTbCtl [] 15 8 = s.dev.fld .capTbCtl [] 15 8) ∧
       (-1000 ≤ err → err ≤ 1000 → tbSrc s.dev = 2 → t.dev.flag .capTbCtl [] 31 = true) ∧ t.dev.mem = s.dev.mem) ∧
     (2 ≤ tbSrc s.dev → ∃ t, exec .ppsHoldover s = .next t ∧ t.dev.flag .capTbCtl [] 30 = true ∧ t.dev.flag .capTbCtl [] 31 = false ∧
       t.dev.tb = s.dev.tb ∧ t.dev.med.tbHold = some (s.dev.med.tbHold.getD s.dev.med.tbSlew)) ∧
     (tbSrc s.dev < 2 → ∃ t, exec .timebaseLoad s = .next t ∧ t.dev.tb = (s.dev.rg .capTbSet []).toNat * 1000000000 ∧
       t.dev.flag .capTbCtl [] 2 = false) ∧
     (2 ≤ tbSrc s.dev → ∃ t, exec .timebaseLoad s = .next t ∧ t.dev.tb = s.dev.tb ∧ t.dev.flag .capTbCtl [] 2 = true) ∧
     (∃ t, exec .tb10mLock s = .next t ∧ t.dev.med.tb10m = true ∧ (tbSrc s.dev = 1 → t.dev.flag .capTbCtl [] 31 = true) ∧
       (tbSrc s.dev ≠ 1 → t.dev.regs = s.dev.regs))) ∧
  (∀ (s : State) (n : Fin 4), s.dev.stop = none →
     (s.dev.flag .capFsyncCfg [n.val] 31 = false → exec (.fsyncEdge n) s = .next s) ∧
     (∀ at_, s.dev.flag .capFsyncCfg [n.val] 31 = true → s.dev.med.fsync[n].due = some at_ → s.dev.tb < at_ →
       exec (.fsyncEdge n) s = .next s) ∧
     (∀ at_, s.dev.flag .capFsyncCfg [n.val] 31 = true → s.dev.med.fsync[n].due.getD s.dev.tb = at_ → at_ ≤ s.dev.tb → ∃ t next,
       exec (.fsyncEdge n) s = .next t ∧ s.dev.tb < next ∧ next ≤ s.dev.tb + 1000 * fsyncPeriod s.dev n.val ∧
       (next - at_) % (1000 * fsyncPeriod s.dev n.val) = 0 ∧
       t.dev.med.fsync[n] =
         { edge := some s.dev.tb, due := some next, window := decide (s.dev.fld .capFsyncCfg [n.val] 21 10 ≠ 0), hits := [] } ∧
       (∀ m : Fin 4, m ≠ n → t.dev.med.fsync[m] = s.dev.med.fsync[m]) ∧ t.dev.regs = s.dev.regs ∧ t.dev.mem = s.dev.mem) ∧
     (s.dev.med.fsync[n].window = false → exec (.triggerWindowEnd n) s = .next s) ∧
     (∀ (k : Nat) (x : StreamSt), s.dev.med.fsync[n].window = true → s.dev.med.fsync[n].hits = [] → k < 16 →
       (∀ j, j < 16 → (vcOn s.dev j = true ∧ vcSync s.dev j = n.val ↔ j = k)) → s.dev.stream k = some x → ∃ t y,
         exec (.triggerWindowEnd n) s = .next t ∧ t.dev.med.fsync[n].window = false ∧ t.dev.stream k = some y ∧ y.good = 0 ∧
         y.bad = min (x.bad + 1) 3 ∧ (2 ≤ x.bad → t.dev.flag .capVcStat [k] 30 = true) ∧
         (x.bad < 2 → t.dev.regs = s.dev.regs) ∧ t.dev.mem = s.dev.mem))

/-- R270, R281, R282, R291: a pipeline takes up to 16 lines of a waiting frame, and none while its output buffer has no room; once all
are taken the frame's record, its fields as captured, is written behind its image, the stream's record count and the pipeline's frame
count move by one, and the buffer is no longer being written. -/
def Obligations.PipelineFrames : Prop :=
  ∀ (s : State) (i : Fin 2) (k : Nat) (f : CapFrame) (x : StreamSt), s.dev.stop = none → s.dev.med.pipes[i].queue = [(k, f)] →
    s.dev.stream k = some x → k < 16 →
    ((∀ j, j < 16 → j ≠ k → vcOn s.dev j = false) → f.done < f.lines.length →
      s.dev.rtFull (4 + i.val) (groupBytes s.dev k f (min 16 (f.lines.length - f.done))) = false → ∃ t, exec (.ispLineGroup i) s = .next t ∧
      t.dev.med.pipes[i] = { queue := [(k, { f with done := f.done + min 16 (f.lines.length - f.done) })], last := k } ∧
      t.dev.med.streams = s.dev.med.streams ∧ t.dev.mem = s.dev.mem) ∧
    ((∀ j, j < 16 → j ≠ k → vcOn s.dev j = false) → f.done < f.lines.length →
      s.dev.rtFull (4 + i.val) (groupBytes s.dev k f (min 16 (f.lines.length - f.done))) = true → exec (.ispLineGroup i) s = .next s) ∧
    (f.lines.length ≤ f.done → s.dev.flt.recEn = false → s.dev.med.easel.binds = [] → (∀ a, a < 16 → s.dev.asmOn a = false) →
      x.closing = none → x.recCount + 1 < 2 ^ 64 → ∃ (t : State) (y : StreamSt) (r : FrameRec),
      exec (.ispFrameComplete i) s = .next t ∧ t.dev.med.pipes[i].queue = [] ∧
      t.dev.stream k = some y ∧ y.recCount = x.recCount + 1 ∧ leNat (t.dev.mem.rdN x.recRing 8) = x.recCount + 1 ∧
      t.dev.mem.rdN (x.recRing + 64 + 64 * (x.recCount % 2 ^ x.recLog)) 64 = r.bytes ∧ r.ts = f.ts ∧ r.stream = k ∧ r.flags = f.flags ∧
      r.status = 0#8 ∧ r.no = f.no ∧ r.buf = x.pool + f.buf * x.bufBytes ∧ (∀ b ∈ y.bufs, b.ix = f.buf → b.busy = false) ∧
      t.dev.fld .ispPipeStat [i.val] 15 0 = (s.dev.fld .ispPipeStat [i.val] 15 0 + 1) % 65536)

/-- R284: a poll takes the new entry of the one open decode stream, in order, until the first that is not new, and writes the count;
DATA of a JPEG stream with a header that fits, or of a video stream under its header, joins the engine's queue; a header that does not
fit writes a DECODE_BOUNDS record; EOS of a stream with no picture under way is consumed. R285, R287, R289, R308: an engine starts the
picture at the front of its queue in a free buffer, but not that of a stream above its declared rate while another of the engine's waits
within its own; the completed picture waits for its turn to be output, or is output with its record, and the engine's count moves by
one. The model's choices it rests on: log 50, 72, 98, 99. -/
def Obligations.Decoding : Prop :=
  (∀ (s : State) (k : Fin 144) (x : StreamSt) (e : List Byte), s.dev.stop = none → s.dev.med.streams = [(k.val, x)] → 16 ≤ k.val →
     x.closing = none → s.dev.flt.recEn = false →
     (∀ host : List Host.Cell, x.kind = 2 → x.loc = false → s.dev.master = true → s.dev.flt.mario = none → s.dev.flt.forced = false →
       let m := (s.dev.hostPut host).hostMem
       let at_ (i : Nat) : List Byte := rdCells 0#8 m (x.bsRing + 64 + 32 * i) 32
       let j := (x.bsIdx + 1) % 2 ^ x.bsLog
       let ph := if j = 0 then !x.bsPh else x.bsPh
       bit (recNat (at_ x.bsIdx) 1 1) 0 = x.bsPh → bit (recNat (at_ j) 1 1) 0 ≠ ph → bsEntryOk s.dev false (at_ x.bsIdx) = true →
       x.bsCount + 1 < 2 ^ 64 → ∃ t y, exec (.bitstreamPoll host) s = .next t ∧ t.dev.stream k.val = some y ∧
         y.entries = x.entries ++ [{ bytes := at_ x.bsIdx, ts := s.dev.tb }] ∧ y.bsIdx = j ∧ y.bsPh = ph ∧ y.bsCount = x.bsCount + 1 ∧
         leNat (rdCells 0#8 t.dev.hostMem x.bsRing 8) = x.bsCount + 1 ∧ t.dev.mem = s.dev.mem) ∧
     (∀ (b : BsEntry) (h : SeqHeader) (l : Bool), x.kind = 2 → x.entries = [b] → b.bytes = e → recNat e 0 1 = 1 → x.pics = [] →
       (x.loc = true ∨ s.dev.master = true) → hdrOk x h = true → ∃ t y, exec (.data k e ⟨some h, l⟩) s = .next t ∧ t.dev.stream k.val = some y ∧ y.entries = [] ∧
         y.queue = x.queue ++ [{ b with hdr := some h, damaged := x.loc && s.dev.poisonedN (recNat e 8 8) (recNat e 4 4) }] ∧
         y.hdr = some h ∧ t.dev.mem = s.dev.mem ∧ t.dev.regs = s.dev.regs) ∧
     (∀ (b : BsEntry) (h : SeqHeader) (l : Bool), x.kind = 1 → x.entries = [b] → b.bytes = e → recNat e 0 1 = 1 → x.hdr = some h →
       (x.loc = true ∨ s.dev.master = true) → ∃ t y, exec (.data k e ⟨none, l⟩) s = .next t ∧ t.dev.stream k.val = some y ∧ y.entries = (if l then [] else [b]) ∧
         y.queue = x.queue ++ [{ b with hdr := some h, damaged := x.loc && s.dev.poisonedN (recNat e 8 8) (recNat e 4 4) }] ∧
         t.dev.mem = s.dev.mem ∧ t.dev.regs = s.dev.regs) ∧
     (∀ (b : BsEntry) (h : SeqHeader) (l : Bool), x.kind = 2 → x.entries = [b] → b.bytes = e → recNat e 0 1 = 1 → x.pics = [] →
       (x.loc = true ∨ s.dev.master = true) → hdrOk x h = false → ∃ t y, exec (.data k e ⟨some h, l⟩) s = .next t ∧ t.dev.stream k.val = some y ∧ y.entries = [] ∧
         y.queue = x.queue ∧ y.hdr = none ∧ y.recCount = x.recCount + 1 ∧
         let at_ := x.recRing + 64 + 64 * (x.recCount % 2 ^ x.recLog)
         t.dev.mem.rdN at_ 8 = leBytes 8 b.ts ∧ t.dev.mem.rdN (at_ + 8) 3 = [BitVec.ofNat 8 k.val, 0#8, 0x12#8] ∧
         t.dev.mem.rdN (at_ + 24) 8 = leBytes 8 0 ∧ t.dev.mem.rdN (at_ + 32) 8 = leBytes 8 (recNat e 16 8)) ∧
     (∀ run : DataRun, x.loc = false → s.dev.master = false → exec (.data k e run) s = .next s) ∧
     (∀ b : BsEntry, x.entries = [b] → b.bytes = e → recNat e 0 1 = 2 → x.pics = [] → x.cur = none → ∃ t y,
       exec (.eos k e) s = .next t ∧ t.dev.stream k.val = some y ∧ y.entries = [] ∧ y.recCount = x.recCount ∧ t.dev.mem = s.dev.mem)) ∧
  (∀ (s : State) (k : Fin 144) (x : StreamSt), s.dev.stop = none → s.dev.stream k.val = some x → 16 ≤ k.val → s.dev.flt.recEn = false →
     s.dev.med.easel.binds = [] → (∀ a, a < 16 → s.dev.asmOn a = false) → x.closing = none → x.engine < 7 →
     (∀ (b : BsEntry) (rest : List BsEntry) (h : SeqHeader) (i : Nat), x.kind = 2 → x.queue = b :: rest → b.hdr = some h → x.cur = none →
       s.dev.freeBuf k.val x = some i → s.dev.rtFull (6 + x.engine) 1 = false → x.overRate s.dev.now = false → ∀ from_ : PicStart, ∃ t y p,
       exec (.pictureDecodeStart k from_) s = .next t ∧ t.dev.stream k.val = some y ∧ y.queue = rest ∧
         y.cur = some p ∧ p.fid = x.fids ∧ p.ts = b.ts ∧ p.pts = recNat b.bytes 16 8 ∧ p.buf = i ∧ p.w = h.width ∧ p.h = h.height ∧
         (∃ q ∈ y.bufs, q.ix = i ∧ q.busy = true) ∧ t.dev.mem = s.dev.mem ∧ t.dev.regs = s.dev.regs) ∧
     (∀ (from_ : PicStart) (w : Nat) (z : StreamSt), x.overRate s.dev.now = true → w ∈ from_.waiting → w ≠ k.val → s.dev.stream w = some z →
       z.engine = x.engine → z.cur = none → z.overRate s.dev.now = false → exec (.pictureDecodeStart k from_) s = .next s) ∧
     (∀ (p : PicSt) (ns : Nat) (how : PicEnd) (order : Nat), x.cur = some p → ∃ t y q,
       exec (.pictureDecodeComplete k ns how [] order 0 []) s = .next t ∧ t.dev.stream k.val = some y ∧ y.cur = none ∧
         y.pics = x.pics ++ [q] ∧ q.ns = ns ∧ q.conceal = (p.conceal || !how.damage.isEmpty || !(s.dev.harmedBlocks x p how.reads).isEmpty) ∧ q.order = order ∧ q.ts = p.ts ∧
         y.recCount = x.recCount ∧ (∀ b ∈ y.bufs, b.isRef = false) ∧
         t.dev.fld .vidEngStat [x.engine] 15 0 = (s.dev.fld .vidEngStat [x.engine] 15 0 + 1) % 65536) ∧
     (∀ (p : PicSt) (ns order held : Nat) (pix : List Byte), x.cur = some p → x.pics = [] → x.recCount + 1 < 2 ^ 64 → ∃ t y r,
       exec (.pictureDecodeComplete k ns ⟨[], held, []⟩ pix order 1 []) s = .next t ∧ t.dev.stream k.val = some y ∧ y.cur = none ∧ y.pics = [] ∧
         y.recCount = x.recCount + 1 ∧ leNat (t.dev.mem.rdN x.recRing 8) = x.recCount + 1 ∧
         t.dev.mem.rdN (x.recRing + 64 + 64 * (x.recCount % 2 ^ x.recLog)) 64 = FrameRec.bytes r ∧ r.ts = p.ts ∧ r.stream = k.val ∧
         r.status = 0#8 ∧ r.no = p.fid ∧ r.ns = ns ∧ r.pts = p.pts ∧ r.buf = x.pool + p.buf * x.bufBytes ∧
         (∀ b ∈ y.bufs, b.ix = p.buf → b.busy = false)))

/-- R290, R291, R437: an encoder takes the next new entry of its input ring and counts it, but takes and gives nothing while the output
half of its engine's buffer is full; a finished access unit lies in the output area behind the last, its entry tells where, and the
oldest frame is done. The model's choices it rests on: log 50, 51. -/
def Obligations.EncodersRun : Prop :=
  ∀ (s : State) (e : Fin 32) (x : EncSt), s.dev.stop = none → s.dev.enc e.val = some x → x.closing = none →
    let r := s.dev.mem.rdN (x.inRing + 64 + 32 * x.inIdx) 32
    let j := (x.inIdx + 1) % 2 ^ x.inLog
    (s.dev.rtFull (6 + x.engine) 1 = true → exec (.encodeInput e) s = .next s ∧ ∀ bs, exec (.accessUnitComplete e bs) s = .next s) ∧
    (bit (recNat r 1 1) 0 = x.inPh → encEntryOk s.dev x r = true → s.dev.rtFull (6 + x.engine) 1 = false → x.inCount + 1 < 2 ^ 64 → ∃ t y,
      exec (.encodeInput e) s = .next t ∧
      t.dev.enc e.val = some y ∧ y.jobs = x.jobs ++ [{ entry := r, conceal := encHarmed s.dev x r }] ∧ y.inIdx = j ∧ y.inCount = x.inCount + 1 ∧
      leNat (t.dev.mem.rdN x.inRing 8) = x.inCount + 1 ∧
      (∀ a, a < x.inRing ∨ x.inRing + 8 ≤ a → t.dev.mem.rd a = s.dev.mem.rd a) ∧ t.dev.regs = s.dev.regs) ∧
    (bit (recNat r 1 1) 0 ≠ x.inPh → exec (.encodeInput e) s = .next s) ∧
    (∀ (bs : List Byte) (job : EncJob) (rest : List EncJob), x.jobs = job :: rest → x.format ≠ 2 → s.dev.rtFull (6 + x.engine) 1 = false →
      x.outPos + bs.length ≤ x.outLen → s.dev.loadNat x.entryRing 8 = x.entCount → 0 < bs.length → bs.length < 2 ^ 32 →
      x.out + x.outPos + bs.length ≤ x.entryRing → ∃ t y, exec (.accessUnitComplete e bs) s = .next t ∧ t.dev.enc e.val = some y ∧
        y.jobs = rest ∧ y.outPos = x.outPos + bs.length ∧ y.entCount = x.entCount + 1 ∧
        t.dev.mem.rdN (x.out + x.outPos) bs.length = bs ∧
        t.dev.mem.rdN (x.entryRing + 64 + 32 * x.entIdx) 4 = [1#8, (if x.entPh then 1#8 else 0#8), 0#8, 0#8] ∧
        t.dev.mem.rdN (x.entryRing + 68 + 32 * x.entIdx) 4 = leBytes 4 bs.length ∧
        t.dev.mem.rdN (x.entryRing + 72 + 32 * x.entIdx) 8 = leBytes 8 (x.out + x.outPos) ∧
        t.dev.fld .vidEngStat [x.engine] 15 0 = (s.dev.fld .vidEngStat [x.engine] 15 0 + 1) % 65536)

/-- R295, R296, R310, R316: an assembler with a good block starts afresh on it, one with a bad block stays off with ERR; disabling
clears EN; the counts are cleared; a group's configuration is written while it has no member. R302, R303, R307: the one assembler with a
ready sample converts it; a sample older than its entry allows is dropped, its slot ABSENT, counted; the conversion under way ends with
its slot converted. The model's choices it rests on: log 48, 98. -/
def Obligations.EaselSamples : Prop :=
  (∀ (s : State) (a : Fin 16), s.dev.stop = none → s.dev.med.easel.binds = [] →
     let base := hiLo (s.dev.rg .easelAsmBaseHi [a.val]) (s.dev.rg .easelAsmBaseLo [a.val])
     let blk := s.dev.mem.rdN base 128
     (s.dev.asmOn a.val = false → s.dev.reach base 128 = true → asmBlockOk s.dev blk = true → ∃ t,
       exec (.assemblerEnable a) s = .next t ∧ t.dev.asmOn a.val = true ∧ t.dev.asm a = { blk := blk } ∧
       (∀ b, b ≠ a → t.dev.asm b = s.dev.asm b) ∧ t.dev.mem = s.dev.mem) ∧
     (s.dev.asmOn a.val = false → asmBlockOk s.dev blk = false → ∃ t, exec (.assemblerEnable a) s = .next t ∧
       t.dev.asmOn a.val = false ∧ t.dev.flag .easelAsmCtl [a.val] 30 = true ∧ t.dev.med = s.dev.med) ∧
     (s.dev.asmOn a.val = true → exec (.assemblerEnable a) s = .next s) ∧
     (∃ t, exec (.assemblerDisable a) s = .next t ∧ t.dev.asmOn a.val = false ∧ (∀ b, t.dev.asm b = s.dev.asm b) ∧
       t.dev.mem = s.dev.mem) ∧
     (exec (.asmStatClear a) s = .next (s.put (s.dev.setRg .easelAsmStat [a.val] 0#32))) ∧
     (∀ v : W32, ∃ t, exec (.groupConfigWrite a v) s = .next t ∧ t.dev.fld .easelGrpCfg [a.val] 15 0 = bits v.toNat 15 0 ∧
       t.dev.fld .easelGrpCfg [a.val] 18 16 = bits v.toNat 18 16 ∧ t.dev.flag .easelGrpCfg [a.val] 31 = bit v.toNat 31 ∧
       t.dev.med = s.dev.med)) ∧
  (∀ (s : State) (a : Fin 16) (n i : Nat) (x : ESample) (z : ESlot), s.dev.stop = none → s.dev.flt.mario = none →
     s.dev.flt.recEn = false → (s.dev.asm a).slotAt n i = some z → z.smp = some x →
     let bound (m : Nat) : Prop := ∃ b : EBind, keyed s.dev.med.easel.binds x.stream = some (.bound b) ∧ b.maxAge = m
     let one : Prop := s.dev.converting = none ∧ workOf s.dev (s.dev.asm a) = some (n, i) ∧
       ∀ b, b ≠ a → workOf s.dev (s.dev.asm b) = none
     (one → bound 0 → ∃ t, exec .sampleConvert s = .next t ∧ (t.dev.asm a).slotAt n i = some { z with st := .converting } ∧
       (∀ b, b ≠ a → t.dev.asm b = s.dev.asm b) ∧ t.dev.regs = s.dev.regs ∧ t.dev.mem = s.dev.mem) ∧
     (∀ m, one → bound m → m ≠ 0 → x.ts + 1000 * m < s.dev.tb → ∃ t, exec .sampleConvert s = .next t ∧
       (t.dev.asm a).slotAt n i = some { z with st := .absent, stale := true } ∧
       t.dev.fld .easelAsmStat [a.val] 15 0 = min (s.dev.fld .easelAsmStat [a.val] 15 0 + 1) 65535 ∧
       (t.dev.asm a).recCount = (s.dev.asm a).recCount + 1 ∧
       t.dev.mem.rdN ((s.dev.asm a).n 64 8 + 64 + 32 * (s.dev.asm a).recIdx) 4 =
         [2#8, (if (s.dev.asm a).recPh then 1#8 else 0#8), 0x30#8, BitVec.ofNat 8 x.stream]) ∧
     (s.dev.converting = some (a.val, n, i) → ∃ t, exec .sampleConvertComplete s = .next t ∧
       (t.dev.asm a).slotAt n i = some { z with
         st := .converted
         smp := some { x with conceal := x.conceal || s.dev.sampleHarmed (s.dev.asm a) x } } ∧ (∀ b, b ≠ a → t.dev.asm b = s.dev.asm b) ∧
       t.dev.regs = s.dev.regs))

/-- R304-R306: when the budget of the open batch runs out every slot without a ready sample is ABSENT, its sample is carried and the
batch takes no more; a closed batch whose slots are all converted is announced by a record with its number and its buffer, and its
counter moves. R308, R309: a picture past its time is late, and with it every sample of it that Easel holds; a group set that closes
with every member leaves the slots as they are, one with a member missing leaves the missing slots ABSENT, and all of them where the
group drops partial sets. The model's choices it rests on: log 48. -/
def Obligations.EaselBatches : Prop :=
  (∀ (s : State) (a : Fin 16) (b : EBatch), s.dev.stop = none → s.dev.flt.mario = none → s.dev.flt.recEn = false →
     (s.dev.asm a).batches = [b] →
     let x := s.dev.asm a
     let ready (z : ESlot) : Bool := !decide (z.st = .reserved) || z.smp.any (·.ready)
     (b.expired = false → ∃ (t : State) (c : EBatch), exec (.batchBudgetExpire a) s = .next t ∧ (t.dev.asm a).batches = [c] ∧ c.num = b.num ∧
       c.expired = true ∧ c.closed = true ∧ c.slots.length = max b.slots.length x.batch ∧
       (∀ (i : Nat) (z : ESlot), b.slots[i]? = some z → c.slots[i]? = some (if ready z then z else { z with st := .absent })) ∧
       (∀ i : Nat, b.slots.length ≤ i → i < x.batch → (c.slots[i]?).map (·.st) = some .absent) ∧
       (t.dev.asm a).carried = x.carried ++ (b.slots.filter (fun z => !ready z)).filterMap (fun z =>
         (z.smp.filter (fun y => !y.gone)).map (fun y => { y with carried := true })) ∧ t.dev.mem = s.dev.mem ∧ t.dev.regs = s.dev.regs) ∧
     (b.closed = true → (∀ z ∈ b.slots, z.st = .converted) → asmFull s.dev x = false → bufFree s.dev x b.num = true → ∃ t,
       exec (.batchComplete a) s = .next t ∧ (t.dev.asm a).batches = [] ∧ (t.dev.asm a).recCount = x.recCount + 1 ∧
       t.dev.mem.rdN (x.n 64 8 + 64 + 32 * x.recIdx) 16 = [1#8, (if x.recPh then 1#8 else 0#8), 0#8, BitVec.ofNat 8 b.slots.length] ++
         leBytes 4 b.num ++ leBytes 8 (x.buffer b.num) ∧
       (bit (x.n 10 1) 7 = true → t.dev.fld .ttCnt [bits (x.n 10 1) 6 0] 23 0 =
         (s.dev.fld .ttCnt [bits (x.n 10 1) 6 0] 23 0 + 1) % 2 ^ 24) ∧
       (bit (x.n 10 1) 7 = false → t.dev.regs = s.dev.regs)) ∧
     (b.closed = false → exec (.batchComplete a) s = .next s)) ∧
  (∀ s : State, s.dev.stop = none → s.dev.flt.mario = none → s.dev.flt.recEn = false →
     (∀ (k : Fin 144) (x : StreamSt) (p : PicSt), s.dev.stream k.val = some x → x.cur = some p → 8 ≤ x.avgN → p.late = false →
       ∃ t y, exec (.lateDecode k) s = .next t ∧ t.dev.stream k.val = some y ∧ y.cur = some { p with late := true } ∧
         ∀ a, ∀ z ∈ (t.dev.asm a).held, z.stream = k.val → z.fid = p.fid → z.late = true) ∧
     (∀ (k : Fin 144) (x : StreamSt), s.dev.stream k.val = some x → x.avgN < 8 → exec (.lateDecode k) s = .next s) ∧
     (∀ (g : Fin 16) (y : ESet), s.dev.med.easel.sets = [y] → y.group = g.val →
       let a := finAsm y.asm
       ((∀ i, i < y.n → i ∈ y.members) → ∃ t, exec (.groupSetClose g) s = .next t ∧ t.dev.med.easel.sets = [] ∧
         (∀ b, t.dev.asm b = s.dev.asm b) ∧ t.dev.mem = s.dev.mem ∧ t.dev.regs = s.dev.regs) ∧
       ((∃ i, i < y.n ∧ i ∉ y.members) → ∃ t, exec (.groupSetClose g) s = .next t ∧ t.dev.med.easel.sets = [] ∧
         (∀ i (z : ESlot), i < y.n → i ∉ y.members ∨ s.dev.flag .easelGrpCfg [g.val] 31 = true →
           (t.dev.asm a).slotAt y.batch (y.base + i) = some z → z.st = .absent) ∧
         (s.dev.flag .easelGrpCfg [g.val] 31 = false → ∀ i z x, i ∈ y.members → (t.dev.asm a).slotAt y.batch (y.base + i) = some z →
           z.smp = some x → x.partial_ = true) ∧
         (y.id ≠ 0 → ∀ x ∈ (t.dev.asm a).carried, x.set = y.id →
           s.dev.flag .easelGrpCfg [g.val] 31 = false ∧ x.partial_ = true))))

/-- R311, R312, R314, R317: Primer starts afresh on a good block and is refused with ERR on a bad one, at once without unfinished jobs,
else when they are complete, EN reading 1 from the write on; a poll takes the new job and counts it; a job whose text is one byte
becomes the root's match of it, else the byte's own token; a job that breaks a rule is COMMAND_INVALID; the finished job's record tells
the counts. The model's choices it rests on: log 72. -/
def Obligations.PrimerJobs : Prop :=
  ∀ s : State, s.dev.stop = none → s.dev.flt.recEn = false →
    let p := s.dev.med.prim
    let base := hiLo (s.dev.rg .primBaseHi []) (s.dev.rg .primBaseLo [])
    let blk := s.dev.mem.rdN base 64
    (primOn s.dev = false → p.cur = none → p.jobs = [] →
      (s.dev.reach base 64 = true → primBlockOk s.dev blk = true → ∃ t, exec .primerEnable s = .next t ∧
        primOn t.dev = true ∧ t.dev.med.prim = { blk := blk } ∧ t.dev.mem = s.dev.mem) ∧
      (primBlockOk s.dev blk = false → ∃ t, exec .primerEnable s = .next t ∧ primOn t.dev = false ∧
        t.dev.flag .primCtl [] 30 = true ∧ t.dev.med = { s.dev.med with prim := { p with again := false } } ∧ t.dev.mem = s.dev.mem)) ∧
    (primOn s.dev = false → (p.cur ≠ none ∨ p.jobs ≠ []) →
      exec .primerEnable s = .next (s.put ((s.dev.setPrim { p with again := true }).setFld .primCtl [] 31 31 1))) ∧
    (primOn s.dev = true → exec .primerEnable s = .next s) ∧
    (∀ (r : List Byte) (res : TokRes), p.again = true → p.cur = some (r, res) → p.jobs = [] →
      2 ^ p.cplLog ≤ p.cplCount - s.dev.loadNat (p.n 0 8 + 8) 8 → exec .tokeniseComplete s = .next s) ∧
    (primOn s.dev = true → p.again = true → p.stopping = false → exec .primerPoll s = .next s) ∧
    (let job (i : Nat) : List Byte := s.dev.mem.rdN (p.n 0 8 + 64 + 64 * i) 64
     let j := (p.jobIdx + 1) % 2 ^ p.jobLog
     let ph := if j = 0 then !p.jobPh else p.jobPh
     primOn s.dev = true → p.again = false → s.dev.flt.forced = false → s.dev.flt.mario = none →
     bit (recNat (job p.jobIdx) 1 1) 0 = p.jobPh →
     bit (recNat (job j) 1 1) 0 ≠ ph → p.jobCount + 1 < 2 ^ 64 → ∃ t, exec .primerPoll s = .next t ∧
       t.dev.med.prim = { p with jobIdx := j, jobPh := ph, jobCount := p.jobCount + 1, jobs := p.jobs ++ [job p.jobIdx] } ∧
       leNat (t.dev.mem.rdN (p.n 0 8) 8) = p.jobCount + 1) ∧
    (∀ (r : List Byte) (rest : List (List Byte)), p.jobs = r :: rest → p.cur = none → jobOk s.dev p r = false →
      ∃ t, exec (.tokenise r) s = .next t ∧ t.dev.med.prim = { p with jobs := rest, cur := some (r, ⟨0x15#8, false, false, 0, 0⟩) } ∧
        t.dev.mem = s.dev.mem) ∧
    (∀ (r : List Byte) (rest : List (List Byte)) (d : Dict) (tok e0 n tok2 : Nat) (rt : Nat), p.jobs = r :: rest → p.cur = none →
      jobOk s.dev p r = true → readDict s.dev (p.n (24 + 8 * recNat r 2 1) 8) = some d → recNat r 3 1 = 0 →
      recNat r 16 4 = 1 → readNode s.dev d 0 = .ok (rt, e0, n) →
      let c := s.dev.mem.rd (recNat r 8 8)
      (n = 0 ∧ tok = d.byteBase + c.toNat ∨
        n = 1 ∧ e0 < d.edges ∧ s.dev.reach (d.edgeAt + 8 * e0) 8 = true ∧ s.dev.mem.rd (d.edgeAt + 8 * e0) = c ∧ tok2 ≠ 0xFFFFFFFF ∧
          (∃ e1 n1, readNode s.dev d (leNat (s.dev.mem.rdN (d.edgeAt + 8 * e0 + 4) 4)) = .ok (tok2, e1, n1)) ∧ tok = tok2) →
      ∃ t, exec (.tokenise r) s = .next t ∧ t.dev.med.prim = { p with jobs := rest, cur := some (r, ⟨0#8, false, false, 1, 1⟩) } ∧
        t.dev.mem.rdN (recNat r 24 8) 4 = leBytes 4 tok) ∧
    (∀ (r : List Byte) (rest : List (List Byte)) (d : Dict) (er : DictErr), p.jobs = r :: rest → p.cur = none →
      jobOk s.dev p r = true → readDict s.dev (p.n (24 + 8 * recNat r 2 1) 8) = some d → recNat r 3 1 = 0 →
      0 < recNat r 16 4 → readNode s.dev d 0 = .error er → ∃ t, exec (.tokenise r) s = .next t ∧
        t.dev.med.prim = { p with jobs := rest, cur := some (r, ⟨0x15#8, false, true, 0, 0⟩) } ∧ t.dev.mem = s.dev.mem ∧
        (∀ b, er = .denied b → proctorBase ≤ b → b < proctorBase + proctorSize →
          t.dev.fld .secState [] 23 16 = min (s.dev.fld .secState [] 23 16 + 1) 255) ∧
        (er = .bad → t.dev.regs = s.dev.regs)) ∧
    (∀ (r : List Byte) (res : TokRes), p.cur = some (r, res) → s.dev.loadNat (p.n 0 8 + 8) 8 = p.cplCount → r.length = 64 →
      (p.again = false ∨ p.jobs ≠ []) → ∃ t,
      exec .tokeniseComplete s = .next t ∧ t.dev.med.prim.cur = none ∧ t.dev.med.prim.stopping = false ∧ t.dev.med.prim.cplCount = p.cplCount + 1 ∧
      t.dev.mem.rdN (p.n 8 8 + 16 * p.cplIdx) 16 = [res.status, (if p.cplPh then 1#8 else 0#8),
        BitVec.ofNat 8 ((if res.trunc then 1 else 0) + (if res.dicterr then 2 else 0)), 0#8] ++ (r.drop 4).take 4 ++
        leBytes 4 res.tokens ++ leBytes 4 res.used ∧
      t.dev.fld .primStat [] 31 16 = (s.dev.fld .primStat [] 31 16 + 1) % 65536 ∧
      t.dev.fld .primStat [] 15 0 = (if res.dicterr then min (s.dev.fld .primStat [] 15 0 + 1) 65535 else s.dev.fld .primStat [] 15 0))

/-! ## The stack -/

/-- R322-R325: a write the channel accepts changes the bytes of its block that its mask names and no other, and is merged with a queued
write of the block; a read takes the bytes it asks for as they are, at once from a whole queued block, behind a partial one, or waits
for the die; a requester the arbiter has not granted, and a full queue, accept nothing. R326, R329, R331, R333: for the only queued
read, with no refresh due, a channel activates its row in a closed bank, reads in an open one, and precharges a bank whose row is
another; a due refresh is owed unless one was taken early; the trackers are emptied with their throttles. The model's choices it rests
on: log 51, 52. -/
def Obligations.StackAccess : Prop :=
  (∀ (s : State) (c : Fin 16) (req a n : Nat) (mask : BitVec 64) (data : List Byte), s.dev.stop = none → data.length = 64 →
     let blk := a / 64 * 64
     let took := some s.arbs[64 + c.val].clock
     let x : ChanSt := { s.dev.chan c with took := took }
     let cyc (y : Nat) : Nat := (x.pc (pcOf s.dev y)).cyc
     let stored (t : State) : Prop :=
       (∀ i, i < 64 → t.dev.mem.rd (blk + i) = (if mask.getLsbD i then data.getD i 0#8 else s.dev.mem.rd (blk + i))) ∧
       (∀ y, y < blk ∨ blk + 64 ≤ y → t.dev.mem.rd y = s.dev.mem.rd y) ∧
       (mask = BitVec.allOnes 64 → blk ∉ t.dev.poison) ∧ (∀ k, k ≠ c → t.dev.chan k = s.dev.chan k)
     (s.portTakes c req true = false → exec (.stackWriteAccept c req 1 a mask data) s = .next s) ∧
     (s.portTakes c req false = false → exec (.stackReadAccept c req 1 ⟨a, n⟩) s = .next s) ∧
     (x.wq.length = 64 → exec (.stackWriteAccept c req 1 a mask data) s = .next s) ∧
     (x.rq.length = 64 → exec (.stackReadAccept c req 1 ⟨a, n⟩) s = .next s) ∧
     (s.portTakes c req true = true → s.dev.mine c req a = true →
       ((∀ w ∈ x.wq, w.blk ≠ blk) → x.wq.length < 64 → ∃ t, exec (.stackWriteAccept c req 1 a mask data) s = .next t ∧ stored t ∧
         t.dev.chan c = { x with wq := x.wq ++ [{ blk := blk, mask := mask, req := req, cls := 1, at_ := cyc a }] }) ∧
       (∀ w, x.wq = [w] → w.blk = blk → ∃ t, exec (.stackWriteAccept c req 1 a mask data) s = .next t ∧ stored t ∧
         (w.mask ||| mask = BitVec.allOnes 64 → blk ∉ t.dev.poison) ∧
         t.dev.chan c = { x with wq := [{ w with mask := w.mask ||| mask, cls := max w.cls 1 }] })) ∧
     (s.portTakes c req false = true → s.dev.mine c req a = true →
       let got := s.dev.mem.rdN a (min n (blk + 64 - a))
       ((∀ w ∈ x.wq, w.blk ≠ blk) → x.rq.length < 64 → ∃ t, exec (.stackReadAccept c req 1 ⟨a, n⟩) s = .next t ∧
         t.dev.mem = s.dev.mem ∧ t.dev.chan c = { x with rq := x.rq ++
           [{ blk := blk, req := req, cls := 1, at_ := cyc blk, data := got, behind := false, pz := s.dev.poisoned blk }] }) ∧
       (∀ w, x.wq = [w] → w.blk = blk → w.mask = BitVec.allOnes 64 → x.rq.length < 64 → ∃ t,
         exec (.stackReadAccept c req 1 ⟨a, n⟩) s = .next t ∧
         t.dev.mem = s.dev.mem ∧ t.dev.chan c = { x with last := some (req, blk, got, false) }) ∧
       (∀ w, x.wq = [w] → w.blk = blk → w.mask ≠ BitVec.allOnes 64 → x.rq.length < 64 → ∃ t,
         exec (.stackReadAccept c req 1 ⟨a, n⟩) s = .next t ∧ t.dev.mem = s.dev.mem ∧ t.dev.chan c = { x with rq := x.rq ++
           [{ blk := blk, req := req, cls := 1, at_ := cyc blk, data := got, behind := true, pz := s.dev.poisoned blk }] }))) ∧
  (∀ (s : State) (c : Fin 16) (p : Fin 2) (r : REnt) (st : BankSt) (hot : Bool), s.dev.stop = none →
     let x := s.dev.chan c
     let y := x.pc p.val
     let b := bankOf s.dev r.blk
     let row := rowOfAddr s.dev r.blk
     let now := y.cyc + 1
     s.dev.fld .memChStat [c.val] 31 29 = 2 → s.dev.flag .memGctl [] 0 = false → s.dev.fld .memRdCtl [] 31 30 = 0 →
     x.rq = [r] → x.wq = [] → x.drain = false → r.issued = false → r.behind = false → pcOf s.dev r.blk = p.val →
     y.banks = [(b, st)] → st.owed = 0 → y.acts = [] → st.throt = [] →
     let next (g : ChanSt → Prop) : Prop :=
       ∃ t, exec (.dramCommandIssue c p hot) s = .next t ∧ g (t.dev.chan c) ∧ t.dev.flag .memChStat [c.val] 28 = hot ∧ ((t.dev.chan c).pc p.val).cyc = now ∧
         t.dev.mem = s.dev.mem ∧ (∀ k, k ≠ c → t.dev.chan k = s.dev.chan k)
     (st.open_ = none → st.nextAct ≤ now → next (fun z => (z.pc p.val).bank b =
         { st with open_ := some row, nextCol := now + 14, nextPre := now + 32, nextAct := now + 46 } ∧ z.rq = [r])) ∧
     (st.open_ = some row → st.nextCol ≤ now → y.bus ≤ now → next (fun z => z.rq = [{ r with issued := true }] ∧
       (z.pc p.val).bus = now + 4 ∧ ((z.pc p.val).bank b).open_ = some row)) ∧
     (∀ q, st.open_ = some q → q ≠ row → st.nextPre ≤ now → next (fun z => ((z.pc p.val).bank b).open_ = none ∧
       ((z.pc p.val).bank b).nextAct = max st.nextAct (now + 14) ∧ z.rq = [r])) ∧
     (∀ k : Fin 16, k.val = b → ∃ t, exec (.refreshDue c p k) s = .next t ∧ ((t.dev.chan c).pc p.val).bank b =
       (if 0 < st.early then { st with early := st.early - 1 } else { st with owed := st.owed + 1 }) ∧ t.dev.mem = s.dev.mem) ∧
     (∃ t, exec .trackerWindowReset s = .next t ∧ ((t.dev.chan c).pc p.val).bank b = { st with tracker := [], throt := [], hot := [] } ∧
       (t.dev.chan c).rq = [r] ∧ t.dev.mem = s.dev.mem ∧ t.dev.regs = s.dev.regs))

/-- R325, R335, R336, R340: a read that went to the die is delivered with its data, its failed attempts counted; after four the channel
retrains, and the read is delivered when that is done, poisoned after eight; the same for a write, whose block is poisoned after eight
unless a queued write covers it, and so are the reads that the die serves before that write; MEM_ERR_CLEAR clears the counts. R320,
R337-R340: the stack is enabled under a map the hardware applies and refused with ERR under another; a trained channel retrains when it
is allowed and none of its requests panics, and is trained again; a soft repair is refused with ERR while the bank has no spare row
left, else pending, and once made it is listed. The model's choices it rests on: log 51, 52. -/
def Obligations.StackErrorsAndService : Prop :=
  (∀ (s : State) (c : Fin 16) (bad : Nat), s.dev.stop = none →
     let x := s.dev.chan c
     let n (t : State) (hi lo : Nat) : Nat := t.dev.fld .memChErr [c.val] hi lo
     let st (t : State) : Nat := t.dev.fld .memChStat [c.val] 31 29
     (st s ≠ 3 →
       (∀ r rest, x.rq = r :: rest → r.issued = true →
         (bad < 4 → r.tried = false → r.pz = false → ∃ t, exec (.stackReadComplete c bad) s = .next t ∧
           t.dev.chan c = { x with rq := rest, last := some (r.req, r.blk, r.data, false) } ∧ n t 7 0 = min (n s 7 0 + bad) 255 ∧
           n t 23 16 = n s 23 16 ∧ t.dev.mem = s.dev.mem) ∧
         (4 ≤ bad ∨ r.pz = true → r.tried = false → ∃ t, exec (.stackReadComplete c bad) s = .next t ∧ st t = 3 ∧
           t.dev.chan c = { x with rq := { r with tried := true } :: rest, inPlace := true } ∧ n t 7 0 = min (n s 7 0 + 3) 255 ∧
           n t 23 16 = n s 23 16 ∧ t.dev.mem = s.dev.mem) ∧
         (bad < 8 → r.tried = true → r.pz = false → ∃ t, exec (.stackReadComplete c bad) s = .next t ∧
           t.dev.chan c = { x with rq := rest, last := some (r.req, r.blk, r.data, false) } ∧
           n t 7 0 = min (n s 7 0 + (max bad 4 - 3)) 255 ∧ n t 23 16 = n s 23 16 ∧ t.dev.mem = s.dev.mem) ∧
         (8 ≤ bad ∨ r.pz = true → r.tried = true → ∃ t, exec (.stackReadComplete c bad) s = .next t ∧
           (t.dev.chan c).last = some (r.req, r.blk, r.data, true) ∧ (t.dev.chan c).rq = rest ∧ n t 7 0 = min (n s 7 0 + 4) 255 ∧
           n t 23 16 = min (n s 23 16 + 1) 255)) ∧
       (∀ w rest, x.sent = w :: rest →
         (1 ≤ bad → bad < 4 → w.tried = false → ∃ t, exec (.writeParityError c bad) s = .next t ∧
           t.dev.chan c = { x with sent := rest } ∧ n t 15 8 = min (n s 15 8 + bad) 255 ∧ t.dev.poison = s.dev.poison ∧
           t.dev.mem = s.dev.mem) ∧
         (4 ≤ bad → w.tried = false → ∃ t, exec (.writeParityError c bad) s = .next t ∧ st t = 3 ∧
           t.dev.chan c = { x with sent := { w with tried := true } :: rest, inPlace := true } ∧
           n t 15 8 = min (n s 15 8 + 3) 255 ∧ t.dev.poison = s.dev.poison ∧ t.dev.mem = s.dev.mem) ∧
         (8 ≤ bad → w.tried = true → poisonUnit w.blk = w.blk →
           (∀ y ∈ x.wq, y.blk = w.blk → y.mask ≠ BitVec.allOnes 64) → ∃ t, exec (.writeParityError c bad) s = .next t ∧
           w.blk ∈ t.dev.poison ∧ (t.dev.chan c).sent = rest ∧ (∀ r ∈ (t.dev.chan c).rq, r.blk = w.blk → r.pz = true) ∧ n t 15 8 = min (n s 15 8 + 4) 255 ∧
           n t 23 16 = min (n s 23 16 + 1) 255) ∧
         (8 ≤ bad → w.tried = true → (∃ y ∈ x.wq, y.blk = w.blk ∧ y.mask = BitVec.allOnes 64) → ∃ t,
           exec (.writeParityError c bad) s = .next t ∧ t.dev.poison = s.dev.poison ∧ t.dev.mem = s.dev.mem ∧
           t.dev.chan c = { x with sent := rest, rq := x.rq.map (fun r =>
             if r.blk = w.blk ∧ r.behind = false then { r with pz := true } else r) } ∧
           n t 15 8 = min (n s 15 8 + 4) 255 ∧ n t 23 16 = min (n s 23 16 + 1) 255))) ∧
     (st s = 3 → exec (.stackReadComplete c bad) s = .next s ∧ exec (.writeParityError c bad) s = .next s) ∧
     (∃ t, exec (.memErrClear c) s = .next t ∧ n t 23 0 = 0 ∧ t.dev.rg .memChOdecc [c.val] = 0#32 ∧ t.dev.stk = s.dev.stk ∧
       t.dev.mem = s.dev.mem)) ∧
  (∀ (s : State) (c : Fin 16) (v : W32), s.dev.stop = none →
     let x := s.dev.chan c
     let st (t : State) : Nat := t.dev.fld .memChStat [c.val] 31 29
     let row : Nat × Nat × Nat := (bits v.toNat 24 24, bits v.toNat 23 20, bits v.toNat 13 0)
     (s.dev.stackOn = false → mapOk s.dev = true → ∃ t, exec .stackEnable s = .next t ∧ t.dev.stackOn = true ∧ t.dev.stk = s.dev.stk ∧
       t.dev.mem = s.dev.mem) ∧
     (s.dev.stackOn = false → mapOk s.dev = false → ∃ t, exec .stackEnable s = .next t ∧ t.dev.stackOn = false ∧
       t.dev.flag .memGctl [] 30 = true) ∧
     (s.dev.flag .memGctl [] 1 = true → st s = 2 → x.panicked s.dev = false → ∃ t, exec (.channelRetrain c) s = .next t ∧ st t = 3 ∧
       (t.dev.chan c).rq = x.rq ∧ (t.dev.chan c).wq = x.wq ∧ t.dev.mem = s.dev.mem) ∧
     (s.dev.flag .memGctl [] 1 = true → st s = 2 → x.panicked s.dev = true → x.defer = none → ∃ t, exec (.channelRetrain c) s = .next t ∧
       st t = 2 ∧ (t.dev.chan c).defer = some s.dev.now) ∧
     (st s = 3 → s.dev.flt.tests = [] → ∃ t, exec (.channelRetrainComplete c) s = .next t ∧ st t = 2 ∧
       t.dev.chan c = { x with inPlace := false } ∧ t.dev.mem = s.dev.mem) ∧
     (s.dev.flag .memChPpr [c.val] 31 = false → (repaired s.dev c row.1 row.2.1).length < 2 → row.2.2 ∉ repaired s.dev c row.1 row.2.1 →
       ∃ t, exec (.softRepairRequest c v) s = .next t ∧ t.dev.flag .memChPpr [c.val] 31 = true ∧
         t.dev.fld .memChPpr [c.val] 24 20 = bits v.toNat 24 20 ∧ t.dev.fld .memChPpr [c.val] 13 0 = row.2.2 ∧ t.dev.stk = s.dev.stk) ∧
     (s.dev.flag .memChPpr [c.val] 31 = false → 2 ≤ (repaired s.dev c row.1 row.2.1).length →
       ∃ t, exec (.softRepairRequest c v) s = .next t ∧ t.dev.flag .memChPpr [c.val] 31 = false ∧
         t.dev.flag .memChPpr [c.val] 29 = true ∧ t.dev.stk = s.dev.stk) ∧
     (s.dev.flag .memChPpr [c.val] 31 = true → x.todo = [] → ∃ t, exec (.softRepair c) s = .next t ∧
       (t.dev.chan c).soft = x.soft ++ [(s.dev.fld .memChPpr [c.val] 24 24, s.dev.fld .memChPpr [c.val] 23 20, s.dev.fld .memChPpr [c.val] 13 0)] ∧
       t.dev.flag .memChPpr [c.val] 31 = false ∧ t.dev.flag .memChPpr [c.val] 30 = true ∧ t.dev.mem = s.dev.mem))

/-! ## Links -/

/-- R342-R347: the roll call: the head takes ID 0 and sends TOKEN; a device without an ID takes the next one and passes it on, or is
beyond the roster and sends FULL; device 0 closes with the count; a member forwards CLOSE under its own ID; a late joiner takes the next
ID; what comes out of sequence or damaged is counted. R347, R352-R354: an enabled or retrained port with an ID trains; with four good
lanes of five and a short enough round trip it is up, the spare in a bad lane's place or in that of the worst lane it betters, else down
for good with its cause; a lost lane is replaced by the spare once; the counts are cleared. The model's choices it rests on: log 31. -/
def Obligations.ChainAndLinks : Prop :=
  (∀ (s : State) (id count : BitVec 8), s.dev.stop = none → (∀ k, k < 4 → s.dev.flag .lnkCtl [k] 31 = false) →
     let frame (ty i n : Nat) : BitVec 32 :=
       BitVec.ofNat 32 (0xB * 2 ^ 28 + ty * 2 ^ 26 + i * 2 ^ 16 + n * 2 ^ 8 + ((i ^^^ n) ^^^ 0xA5))
     let sends (t : State) (f : BitVec 32) : Prop := t.dev.chn.frame = f ∧ t.dev.chn.sending = true
     let st (t : State) (i : Nat) : Bool := t.dev.flag .chnStat [] i
     let closed (t : State) (n : Nat) : Prop := chState t.dev = 2 ∧ chCount t.dev = n
     (s.dev.chn.head = true → s.dev.ownId = none → s.dev.chn.started = false → ∃ t, exec .rollCallStart s = .next t ∧
       t.dev.ownId = some 0 ∧ sends t (frame 0 0 0) ∧ t.dev.mem = s.dev.mem) ∧
     (s.dev.ownId = none → id.toNat ≤ 190 → ∃ t, exec (.token id) s = .next t ∧ t.dev.ownId = some (id.toNat + 1) ∧
       sends t (frame 0 (id.toNat + 1) 0) ∧ t.dev.rg .chnTime [] = BitVec.ofNat 32 (s.dev.now / 1000) ∧ t.dev.mem = s.dev.mem) ∧
     (s.dev.ownId = none → 190 < id.toNat → ∃ t, exec (.token id) s = .next t ∧ chState t.dev = 3 ∧ t.dev.ownId = none ∧
       sends t (frame 1 0 0)) ∧
     (s.dev.ownId = none → ∃ t, exec .full s = .next t ∧ chState t.dev = 3 ∧ sends t (frame 1 0 0)) ∧
     (s.dev.ownId = some 0 → id.toNat < 192 → ∃ t, exec (.token id) s = .next t ∧ closed t (id.toNat + 1) ∧
       sends t (frame 2 0 (id.toNat + 1)) ∧ t.dev.chn.returned = true) ∧
     (s.dev.ownId = some 0 → ∃ t, exec .full s = .next t ∧ closed t 192 ∧ st t 22 = true ∧ sends t (frame 2 0 192)) ∧
     (∀ j, s.dev.ownId = some j → j ≠ 0 → (id.toNat + 1 = j → exec (.token id) s = .next s) ∧
       (id.toNat + 1 ≠ j → ∃ t, exec (.token id) s = .next t ∧ st t 26 = true ∧ t.dev.chn = s.dev.chn) ∧
       (id.toNat + 1 = j → ∃ t, exec (.close id count) s = .next t ∧ closed t count.toNat ∧ t.dev.ownId = some j ∧
         sends t (frame 2 j count.toNat))) ∧
     (s.dev.ownId = none → id.toNat ≤ 190 → ∃ t, exec (.close id count) s = .next t ∧ t.dev.ownId = some (id.toNat + 1) ∧
       st t 27 = true ∧ closed t count.toNat ∧ sends t (frame 2 (id.toNat + 1) count.toNat)) ∧
     (s.dev.ownId = some 0 → chCount s.dev < id.toNat + 1 → id.toNat < 192 → ∃ t, exec (.close id count) s = .next t ∧
       closed t (id.toNat + 1) ∧ st t 23 = true ∧ sends t (frame 2 0 (id.toNat + 1))) ∧
     (s.dev.chn.sending = true → exec .chainFrameRepeat s =
       .next (s.put { s.dev with chn := { s.dev.chn with sent := s.dev.chn.sent + 1 } })) ∧
     (s.dev.chn.started = true → s.dev.chn.returned = false → s.dev.ownId = some 0 → ∃ t, exec .rollCallTimeout s = .next t ∧
       closed t 0 ∧ st t 25 = true) ∧
     (s.dev.chn.head = true → s.dev.ownId = none → ∃ t, exec .chainNoclk s = .next t ∧ t.dev.ownId = some 0 ∧ closed t 1 ∧ st t 24 = true) ∧
     (∀ f : BitVec 32, bits f.toNat 31 28 ≠ 0xB → ∃ t, exec (.ignoredChainFrame f) s = .next t ∧ t.dev.chn = s.dev.chn ∧
       t.dev.fld .chnStat [] 21 16 = min (s.dev.fld .chnStat [] 21 16 + 1) 63)) ∧
  (∀ (s : State) (k : Fin 4), s.dev.stop = none →
     let on := s.dev.flag .lnkCtl [k.val] 31
     let cause (t : State) : Nat := t.dev.fld .lnkStat [k.val] 28 26
     let x := s.dev.port k
     (on = false → s.dev.ownId ≠ none → ∃ t, exec (.linkEnable k) s = .next t ∧ t.dev.flag .lnkCtl [k.val] 31 = true ∧
       lnkState t.dev k.val = 1 ∧ t.dev.port k = {} ∧ t.dev.mem = s.dev.mem) ∧
     (on = false → s.dev.ownId = none → ∃ t, exec (.linkEnable k) s = .next t ∧ t.dev.flag .lnkCtl [k.val] 31 = true ∧
       lnkState t.dev k.val = 0 ∧ cause t = 4) ∧
     (on = true → exec (.linkEnable k) s = .next s) ∧
     (on = false → exec (.linkRetrain k) s = .next (s.put (s.dev.setFld .lnkCtl [k.val] 30 30 1))) ∧
     (on = true → s.dev.ownId ≠ none → ∃ t, exec (.linkRetrain k) s = .next t ∧ lnkState t.dev k.val = 1 ∧
       t.dev.flag .lnkCtl [k.val] 30 = true ∧ t.dev.port k = {}) ∧
     (∀ (g : LaneTest) (id : BitVec 8) (port : BitVec 2) (rtt : Nat), lnkState s.dev k.val = 1 →
       let errs (i : Nat) : Nat := g.errors.getD i 0
       (4 ≤ goodCount g.good → rtt ≤ 655 → ∃ t, exec (.linkTrainingComplete k g id port rtt) s = .next t ∧ lnkState t.dev k.val = 2 ∧
         cause t = 0 ∧ t.dev.fld .lnkStat [k.val] 20 13 = id.toNat ∧ t.dev.fld .lnkStat [k.val] 22 21 = port.toNat ∧
         t.dev.fld .lnkStat [k.val] 9 0 = rtt ∧ t.dev.flag .lnkCtl [k.val] 30 = false ∧
         (∀ i, i < 4 → g.good.getLsbD i = false → t.dev.fld .lnkStat [k.val] 25 23 = i ∧ t.dev.port k = { spareUsed := true }) ∧
         (g.good.getLsbD 4 = false → t.dev.fld .lnkStat [k.val] 25 23 = 7 ∧ t.dev.port k = { spareUsed := true }) ∧
         (g.good = 31#5 → (∀ i, i < 4 → errs i ≤ errs 4) → t.dev.fld .lnkStat [k.val] 25 23 = 7 ∧ t.dev.port k = {}) ∧
         (g.good = 31#5 → ∀ j, j < 4 → errs 4 < errs j → (∀ i, i < 4 → i ≠ j → errs i < errs j) →
           t.dev.fld .lnkStat [k.val] 25 23 = j ∧ t.dev.port k = { spareUsed := true })) ∧
       (goodCount g.good < 4 → ∃ t, exec (.linkTrainingComplete k g id port rtt) s = .next t ∧ lnkState t.dev k.val = 4 ∧ cause t = 2) ∧
       (4 ≤ goodCount g.good → 655 < rtt → ∃ t, exec (.linkTrainingComplete k g id port rtt) s = .next t ∧ lnkState t.dev k.val = 4 ∧
         cause t = 3)) ∧
     (lnkState s.dev k.val = 1 → ∃ t, exec (.linkNoPeer k) s = .next t ∧ lnkState t.dev k.val = 4 ∧ cause t = 1) ∧
     (∀ lane : Fin 4, lnkState s.dev k.val = 2 →
       (x.spareUsed = false → ∃ t, exec (.laneLockLoss k lane) s = .next t ∧ (t.dev.port k).spareUsed = true ∧
         lnkState t.dev k.val = 2 ∧ t.dev.fld .lnkStat [k.val] 25 23 = lane.val ∧ (t.dev.port k).wire = x.wire ++ x.replay.map (·.2.2)) ∧
       (x.spareUsed = true → ∃ t, exec (.laneLockLoss k lane) s = .next t ∧ lnkState t.dev k.val = 4 ∧ cause t = 2) ∧
       (x.spareUsed = true → exec (.laneErrorThreshold k lane) s = .next s) ∧
       (x.spareUsed = false → s.dev.fld .lnkCtl [k.val] 23 16 ≠ 0 → s.dev.fld .lnkCtl [k.val] 23 16 ≤ x.window.getD lane.val 0 →
         ∃ t, exec (.laneErrorThreshold k lane) s = .next t ∧ (t.dev.port k).spareUsed = true ∧
           t.dev.fld .lnkStat [k.val] 25 23 = lane.val)) ∧
     (∃ t, exec (.linkErrClear k) s = .next t ∧ t.dev.rg .lnkErr [k.val] = 0#32 ∧ t.dev.rg .lnkLaneerr [k.val] = 0#32 ∧
       t.dev.lnk = s.dev.lnk ∧ t.dev.mem = s.dev.mem))

/-- R349-R351, R355, R365: a flit that fails its check makes the port answer a NAK with the count of the last good one, wait for a
replay and count it, and what comes before the replay is discarded; a good head flit opens its queue's packet, and every 64th good flit
is acknowledged with the credits that are free; the buffer of a flit of a packet being discarded is free at once, and its credit
returned; a NAK resends what followed the last good flit; an acknowledgement returns credits up to the queue's share, and a packet
without credits holds none of another queue; routing is switched on with its configuration. The model's choices it rests on: log 29. -/
def Obligations.FlitsAndCredits : Prop :=
  ∀ (s : State) (k : Fin 4) (f : Flit), s.dev.stop = none → lnkState s.dev k.val = 2 →
    let x := s.dev.port k
    let kind := bits f.side.toNat 7 6
    let q := bits f.side.toNat 5 3
    (kind = 1 ∨ kind = 2 → x.awaitReplay = true → badWords f = [] → exec (.flitReceive k f) s = .next s) ∧
    (kind = 1 ∨ kind = 2 → x.awaitReplay = false → badWords f = [] → sideOk f = false → ∃ t, exec (.flitReceive k f) s = .next t ∧
      t.dev.port k = { x with awaitReplay := true, ctl := some (.nak x.rx) } ∧ t.dev.fld .lnkErr [k.val] 15 0 = min (s.dev.fld .lnkErr [k.val] 15 0 + 1) 65535) ∧
    (kind = 3 → badWords f = [] → sideOk f = true → exec (.flitReceive k f) s =
      .next (s.put (s.dev.setPort k { x with awaitReplay := false }))) ∧
    (kind = 1 → x.awaitReplay = false → badWords f = [] → sideOk f = true → bit f.side.toNat 2 = false → q ≤ 4 →
      (∀ o ∈ x.rxOpen, o.queue ≠ q) → ∃ t, exec (.flitReceive k f) s = .next t ∧
        let y := t.dev.port k
        y.rx = (x.rx + 1) % 2 ^ 16 ∧ y.rxOpen = x.rxOpen ++ [⟨q, headerOf f.data.toNat, [], false⟩] ∧ y.wire = x.wire ∧ y.wait = x.wait ∧
        (x.unacked < 63 → y.unacked = x.unacked + 1 ∧ y.ctl = x.ctl ∧ y.rxFree = x.rxFree) ∧
        (63 ≤ x.unacked → y.unacked = 0 ∧ y.ctl = some (.ack ((x.rx + 1) % 2 ^ 16) x.rxFree) ∧ y.rxFree = [0, 0, 0, 0, 0]) ∧
        t.dev.regs = s.dev.regs ∧ t.dev.mem = s.dev.mem ∧ t.dev.cores = s.dev.cores) ∧
    (∀ o, kind = 2 → x.awaitReplay = false → badWords f = [] → sideOk f = true → bit f.side.toNat 2 = false → q ≤ 4 →
      openOn x q = some o → o.drop = true → x.unacked < 63 → ∃ t, exec (.flitReceive k f) s = .next t ∧
        let y := t.dev.port k
        y.rx = (x.rx + 1) % 2 ^ 16 ∧ y.rxOpen = x.rxOpen ∧ y.unacked = 0 ∧ y.rxFree = [0, 0, 0, 0, 0] ∧
        y.ctl = some (.ack ((x.rx + 1) % 2 ^ 16) (modAt x.rxFree q (· + 1))) ∧ t.dev.regs = s.dev.regs ∧ t.dev.mem = s.dev.mem) ∧
    (∀ (good : BitVec 16) (a b : List (Nat × Nat × Flit)) (e : Nat × Flit), x.replay = a ++ (good.toNat, e) :: b →
      (∀ y ∈ a, y.1 ≠ good.toNat) → exec (.nak k good) s =
        .next (s.put (s.dev.setPort k { x with replay := b, wire := x.wire ++ b.map (·.2.2) }))) ∧
    (∀ (good : BitVec 16) (a b : List (Nat × Nat × Flit)) (e : Nat × Flit) (c : List Nat), x.replay = a ++ (good.toNat, e) :: b →
      (∀ y ∈ a, y.1 ≠ good.toNat) → x.wait = [] → x.credits.length = 5 → ∃ t, exec (.linkAck k good c) s = .next t ∧
        (t.dev.port k).replay = b ∧ (t.dev.port k).acked = good.toNat ∧
        (∀ i, i < 5 → (t.dev.port k).credits.getD i 0 = min (if i = 4 then 16 else 256) (x.credits.getD i 0 + c.getD i 0)) ∧
        t.dev.regs = s.dev.regs ∧ t.dev.mem = s.dev.mem) ∧
    (∀ (good : BitVec 16) (a : List (Nat × Nat × Flit)) (e : Nat × Flit) (c : List Nat) (p1 p2 : Packet) (q1 q2 : Nat),
      let room (i : Nat) : Nat := min (if i = 4 then 16 else 256) (x.credits.getD i 0 + c.getD i 0)
      x.replay = a ++ [(good.toNat, e)] → (∀ y ∈ a, y.1 ≠ good.toNat) → x.wait = [(q1, p1), (q2, p2)] → q1 ≠ q2 → q1 < 5 → q2 < 5 →
      x.credits.length = 5 → room q1 < (packetFlits q1 p1).length → (packetFlits q2 p2).length ≤ room q2 →
      ∃ t, exec (.linkAck k good c) s = .next t ∧ (t.dev.port k).wire = packetFlits q2 p2 ∧ (t.dev.port k).wait = [(q1, p1)]) ∧
    (∀ v : W32, s.dev.flag .lnkFabCtl [] 31 = false → s.dev.locked = false → ∃ t, exec (.fabricEnable v) s = .next t ∧
      t.dev.flag .lnkFabCtl [] 31 = bit v.toNat 31 ∧ t.dev.flag .lnkFabCtl [] 30 = bit v.toNat 30 ∧
      t.dev.fld .lnkFabCtl [] 10 8 = bits v.toNat 10 8 ∧ t.dev.fld .lnkFabCtl [] 3 0 = bits v.toNat 3 0 ∧ t.dev.lnk = s.dev.lnk) ∧
    (∀ (n p : Nat) (g : Fin 4) (pkt : Packet), s.dev.ownId ≠ none → s.dev.flag .lnkFabCtl [] 31 = true → s.dev.routeOf n = some g.val →
      lnkState s.dev g.val = 2 → (s.dev.port g).wait = [] → p = s.dev.queueOf (kindClass pkt.kind.toNat) (s.dev.vcFor g.val none) →
      (packetFlits p pkt).length ≤ (s.dev.port g).credits.getD p 0 → (s.dev.port g).replay = [] →
      ((s.dev.sendPkt n pkt).port g).wire = (s.dev.port g).wire ++ packetFlits p pkt ∧ ((s.dev.sendPkt n pkt).port g).wait = [] ∧
        ((s.dev.sendPkt n pkt).port g).tx = ((s.dev.port g).tx + (packetFlits p pkt).length) % 2 ^ 16)

/-- R45, R258, R357, R358: a request for this device's Commons is served: a READ answers its blocks, a WRITE stores the masked bytes of
its block and is acknowledged, an ATOMIC is performed once for its key and answers the result again; one outside what is reachable
answers ERROR 0x0A, and where the whole range of a FIRST request is not reachable no later request of its transfer stores a byte. R200,
R357, R359, R360, R363, R364: a response (RDATA, WACK, ARESULT) retires the request whose UNIT and TAG it carries; what is for another
device goes out on the port its route names; an error faults the transfer; MGMT goes into the mailbox while it has room, else is
counted; a child's arrival is noted and a release lets the system barrier pass; what is for another device without a route is discarded
and counted. The model's choices it rests on: log 19, 27, 30. -/
def Obligations.RemoteTransfers : Prop :=
  (∀ (s : State) (k : Fin 4) (q : Packet), s.dev.stop = none → lnkState s.dev k.val = 2 → s.dev.ownId = some (q.addr.toNat / 2 ^ 48) →
     s.dev.routedHere q.src.toNat = false →
     let a := q.addr.toNat % 2 ^ 48
     let back (kind stat len : Nat) (data : List Byte) : Packet :=
       { (mkPacket (q.src.toNat * 2 ^ 48 + a) kind (q.addr.toNat / 2 ^ 48) q.unit.toNat q.tag.toNat) with
         stat := BitVec.ofNat 8 stat, len := BitVec.ofNat 8 len, data := data }
     let asKind (n : Nat) : Packet := { q with kind := BitVec.ofNat 8 n }
     let inCommons (n : Nat) : Prop := 0x800000000 ≤ a ∧ a + n ≤ 0x801000000
     let fresh : Prop := q.flags = 0#8 ∧ (q.src.toNat, q.unit.toNat) ∉ s.dev.lnk.refused
     let refusal : Packet := back 0x8F 0x0A 0 []
     (headerOk (asKind 0x01) = true → fresh → s.dev.poison = [] → inCommons (64 * q.len.toNat) →
       exec (.read k q) s = .next (s.put (s.dev.sendPkt q.src.toNat (back 0x81 0 q.len.toNat (s.dev.mem.rdN a (64 * q.len.toNat)))))) ∧
     (headerOk (asKind 0x01) = true → q.flags = 0#8 → 0x400000000 ≤ a → a + 64 * q.len.toNat ≤ 0x800000000 →
       exec (.read k q) s = .next (s.put (s.dev.sendPkt q.src.toNat refusal))) ∧
     (headerOk (asKind 0x02) = true → q.flags = 1#8 → inCommons (64 * q.len.toNat) →
       (∃ l, q.lasta.toNat % 2 ^ 48 = l ∧ 0x801000000 ≤ l ∧ l < 0x802000000) → ∃ t, exec (.write k q) s = .next t ∧ t.dev.mem = s.dev.mem ∧
         (q.src.toNat, q.unit.toNat) ∈ t.dev.lnk.refused ∧ t.dev.lnk.ports = (s.dev.sendPkt q.src.toNat refusal).lnk.ports) ∧
     (headerOk (asKind 0x02) = true → q.flags = 0#8 → (q.src.toNat, q.unit.toNat) ∈ s.dev.lnk.refused → inCommons (64 * q.len.toNat) →
       exec (.write k q) s = .next (s.put (s.dev.sendPkt q.src.toNat refusal))) ∧
     (headerOk (asKind 0x02) = true → fresh → q.len = 1#8 → inCommons 64 → ∃ t, exec (.write k q) s = .next t ∧
       (∀ i, i < 64 → t.dev.mem.rd (a + i) = (if q.mask.getLsbD i then q.data.getD i 0#8 else s.dev.mem.rd (a + i))) ∧
       (∀ y, y < a ∨ a + 64 ≤ y → t.dev.mem.rd y = s.dev.mem.rd y) ∧ t.dev.cores = s.dev.cores ∧
       t.dev.lnk = (s.dev.sendPkt q.src.toNat (back 0x82 0 0 [])).lnk) ∧
     (∀ v key : Nat, headerOk (asKind 0x03) = true → q.aux = 5#8 → 0x810000000 ≤ a → a + 8 ≤ 0x810100000 → a % 8 = 0 → s.dev.poison = [] →
       leNat (q.data.take 8) = v → leNat ((q.data.drop 16).take 8) = key →
       let w := a - 0x10000000
       let old := leNat (s.dev.mem.rdN w 8)
       let answer (r : Nat) : Packet := back 0x83 0 0 (leBytes 8 r ++ List.replicate 24 0#8)
       ((∀ e ∈ s.dev.com.remote, ¬ (e.dev = q.src.toNat ∧ e.tag = key)) → ∃ t, exec (.atomic k q) s = .next t ∧
         leNat (t.dev.mem.rdN w 8) = (old + v) % 2 ^ 64 ∧ (∀ y, y < w ∨ w + 8 ≤ y → t.dev.mem.rd y = s.dev.mem.rd y) ∧
         (∃ e ∈ t.dev.com.remote, e.dev = q.src.toNat ∧ e.tag = key ∧ e.result.toNat = old) ∧
         t.dev.lnk = (s.dev.sendPkt q.src.toNat (answer old)).lnk) ∧
       (∀ e, s.dev.com.remote = [e] → e.dev = q.src.toNat → e.tag = key →
         exec (.atomic k q) s = .next (s.put (s.dev.sendPkt q.src.toNat (answer e.result.toNat)))))) ∧
  (∀ (s : State) (k : Fin 4) (q : Packet), s.dev.stop = none → lnkState s.dev k.val = 2 →
     let asKind (n : Nat) : Packet := { q with kind := BitVec.ofNat 8 n }
     let lost (i : Instr) : Prop := ∃ t, exec i s = .next t ∧
       t.dev.fld .lnkErr [k.val] 23 16 = min (s.dev.fld .lnkErr [k.val] 23 16 + 1) 255 ∧ t.dev.mem = s.dev.mem ∧ t.dev.lnk = s.dev.lnk
     let own : Prop := s.dev.ownId = some (q.addr.toNat / 2 ^ 48)
     (∀ (p : Fin 7) (w : Fin 3) (x : Xfer) (block : Nat), own → q.unit.toNat = 3 * p.val + w.val → (s.dev.core p).wk w.val = [x] →
       x.sent = [(q.tag.toNat, block)] → (w.val = 2 → x.mdev = none ∨ x.wrote = true) →
       (headerOk (asKind 0x81) = true → exec (.rdata k q) s = .next (s.put (s.dev.modCore p (·.setWk w.val
         [{ x with sent := [], accepted := true, got := x.got ++ (q.data.zip (upto q.data.length)).map (fun e => (block + e.2, e.1)) }])))) ∧
       (headerOk (asKind 0x83) = true → exec (.aresult k q) s = .next (s.put (s.dev.modCore p (·.setWk w.val
         [{ x with sent := [], accepted := true, got := x.got ++ (q.data.zip (upto q.data.length)).map (fun e => (block + e.2, e.1)) }])))) ∧
       (headerOk (asKind 0x82) = true → exec (.wack k q) s = .next (s.put (s.dev.modCore p (·.setWk w.val
         [{ x with sent := [], accepted := true }])))) ∧
       (headerOk (asKind 0x8F) = true → q.stat ≠ 0#8 → q.stat ≠ 0x0F#8 → x.cls < 4 → (s.dev.core p).mode = .running → (s.dev.core p).abort = none →
         (s.dev.core p).carryBad = false → (s.dev.core p).wlkFault = false → ∃ t, exec (.error k q) s = .next t ∧
           (t.dev.core p).abort = some 0x10#8 ∧ bits (t.dev.rg .coreWlkFault [p.val]).toNat 31 24 = q.stat.toNat)) ∧
     (own → headerOk (asKind 0x83) = true → findWait s.dev q = none → exec (.aresult k q) s = .next s) ∧
     (headerOk (asKind 0x10) = true → q.aux = 0#8 →
       (s.dev.lnk.mbox.length < 64 → exec (.mgmt k q) s = .next (s.put { s.dev with lnk := { s.dev.lnk with
         mbox := s.dev.lnk.mbox ++ [asKind 0x10] } })) ∧
       (64 ≤ s.dev.lnk.mbox.length → ∃ t, exec (.mgmt k q) s = .next t ∧ t.dev.lnk = s.dev.lnk ∧
         t.dev.fld .lnkMboxStat [] 23 16 = min (s.dev.fld .lnkMboxStat [] 23 16 + 1) 255)) ∧
     (headerOk (asKind 0x04) = true → ∃ t, exec (.barArrive k q) s = .next t ∧ (q.tag.toNat % 1024, k.val) ∈ t.dev.bar.child ∧
       t.dev.bar.arr = s.dev.bar.arr ∧ t.dev.mem = s.dev.mem) ∧
     (headerOk (asKind 0x84) = true → s.dev.childPorts = [] → ∃ t, exec (.barRelease k q) s = .next t ∧
       (s.dev.flag .ttBarDev [] 31 = false → ∀ a ∈ t.dev.bar.arr, a.level = 2 → a.id = q.tag.toNat % 1024 → a.released = true) ∧
       (s.dev.flag .ttBarDev [] 31 = true → s.dev.ownId.getD 0 % 16 ≠ 0 → t.dev.bar.arr = s.dev.bar.arr.map (fun a =>
           if a.level = 2 ∧ a.id = q.tag.toNat % 1024 ∧ a.released = false ∧ a.held = false then { a with held := true } else a) ∧
         t.dev.bar.hold = s.dev.bar.hold ++ [q.tag.toNat % 1024]) ∧ t.dev.mem = s.dev.mem) ∧
     (∀ g : Fin 4, ¬ own → s.dev.flag .lnkFabCtl [] 31 = true → s.dev.routeOf (q.addr.toNat / 2 ^ 48) = some g.val →
       lnkState s.dev g.val = 2 → (s.dev.port g).wait = [] → (s.dev.port g).replay = [] →
       let onward (n : Nat) (i : Instr) : Prop :=
         let c := s.dev.queueOf (kindClass n) (s.dev.vcFor g.val (some (k.val, 0)))
         headerOk (asKind n) = true → (packetFlits c (asKind n)).length ≤ (s.dev.port g).credits.getD c 0 → ∃ t, exec i s = .next t ∧
           (t.dev.port g).wire = (s.dev.port g).wire ++ packetFlits c (asKind n) ∧ (t.dev.port g).wait = [] ∧
           t.dev.regs = s.dev.regs ∧ t.dev.mem = s.dev.mem ∧ t.dev.cores = s.dev.cores
       onward 0x01 (.read k q) ∧ onward 0x03 (.atomic k q) ∧ onward 0x81 (.rdata k q) ∧ onward 0x83 (.aresult k q)) ∧
     (¬ own → s.dev.flag .lnkFabCtl [] 31 = false →
       (headerOk (asKind 0x01) = true → lost (.read k q)) ∧ (headerOk (asKind 0x82) = true → lost (.wack k q))))

/-! ## Power -/

/-- R371-R373, R376, R377, R393, R395, R400, R467: a step to another point moves the setpoint first when it goes up; the window closes
into a relock that stops the slots' clocks; after it the new point is in force with its setpoint and every slot starts a frame, unless
the core PLL is being replaced (R400); a move to point 1 that R393 asks for during a step starts when that step ends (R395), and a
regulator that answers nothing keeps its voltage (R467); a detector that sees less than (90 + THR)% of the setpoint has the next
delivered position stretched, and every later one while it trips, which counts; a frame boundary puts the largest skip source in force.
The model's choices it rests on: log 23, 90, 91, 92. -/
def Obligations.OperatingPoints : Prop :=
  ∀ (s : State) (req : BitVec 2) (p : Fin 7) (v : Droop), s.dev.stop = none → v.slot = p →
    let trips : Prop := ∃ mv ∈ v.mv.take 8, 100 * mv < (90 + min 8 (s.dev.fld .pwrDroop [] 3 0)) * s.dev.pwr.setpoint
    let busy := s.dev.flag .pwrDvfs [] 30
    let cur := s.dev.fld .pwrDvfs [] 27 26
    let volts (k : Nat) : Nat := s.dev.fuses.vfac.getD k 0 + 5 * s.dev.pwr.applied.getD k 0
    (busy = true → exec (.dvfsStep req) s = .next s) ∧
    (busy = false → req.toNat = cur → ∃ t, exec (.dvfsStep req) s = .next t ∧ t.dev.pwr = s.dev.pwr ∧ t.dev.cores = s.dev.cores ∧
      t.dev.fld .pwrDvfs [] 29 28 = req.toNat ∧ t.dev.flag .pwrDvfs [] 30 = false) ∧
    (busy = false → req.toNat ≠ cur → ∃ t, exec (.dvfsStep req) s = .next t ∧ t.dev.fld .pwrDvfs [] 31 26 = 48 + 4 * req.toNat + cur ∧
      t.dev.fld .pwrDvfs [] 4 0 = 0 ∧ t.dev.pwr.step = some { target := req.toNat, phase := if req.toNat < cur then 1 else 2 } ∧
      t.dev.pwr.setpoint = (if req.toNat < cur ∧ s.dev.pwr.mute = false then volts req.toNat else s.dev.pwr.setpoint) ∧ t.dev.cores = s.dev.cores) ∧
    (∀ x, s.dev.pwr.step = some x →
      (x.phase = 1 → exec .setpointSlewDone s = .next (s.put { s.dev with pwr := { s.dev.pwr with
        slewing := false, rail := 100 * (s.dev.pwr.setpoint : Int), step := some { x with phase := 2 } } })) ∧
      (x.phase = 2 → x.forced = false → (s.dev.core p).droop = true → exec .relockWindow s = .next s) ∧
      (x.phase = 2 → x.forced = true ∨ (∀ q, (s.dev.core q).droop = false) → ∃ t, exec .relockWindow s = .next t ∧ t.dev.pwr.step = some { x with phase := 3 } ∧
        (∀ q, t.dev.core q = { s.dev.core q with stopped := true }) ∧ t.dev.regs = s.dev.regs) ∧
      (x.phase = 3 → s.dev.pwr.pllOff = true → s.dev.pwr.toOne = false → ∃ t, exec .relockComplete s = .next t ∧ t.dev.pwr.step = none ∧
        (∀ q, (t.dev.core q).stopped = (s.dev.core q).stopped ∧ (t.dev.core q).pos = (s.dev.core q).pos)) ∧
      (x.phase = 3 → s.dev.pwr.toOne = true → x.target = 0 → ∃ t, exec .relockComplete s = .next t ∧
        t.dev.pwr.step = some { target := 1, phase := 2 } ∧ t.dev.pwr.toOne = false ∧ t.dev.fld .pwrDvfs [] 31 26 = 52) ∧
      (x.phase = 3 → x.target < 4 → s.dev.pwr.pllOff = false → s.dev.pwr.toOne = false → ∃ t, exec .relockComplete s = .next t ∧ t.dev.pwr.step = none ∧
        t.dev.fld .pwrDvfs [] 27 26 = x.target ∧ t.dev.flag .pwrDvfs [] 30 = false ∧
        t.dev.pwr.setpoint = (if s.dev.pwr.mute then s.dev.pwr.setpoint else volts x.target) ∧
        (∀ q, (t.dev.core q).stopped = false ∧ (t.dev.core q).pos = 0 ∧ (t.dev.core q).sregs = (s.dev.core q).sregs)) ∧
      (x.phase = 2 → x.forced = false → 16 ≤ s.dev.fld .pwrDvfs [] 4 0 → trips → (s.dev.core p).droop = false → ∃ t,
        exec (.droopTrip v) s = .next t ∧ t.dev.pwr.step = some { x with forced := true } ∧ t.dev.fld .pwrDvfs [] 15 8 = (s.dev.fld .pwrDvfs [] 15 8 + 1) % 256)) ∧
    (s.dev.pwr.step = none → trips → (s.dev.core p).stretch = 0 → ∃ t, exec (.droopTrip v) s = .next t ∧
      t.dev.core p = { s.dev.core p with droop := true, stretch := 1 } ∧ (∀ q, q ≠ p → t.dev.core q = s.dev.core q) ∧
      t.dev.regs = s.dev.regs) ∧
    (¬ trips → ∃ t, exec (.droopTrip v) s = .next t ∧ t.dev.core p = { s.dev.core p with droop := false } ∧
      (∀ q, q ≠ p → t.dev.core q = s.dev.core q) ∧ t.dev.regs = s.dev.regs ∧ t.dev.pwr = { s.dev.pwr with rail := t.dev.pwr.rail } ∧
      ∀ mv ∈ v.mv.take 8, t.dev.pwr.rail ≤ 100 * (mv : Int)) ∧
    (let c := s.dev.core p
     skipped c.skip c.pos = false → c.pos < 15 → c.stretch ≠ 0 →
       let d := s.dev.deliverPulse p
       (d.core p).stretch = (if c.droop then 1 else 0) ∧ (d.core p).pos = c.pos + 1 ∧
       d.fld .pwrStretch [] 31 0 = min (s.dev.fld .pwrStretch [] 31 0 + 1) (2 ^ 32 - 1)) ∧
    ((s.dev.core p).stopped = false → ∃ t, exec (.skipFrameBoundary p) s = .next t ∧ (t.dev.core p).pos = 0 ∧
      (∀ v, v ∈ [s.dev.fld .pwrSkip [] 3 0, s.dev.fld .pwrSkip [] 7 4, s.dev.fld .pwrSkip [] 11 8, s.dev.fld .pwrSkip [] 15 12,
        s.dev.fld .pwrSkip [] 21 20, s.dev.fld .pwrSlotFloor [] (4 * p.val + 3) (4 * p.val)] → v ≤ (t.dev.core p).skip) ∧
      (t.dev.core p).skip ∈ [s.dev.fld .pwrSkip [] 3 0, s.dev.fld .pwrSkip [] 7 4, s.dev.fld .pwrSkip [] 11 8,
        s.dev.fld .pwrSkip [] 15 12, s.dev.fld .pwrSkip [] 21 20, s.dev.fld .pwrSlotFloor [] (4 * p.val + 3) (4 * p.val)] ∧
      t.dev.regs = s.dev.regs)

/-- R380, R381: brace entry, with the rail below 93% of the setpoint (R378), sets the state, counts it, puts a skip of at least 8 in
force at once on every slot; recovery, the hold's end and the ramp take it back step by step to normal. R378, R383-R385, R395, R438: the
effective cap is the smallest of CAP, the fused ceiling and, under a lease, its grant in 20 to 75 W or the fallback; each tick moves the
cap's skip by one against the target; a grant write starts a lease and its expiry is noted, and with a CAP written at that instant the
next tick forms EFF from both new values (R395); a GRANT message writes the lease. The model's choices it rests on: log 14, 66, 92, 105. -/
def Obligations.BraceCapAndLease : Prop :=
  (∀ s : State, s.dev.stop = none →
     let state (t : State) : Nat := t.dev.fld .pwrSupply [] 31 30
     let skip (t : State) : Nat := t.dev.fld .pwrSkip [] 15 12
     let sp : Nat := if s.dev.pwr.slewing then min s.dev.pwr.oldSp s.dev.pwr.setpoint else s.dev.pwr.setpoint
     (s.dev.pwr.step = none → s.dev.pwr.rail < 93 * (sp : Int) → ∃ t, exec .braceEntry s = .next t ∧ state t = 1 ∧ skip t = 8 ∧
       t.dev.fld .pwrSupply [] 15 0 = (s.dev.fld .pwrSupply [] 15 0 + 1) % 65536 ∧ t.dev.pwr = s.dev.pwr ∧
       ∀ q, t.dev.core q = { s.dev.core q with pos := 0, skip := max 8 (s.dev.core q).skipOther }) ∧
     (93 * (sp : Int) ≤ s.dev.pwr.rail → exec .braceEntry s = .next s) ∧
     (state s = 1 → 93 * (sp : Int) < s.dev.pwr.rail → ∃ t, exec .braceRecovery s = .next t ∧ state t = 2 ∧ skip t = skip s ∧
       t.dev.cores = s.dev.cores ∧ t.dev.pwr = s.dev.pwr) ∧
     (state s ≠ 1 ∨ s.dev.pwr.rail ≤ 93 * (sp : Int) → exec .braceRecovery s = .next s) ∧
     (state s = 2 → ∃ t, exec .braceHoldEnd s = .next t ∧ skip t = skip s - 1 ∧ state t = (if skip s ≤ 1 then 0 else 3) ∧
       t.dev.cores = s.dev.cores) ∧
     (state s = 3 → ∃ t, exec .braceRampStep s = .next t ∧ skip t = skip s - 1 ∧ state t = (if skip s ≤ 1 then 0 else 3) ∧
       t.dev.cores = s.dev.cores)) ∧
  (∀ s : State, s.dev.stop = none →
     let lease (t : State) (hi lo : Nat) : Nat := t.dev.fld .pwrLease [] hi lo
     let ceil := if s.dev.fuses.grade = 2#8 then 40 else 75
     let c := min (s.dev.fld .pwrCap [] 7 0) ceil
     let eff := if lease s 31 31 = 1 then
       min c (if lease s 30 30 = 1 then max 20 (min 75 (lease s 7 0)) else lease s 15 8) else c
     (∀ estNow estAvg : Nat, ∃ t, exec (.capTick estNow estAvg) s = .next t ∧
       let now := s.dev.pwr.corrected estNow
       let avg := s.dev.pwr.corrected estAvg
       (s.dev.pwr.vout = 0 → now = estNow ∧ avg = estAvg) ∧
       let k := s.dev.fld .pwrSkip [] 7 4
       let target : Int := if 32 * (eff : Int) - avg < 0 then 0 else if 1200 < 32 * (eff : Int) - avg then 1200 else 32 * (eff : Int) - avg
       t.dev.fld .pwrCap [] 31 24 = eff ∧ t.dev.fld .telPwr [] 15 0 = min now 65535 ∧ t.dev.fld .telPwr [] 31 16 = min avg 65535 ∧
       t.dev.fld .pwrSkip [] 7 4 = (if target < now then min (k + 1) 15 else if (now : Int) < target - 16 then k - 1 else k) ∧
       t.dev.rg .telEnergy [] = s.dev.rg .telEnergy [] + BitVec.ofNat 32 ((s.dev.pwr.mjFrac + now) / 16) ∧
       t.dev.cores = s.dev.cores ∧ t.dev.mem = s.dev.mem) ∧
     (∀ v : W32, ∃ t, exec (.grantWrite v) s = .next t ∧ lease t 31 30 = 3 ∧ lease t 7 0 = bits v.toNat 7 0 ∧
       t.dev.pwr.leaseAt = s.dev.now ∧ lease t 15 8 = (if 20 ≤ bits v.toNat 15 8 ∧ bits v.toNat 15 8 ≤ 75 then bits v.toNat 15 8 else lease s 15 8)) ∧
     (∃ t, exec .leaseDrop s = .next t ∧ lease t 31 30 = 0 ∧ lease t 15 0 = lease s 15 0 ∧
       t.dev.pwr = { s.dev.pwr with lapse := false }) ∧
     (lease s 31 30 = 3 → ∃ t, exec .leaseExpire s = .next t ∧ lease t 31 29 = 5 ∧ lease t 15 0 = lease s 15 0 ∧
       t.dev.pwr = { s.dev.pwr with lapse := true } ∧ t.dev.fld .pwrCap [] 23 0 = s.dev.fld .pwrCap [] 23 0 ∧
       (∀ e, s.dev.pwr.capWas = some (s.dev.now, e) → e < 256 → t.dev.fld .pwrCap [] 31 24 = e) ∧
       ((∀ e, s.dev.pwr.capWas ≠ some (s.dev.now, e)) → t.dev.rg .pwrCap [] = s.dev.rg .pwrCap [])) ∧
     (∀ w : W32, s.dev.pwr.lapse = true → ∃ t, exec (.registerWrite (regOff .pwrCap []) w) s = .next t ∧
       t.dev.fld .pwrCap [] 31 24 = s.dev.fld .pwrCap [] 31 24) ∧
     (lease s 31 30 ≠ 3 → exec .leaseExpire s = .next s) ∧
     (∀ pl : List Byte, pl.length = 64 → recNat pl 0 1 = 1 → recNat pl 15 1 = 0 → s.dev.lnk.mbox = [] → ∃ t, exec (.grant pl) s = .next t ∧
       lease t 31 30 = 3 ∧ lease t 7 0 = recNat pl 4 1 ∧ lease t 15 8 = lease s 15 8 ∧ t.dev.lnk.mbox.length = 1) ∧
     (∀ pl : List Byte, recNat pl 0 1 ≠ 1 → s.dev.lnk.mbox = [] → exec (.grant pl) s = .next s))

/-- R388-R390, R397: the samples show as readings in quarter degrees; a sensor at 115 degrees in two samples running trips the device;
each tick at 100 degrees raises the thermal skip and at 98 lowers it; energy is added to its job's entry; enabling the table zeroes it.
R392-R394, R464, R467: a slack under 80 permille raises its point's margin, or at the largest margin marks the card exhausted; one of 80
to 140 leaves it; the card is stored when a margin has changed and 24 h have passed; the regulator's telemetry is kept and its alert
logged. The model's choices it rests on: log 4, 53, 66, 90, 92, 93, 105. -/
def Obligations.HeatEnergyAndReportCard : Prop :=
  (∀ s : State, s.dev.stop = none →
     let base := s.dev.fld .telEjob [] 28 0 * 2 ^ 19
     let skip (t : State) : Nat := t.dev.fld .pwrSkip [] 11 8
     (∀ l : List Int, l.length = 16 → (∀ x ∈ l, -40000 ≤ x ∧ x ≤ 150000) → ∃ t, exec (.thermalSample l) s = .next t ∧
       (∀ i, i < 16 → sensor t.dev i = (l.getD i 0 + 125) / 250) ∧
       (t.dev.stop = some .tripped ↔ ∃ i, i < 16 ∧ 460 ≤ sensor s.dev i ∧ 115000 - 125 ≤ l.getD i 0) ∧
       (t.dev.stop = none ∨ t.dev.stop = some .tripped) ∧ t.dev.mem = s.dev.mem ∧ t.dev.cores = s.dev.cores) ∧
     ((∃ i, i < 16 ∧ 400 ≤ sensor s.dev i) → ∃ t, exec .thermalTick s = .next t ∧ skip t = min (skip s + 1) 15 ∧
       t.dev.flag .telTherm [] 31 = true ∧ t.dev.fld .telTherm [] 15 0 = (s.dev.fld .telTherm [] 15 0 + 1) % 65536) ∧
     ((∀ i, i < 16 → sensor s.dev i ≤ 392) → ∃ t, exec .thermalTick s = .next t ∧ skip t = skip s - 1 ∧
       t.dev.flag .telTherm [] 31 = decide (1 < skip s)) ∧
     (∀ (c : Charge) (job uj : Nat), s.dev.flag .telEjob [] 31 = true → base + 524288 ≤ 0x400000000 → job < 65536 →
       (c = .other uj ∧ job = 0xFFFF ∨ ∃ p n, c = .task p n uj ∧ (s.dev.core p).jobs[n]? = some job) → ∃ t,
       exec (.energyTick [c]) s = .next t ∧
       leNat (t.dev.mem.rdN (base + 8 * job) 8) = (leNat (s.dev.mem.rdN (base + 8 * job) 8) + s.dev.pwr.corrected uj) % 2 ^ 64 ∧
       (∀ a, a < base + 8 * job ∨ base + 8 * job + 8 ≤ a → t.dev.mem.rd a = s.dev.mem.rd a) ∧ t.dev.regs = s.dev.regs ∧
       (∀ q, (t.dev.core q).jobs = (if (s.dev.core q).busy then [(s.dev.core q).jobId] else []))) ∧
     (∀ l, s.dev.flag .telEjob [] 31 = false → ∃ t, exec (.energyTick l) s = .next t ∧ t.dev.mem = s.dev.mem ∧ t.dev.regs = s.dev.regs) ∧
     (∀ b : BitVec 29, s.dev.flag .telEjob [] 31 = false → b.toNat * 2 ^ 19 + 524288 ≤ 0x400000000 → ∃ t,
       exec (.energyTableEnable b) s = .next t ∧ t.dev.flag .telEjob [] 31 = true ∧ t.dev.fld .telEjob [] 28 0 = b.toNat ∧
       (∀ x, x < 524288 → t.dev.mem.rd (b.toNat * 2 ^ 19 + x) = 0#8) ∧
       (∀ a, a < b.toNat * 2 ^ 19 ∨ b.toNat * 2 ^ 19 + 524288 ≤ a → t.dev.mem.rd a = s.dev.mem.rd a))) ∧
  (∀ (s : State) (k : Fin 4) (slack : Nat), s.dev.stop = none →
     let m (t : State) : Nat := t.dev.fld .telRcard [] (4 * k.val + 3) (4 * k.val)
     let inUse : Prop := s.dev.fld .secBoot [] 31 29 = 5 ∧ s.dev.fld .pwrDvfs [] 27 26 = k.val
     (¬ inUse → exec (.marginMeasure k slack) s = .next s) ∧
     (inUse → slack < 80 → m s < 10 → ∃ t, exec (.marginMeasure k slack) s = .next t ∧ m t = m s + 1 ∧
       t.dev.flag .telRcard [] 31 = s.dev.flag .telRcard [] 31) ∧
     (inUse → slack < 80 → 10 ≤ m s → ∃ t, exec (.marginMeasure k slack) s = .next t ∧ m t = m s ∧ t.dev.flag .telRcard [] 31 = true) ∧
     (inUse → 80 ≤ slack → slack ≤ 140 → s.dev.flt.tests = [] → ∃ t, exec (.marginMeasure k slack) s = .next t ∧ t.dev.regs = s.dev.regs ∧
       t.dev.pwr.setpoint = s.dev.pwr.setpoint) ∧
     (s.dev.fld .telRcard [] 15 0 = s.dev.pwr.rcStored.toNat % 65536 → exec .reportCardWrite s = .next s) ∧
     (∀ at_, s.dev.pwr.rcAt = some at_ → s.dev.now < at_ + 86400000000000 → exec .reportCardWrite s = .next s) ∧
     (s.dev.fld .telRcard [] 15 0 ≠ s.dev.pwr.rcStored.toNat % 65536 → (∀ at_, s.dev.pwr.rcAt = some at_ → at_ + 86400000000000 ≤ s.dev.now) → s.dev.curHdr ≠ none → ∃ t, exec .reportCardWrite s = .next t ∧
       t.dev.pwr = { s.dev.pwr with rcStored := s.dev.rg .telRcard [], rcAt := some s.dev.now } ∧ t.dev.mem = s.dev.mem ∧
       t.dev.regs = s.dev.regs) ∧
     (∀ mv ma : Nat, s.dev.pwr.mute = false → exec (.pmbusTelemetry mv ma) s = .next (s.put { s.dev with pwr := { s.dev.pwr with
       vout := mv, iout := ma, rail := 100 * (mv : Int) } })) ∧
     (∀ mv ma : Nat, s.dev.pwr.mute = true → exec (.pmbusTelemetry mv ma) s = .next s) ∧
     (s.dev.flt.recent = [] → s.dev.flt.block = false → s.dev.flt.evRing = none → s.dev.flt.held.length < 64 → ∃ t,
       exec .pmAlert s = .next t ∧ t.dev.flt.held = s.dev.flt.held ++ [⟨0, 7, 0, 1, s.dev.tb, 0, 0⟩] ∧ t.dev.mem = s.dev.mem ∧
       t.dev.regs = s.dev.regs ∧ t.dev.cores = s.dev.cores))

/-! ## Faults and spares -/

/-- R85, R258, R398-R401, R403: a transient error in a Satchel runs the tile again from its checkpoint; a permanent one freezes the
slot, whose atomics without a result are dropped (R258), and calls the understudy; an instruction-memory word is rewritten from the
mirror; a permanent error in Commons poisons its word; a dirty staff-core cache line raises a machine error and its service restarts; a
line of a capture or ISP buffer is filled and its frame marked; a lost core clock stops the slots until its spare has taken over and no
relock runs, a lost Commons clock Commons alone. The model's choices it rests on: log 25, 33, 34, 35, 57, 89. -/
def Obligations.ErrorsDetected : Prop :=
  ∀ (s : State) (p : Fin 7) (a : Nat), s.dev.stop = none →
    let c := s.dev.core p
    (c.active = true → c.frozen = false → c.abort = none → ∃ t, exec (.errorDetect (.satchel p a false) false) s = .next t ∧
      let k := t.dev.core p
      k.mode = .rerun ∧ k.reloading = true ∧ k.replayed = true ∧ k.pc = c.ckpt.pc ∧ k.sregs = c.ckpt.sregs ∧ k.mregs = c.ckpt.mregs ∧
      k.flags = c.ckpt.flags ∧ k.tally = c.ckpt.tally ∧ k.tiles = c.ckpt.tiles ∧ k.vregs = [] ∧ k.atomics = [] ∧
      k.arrA.queue = [] ∧ k.arrB.queue = [] ∧ (∀ q, q ≠ p → t.dev.core q = s.dev.core q)) ∧
    (c.mode ≠ .fusedOff → s.dev.flt.takeover = none → s.dev.logicalOf p.val < 6 → s.dev.spare < 7 → s.dev.spare ≠ p.val →
      (∀ x ∈ s.dev.flt.tests, x.kind ≠ 1) → ∃ t,
      exec (.errorDetect (.satchel p a false) true) s = .next t ∧ (t.dev.core p).frozen = true ∧ t.dev.mem = s.dev.mem ∧
      t.dev.flt.takeover = some { bad := p.val, good := s.dev.spare, lc := s.dev.logicalOf p.val, ts := s.dev.tb, words := [a] } ∧
      (∀ x ∈ (t.dev.core p).atomics, x.result ≠ none)) ∧
    (s.dev.logicalOf p.val < 6 → s.dev.flt.block = false → s.dev.flt.evRing = none → s.dev.flt.recent = [] → ∃ t,
      exec (.errorDetect (.imem p a false) false) s = .next t ∧
      (∀ x, x < 4 → let o := a % 0x40000 / 4 * 4 + x
        t.dev.mem.rd (0x900800000 + p.val * 0x1000000 + o) = spGet 0#8 s.dev.imMirror (s.dev.logicalOf p.val * 0x40000 + o)) ∧
      (t.dev.core p).parity = (c.busy || c.parity)) ∧
    (0x800000000 ≤ a → a < 0x801000000 → s.dev.flt.backing = [] → exec (.errorDetect (.commons a) false) s = .next s ∧
      ∃ t, exec (.errorDetect (.commons a) true) s = .next t ∧ t.dev.poisoned a = true ∧ t.dev.mem = s.dev.mem) ∧
    (∀ (h : Hart) (perm : Bool), exec (.errorDetect (.staffCache h false) perm) s = .next s ∧
      ∃ t, exec (.errorDetect (.staffCache h true) perm) s = .next t ∧
        t.dev.staff[h] = { exc := some (.machineError, 0), restarts := s.dev.staff[h].restarts + 1 } ∧ t.dev.mem = s.dev.mem ∧
        t.dev.regs = s.dev.regs ∧ t.dev.cores = s.dev.cores) ∧
    (∀ (v : Fin 16) (x : StreamSt) (f : CapFrame) (a b : List Nat) (perm : Bool), s.dev.stream v.val = some x → x.frame = some f →
      f.lines = [a, b] → ∃ t, exec (.errorDetect (.captureBuffer v) perm) s = .next t ∧
        t.dev.stream v.val = some { x with frame := some { f with flags := f.flags ||| 0x01#8, lines := [a, a] } } ∧
        (∀ j, j ≠ v.val → t.dev.stream j = s.dev.stream j) ∧ t.dev.mem = s.dev.mem ∧ t.dev.regs = s.dev.regs) ∧
    (∀ (k : Fin 2) (v : Nat) (f : CapFrame) (r : List (Nat × CapFrame)) (perm : Bool), s.dev.med.pipes[k].queue = (v, f) :: r → ∃ t,
      exec (.errorDetect (.ispBuffer k) perm) s = .next t ∧ (∃ g, t.dev.med.pipes[k].queue = (v, g) :: r ∧ g.flags = f.flags ||| 0x01#8) ∧
      t.dev.mem = s.dev.mem ∧ t.dev.regs = s.dev.regs) ∧
    (∃ t, exec (.pllLockLoss false) s = .next t ∧ t.dev.pwr.pllOff = true ∧
      ∀ q, (t.dev.core q).stopped = true ∧ (t.dev.core q).sregs = (s.dev.core q).sregs) ∧
    (∃ t, exec (.pllLockLoss true) s = .next t ∧ t.dev.pwr.commonsOff = true ∧ t.dev.cores = s.dev.cores) ∧
    ((∀ x, s.dev.pwr.step = some x → x.phase ≠ 3) → ∃ t, exec (.pllSwitchComplete false) s = .next t ∧ t.dev.pwr.pllOff = false ∧
      ∀ q, (t.dev.core q).stopped = false ∧ (t.dev.core q).pos = 0 ∧ (t.dev.core q).sregs = (s.dev.core q).sregs) ∧
    ((∃ x, s.dev.pwr.step = some x ∧ x.phase = 3) → ∃ t, exec (.pllSwitchComplete false) s = .next t ∧ t.dev.pwr.pllOff = false ∧
      t.dev.cores = s.dev.cores) ∧
    exec (.pllSwitchComplete true) s = .next (s.put { s.dev with pwr := { s.dev.pwr with commonsOff := false } })

/-- R41, R401, R403-R405: the understudy takes the failed slot's logical core, its instructions from the mirror; a task under way starts
its tile again there, an idle core is ready at once; the failed slot is out of service; when all is reloaded the takeover ends. The
model's choices it rests on: log 64, 88. -/
def Obligations.TakeoverSteps : Prop :=
  ∀ (s : State) (b g : Fin 7) (lc ts : Nat) (w : List Nat), s.dev.stop = none → b ≠ g → lc < 6 →
    (∀ h ∈ (s.dev.core b).held ++ (s.dev.core g).held, 0x1000000 ≤ h.1 ∧ h.1 < 0x1700000) →
    (s.dev.flt.takeover = some { bad := b.val, good := g.val, lc := lc, ts := ts, remapped := false, words := w } → ∃ t,
      exec .takeoverRemap s = .next t ∧ t.dev.slotOf lc = g.val ∧ t.dev.spare = 7 ∧ (t.dev.core b).mode = .fusedOff ∧
      (∀ j, j < 6 → j ≠ lc → t.dev.slotOf j = s.dev.slotOf j) ∧
      ((s.dev.core b).busy = false → (t.dev.core g).mode = .idle ∧ t.dev.flt.takeover = none) ∧
      ((s.dev.core b).busy = true → (s.dev.core b).abort = none → (t.dev.core g).mode = .rerun ∧ (t.dev.core g).reloading = true ∧
        (t.dev.core g).taken = true ∧ (t.dev.core g).takenAt = some (b.val, ts) ∧ (t.dev.core g).pc = (s.dev.core b).ckpt.pc ∧ (t.dev.core g).sregs = (s.dev.core b).ckpt.sregs ∧
        t.dev.flt.takeover = some { bad := b.val, good := g.val, lc := lc, ts := ts, remapped := true, words := w })) ∧
    (s.dev.flt.takeover = some { bad := b.val, good := g.val, lc := lc, ts := ts, remapped := true, words := w } → (s.dev.core g).abort = none →
      (∀ x ∈ (s.dev.core g).wk0 ++ (s.dev.core g).wk1, x.reissue = false) →
      ((s.dev.core g).wk2 = [] → ∃ t, exec .takeoverReloadDone s = .next t ∧ t.dev.flt.takeover = none ∧
        (t.dev.core g).reloading = false ∧ (t.dev.core g).tileCyc = 0 ∧ (t.dev.core g).takenAt = (s.dev.core g).takenAt ∧
        ((s.dev.core g).ckpt.next = [] → (t.dev.core g).flags = (s.dev.core g).ckpt.flags) ∧ (t.dev.core g).pc = (s.dev.core g).pc) ∧
      ((s.dev.core g).wk2 ≠ [] → exec .takeoverReloadDone s = .next s))

/-- R42, R338, R409-R414: a due rotation step, once a task on the core has completed, moves the idle logical core to the standby
understudy and its old slot into self-test; a skipped one passes to the next core; a slot that passes is the understudy again, one that
fails goes out of service for good; a Recess window counts corrections, asks for the repair of a row with 16 in 24 hours (R338), and
moves the scrubs on by what is left of their shares; a device test ends with every Commons byte free to be anything and dispatch open.
The model's choices it rests on: log 9, 33, 52, 57, 95. -/
def Obligations.RotationAndTests : Prop :=
  ∀ (s : State) (o n : Fin 7), s.dev.stop = none →
    let k := s.dev.flt.rotNext
    (s.dev.rotates = true → exec .rotationDue s = .next (s.put { s.dev with flt := { s.dev.flt with rotDue := true } })) ∧
    (s.dev.rotates = false → exec .rotationDue s = .next s) ∧
    (∀ j, s.dev.flt.rotReady ≠ some j → s.dev.rotCore = j → exec .rotationStep s = .next s) ∧
    (∀ j, s.dev.flt.rotReady = some j → s.dev.rotCore = j → exec .rotationSkip s = .next s) ∧
    (s.dev.flt.rotReady = some k → s.dev.flt.rotDue = true → s.dev.rotates = true → k < 6 → s.dev.slotOf k = o.val → s.dev.spare = n.val →
      o ≠ n → (s.dev.core n).mode = .standby → s.dev.flt.tests = [] →
      (∀ h ∈ (s.dev.core o).held ++ (s.dev.core n).held, 0x1000000 ≤ h.1 ∧ h.1 < 0x1700000) →
      ((s.dev.core o).mode = .idle → (s.dev.core o).frozen = false → ∃ t, exec .rotationStep s = .next t ∧ t.dev.slotOf k = n.val ∧
        t.dev.spare = o.val ∧ (t.dev.core o).mode = .selfTest ∧ (t.dev.core n).mode = .idle ∧ t.dev.flt.rotNext = (k + 1) % 6 ∧
        t.dev.flt.rotDue = false ∧ t.dev.flt.rotReady = none ∧ (∀ j, j < 6 → j ≠ k → t.dev.slotOf j = s.dev.slotOf j)) ∧
      ((s.dev.core o).mode = .running → exec .rotationStep s = .next s)) ∧
    (∀ (j : Nat) (x : TestReq), s.dev.flt.rotDue = true → s.dev.flt.tests = [x] → x.kind = 1 → x.passed = false → x.arg = o.val →
      s.dev.logicalOf o.val = j → j < 6 →
      (s.dev.flt.rotReady = some j → (∀ h ∈ (s.dev.core o).held ++ (s.dev.core n).held, 0x1000000 ≤ h.1 ∧ h.1 < 0x1700000) →
        s.dev.rotates = true → s.dev.slotOf j = o.val → s.dev.spare = n.val → o ≠ n → (s.dev.core n).mode = .standby →
        (s.dev.core o).mode = .idle → (s.dev.core o).frozen = false → ∃ t, exec .rotationStep s = .next t ∧ t.dev.slotOf j = n.val ∧
        t.dev.spare = o.val ∧ (t.dev.core o).mode = .selfTest ∧ t.dev.flt.rotNext = (j + 1) % 6 ∧ t.dev.flt.tests = [x]) ∧
      (s.dev.flt.rotReady ≠ some j → ∃ t, exec .rotationSkip s = .next t ∧ t.dev.flt.rotNext = (j + 1) % 6 ∧ t.dev.flt.tests = [{ x with passed := true }])) ∧
    (s.dev.flt.rotDue = true → s.dev.flt.tests = [] → s.dev.flt.rotReady ≠ some k → ∃ t, exec .rotationSkip s = .next t ∧ t.dev.flt.rotNext = (k + 1) % 6 ∧
      t.dev.cores = s.dev.cores ∧ t.dev.flt.rotDue = true ∧ t.dev.flt.rotReady = none) ∧
    (o.val ∈ s.dev.flt.scrapped → ∀ r, exec (.selfTestComplete o r) s = .next s) ∧
    ((s.dev.core o).mode = .selfTest → 6 ≤ s.dev.logicalOf o.val → s.dev.fuses.badSlot = none → s.dev.flt.tests = [] →
      o.val ∉ s.dev.flt.scrapped →
      (∃ t, exec (.selfTestComplete o .pass) s = .next t ∧ (t.dev.core o).mode = .standby ∧ t.dev.spare = o.val ∧ t.dev.mem = s.dev.mem) ∧
      (∃ t, exec (.selfTestComplete o .failed) s = .next t ∧ (t.dev.core o).mode = .fusedOff ∧ t.dev.spare = 7 ∧
        t.dev.flt.rotOff = true ∧ o.val ∈ t.dev.flt.scrapped)) ∧
    (∀ (x : RowFix) (u v : Nat), (s.dev.chan x.ch).fixed = [] → ∃ t,
      exec (.recessWindow { corrections := [x], commonsUsed := u, stackUsed := v, errors := [] }) s = .next t ∧
      (t.dev.rg .memChOdecc [x.ch.val]).toNat = min ((s.dev.rg .memChOdecc [x.ch.val]).toNat + x.n) (2 ^ 32 - 1) ∧
      t.dev.flt.scrubCommons = (s.dev.flt.scrubCommons + (600000 - u)) % 0x1000000 ∧
      (s.dev.stackOn = true → t.dev.flt.scrubStack = (s.dev.flt.scrubStack + (153600 - v)) % 0x400000000) ∧
      (x.n < 16 → (t.dev.chan x.ch).todo = (s.dev.chan x.ch).todo ∧
        (t.dev.chan x.ch).fixed = [(x.pc, x.bank, x.row, s.dev.now, x.n)]) ∧
      (16 ≤ x.n → (t.dev.chan x.ch).fixed = [] ∧ (x.row ∉ repaired s.dev x.ch x.pc x.bank →
        (repaired s.dev x.ch x.pc x.bank).length < 2 →
        (s.dev.flag .memChPpr [x.ch.val] 31 = true → (x.pc, x.bank, x.row) ∈ (t.dev.chan x.ch).todo) ∧
        (s.dev.flag .memChPpr [x.ch.val] 31 = false → x.pc < 2 → x.bank < 16 → x.row < 16384 → t.dev.flag .memChPpr [x.ch.val] 31 = true ∧
          t.dev.fld .memChPpr [x.ch.val] 24 20 = 16 * x.pc + x.bank ∧ t.dev.fld .memChPpr [x.ch.val] 13 0 = x.row))) ∧
      (x.n < 16 → t.dev.mem = s.dev.mem) ∧ t.dev.cores = s.dev.cores) ∧
    (s.dev.flt.forced = true → s.dev.flt.devTest = none → ∃ t, exec (.deviceTestComplete true) s = .next t ∧ t.dev.flt.forced = false ∧
      t.dev.cores = s.dev.cores ∧ (∀ a, 0x800000000 ≤ a → a < 0x801000000 → ∃ e, t.dev.mem.rd a = Config.undefByte e a) ∧
      (∀ a, a < 0x800000000 → t.dev.mem.rd a = s.dev.mem.rd a)) ∧
    (s.dev.flt.forced = true → ∃ t, exec .forcedTestTimeout s = .next t ∧ ∀ q, (s.dev.core q).mode = .running →
      (s.dev.core q).abort = none → (s.dev.core q).carryBad = false → (t.dev.core q).abort = some 0x61#8) ∧
    (s.dev.flt.forced = false → exec .forcedTestTimeout s = .next s ∧ ∀ ok, exec (.deviceTestComplete ok) s = .next s)

/-! ## Service requests and trust -/

/-- R433: while the ring is on and the firmware runs, a poll takes the next request whose PHASE is new, counts it in the ring's word 0,
and answers a request with an unknown OP or a byte set that must be 0; while the ring is off, or before stage 5, it takes none. R434,
R435: a request that is not laid out as its table says is answered with COMMAND_INVALID and has no further effect. R433, R434: an answer
waits while the ring is off; with the ring on and room in it, its 32 bytes are written at the next place with the present PHASE, the
count goes up, and the message is signalled where it is enabled. The model's choices it rests on: log 23. -/
def Obligations.ServiceRings : Prop :=
  (∀ (s : State) (h : List Host.Cell), s.dev.stop = none →
     let d := s.dev.hostPut h
     let base := svcCmd s.dev
     let r := rdCells 0#8 d.hostMem (base + 64 + 64 * s.dev.svc.cmdIdx) 64
     let n := (s.dev.svc.cmdIdx + 1) % 2 ^ svcCmdLog s.dev
     let ph := if n = 0 then !s.dev.svc.cmdPh else s.dev.svc.cmdPh
     let next := rdCells 0#8 d.hostMem (base + 64 + 64 * n) 64
     (s.dev.flag .pciSvcCfg [] 31 = false ∨ s.dev.fld .secBoot [] 31 29 ≠ 5 → exec (.servicePoll h) s = .next (s.put d)) ∧
     (s.dev.fld .pciSvcCfg [] 31 30 = 2 → s.dev.fld .secBoot [] 31 29 = 5 → s.dev.pci.busMaster = true → s.dev.pci.d3hot = false →
       s.dev.svc.out = [] → s.dev.svc.notices = [] → s.dev.svc.written = leNat (rdCells 0#8 d.hostMem (base + 8) 8) → s.dev.svc.taken = [] →
       (r.getD 1 0#8).getLsbD 0 = s.dev.svc.cmdPh → (next.getD 1 0#8).getLsbD 0 ≠ ph →
       (reqHead r = true → ∃ t, exec (.servicePoll h) s = .next t ∧ t.dev.svc = { s.dev.svc with
           consumed := s.dev.svc.written, cmdIdx := n, cmdPh := ph, fetched := s.dev.svc.fetched + 1, taken := [r] } ∧
         rdCells 0#8 t.dev.hostMem base 8 = leBytes 8 (s.dev.svc.fetched + 1) ∧ t.dev.mem = s.dev.mem ∧ t.dev.regs = s.dev.regs ∧
         t.dev.cores = s.dev.cores) ∧
       (reqHead r = false → ∃ t, exec (.servicePoll h) s = .next t ∧ t.dev.svc.taken = [] ∧
         t.dev.svc.fetched = s.dev.svc.fetched + 1 ∧ t.dev.svc.written = s.dev.svc.written + 1 ∧ t.dev.mem = s.dev.mem ∧
         t.dev.cores = s.dev.cores)) ∧
     (s.dev.fld .pciSvcCfg [] 31 30 = 2 → s.dev.fld .secBoot [] 31 29 = 5 → s.dev.pci.busMaster = true → s.dev.pci.d3hot = false →
       s.dev.svc.out = [] → s.dev.svc.notices = [] → s.dev.svc.taken = [] → (r.getD 1 0#8).getLsbD 0 ≠ s.dev.svc.cmdPh →
       ∃ t, exec (.servicePoll h) s = .next t ∧ t.dev = { d with svc := { s.dev.svc with
         consumed := leNat (rdCells 0#8 d.hostMem (base + 8) 8) } })) ∧
  (∀ (s : State) (r : List Byte) (x : BitVec 256), s.dev.stop = none →
     ∀ e ∈ ([(0x01, [(8, 63)], .streamOpen), (0x02, [(8, 8)], .streamClose), (0x03, [(8, 63)], .encodeOpen), (0x04, [(8, 8)], .encodeClose),
         (0x10, [(8, 15)], .faultConfig), (0x11, [(8, 10)], .test), (0x12, [(8, 8), (16, 35)], .marionette), (0x13, [(8, 8)], .lease),
         (0x20, [(8, 15)], .settingsWrite), (0x21, [(8, 9), (16, 27)], .flashWrite), (0x22, [], .svnCommit),
         (0x23, [(8, 16)], .ownerProvision), (0x30, [(8, 15)], .identity), (0x31, [(8, 23)], .attest),
         (0x32, [(8, 15)], fun r => .debugChallenge r x), (0x33, [(8, 15)], .debugUnlock), (0x34, [], .reset)] :
         List (Nat × List (Nat × Nat) × (List Byte → Instr))),
       (∀ rest, s.dev.svc.taken = r :: rest → ¬ wellLaid e.1 e.2.1 r → exec (e.2.2 r) s = .next (s.answered e.1 r 0x15#8 [] id)) ∧
       (s.dev.svc.taken.head? ≠ some r → exec (e.2.2 r) s = .next s)) ∧
  (∀ (s : State) (r : List Byte) (rest : List (List Byte)), s.dev.stop = none → s.dev.svc.taken = r :: rest → wellLaid 0x22 [] r →
     let svn := max s.dev.fuses.rollback (s.dev.fld .secBoot [] 7 0)
     let i := s.dev.svc.rspIdx
     let n := (i + 1) % 2 ^ svcRspLog s.dev
     let at_ := svcRsp s.dev + 32 * i
     (∃ t, exec (.svnCommit r) s = .next t ∧ t.dev.fuses = { s.dev.fuses with rollback := svn } ∧ t.dev.fld .secState [] 6 0 = svn % 128 ∧
       t.dev.cores = s.dev.cores ∧
       (s.dev.flag .pciSvcCfg [] 31 = false → t.dev.svc = { s.dev.svc with
         taken := rest
         out := s.dev.svc.out ++ [respBytes false 0x22 (recNat r 4 4) 0x00#8 []] } ∧ t.dev.mem = s.dev.mem) ∧
       (s.dev.fld .pciSvcCfg [] 31 30 = 3 → s.dev.svc.out = [] → s.dev.svc.notices = [] →
         s.dev.svc.written - s.dev.svc.consumed < 2 ^ svcRspLog s.dev → s.dev.reach at_ 32 = true →
         t.dev.mem.rdN at_ 32 = respBytes s.dev.svc.rspPh 0x22 (recNat r 4 4) 0x00#8 [] ∧
         (∀ a, a < at_ ∨ at_ + 32 ≤ a → t.dev.mem.rd a = s.dev.mem.rd a) ∧
         t.dev.svc.out = [] ∧ t.dev.svc.rspIdx = n ∧ t.dev.svc.written = s.dev.svc.written + 1 ∧
         t.dev.svc.rspPh = (if n = 0 then !s.dev.svc.rspPh else s.dev.svc.rspPh) ∧
         (s.dev.flag .pciSvcCfg [] 29 = false → t.dev.pci = s.dev.pci))))

/-- R287, R435-R437: a stream is opened with its engine: a capture stream with none, a decode stream with the engine that has the most
room; an open stream closes at once when nothing of it is under way. The same for encoders. The model's choices it rests on: log 49, 58. -/
def Obligations.StreamRequests : Prop :=
  (∀ (s : State) (a : Nat) (l : List Nat),
    ((∀ b ∈ l, b < 0xF00000000 ∨ 0xF01000000 ≤ b) → s.dev.violAny l = s.dev) ∧
    (0xF00000000 ≤ a → a < 0xF01000000 → s.dev.fld .secState [] 23 16 < 255 →
      (s.dev.violAny [a]).fld .secState [] 23 16 = s.dev.fld .secState [] 23 16 + 1)) ∧
  ∀ (s : State) (r : List Byte) (rest : List (List Byte)), s.dev.stop = none → s.dev.svc.taken = r :: rest →
    let n := recNat r 8 1
    let load := recNat r 12 2 * recNat r 14 2 * recNat r 16 4
    let shape (x : StreamSt) : Prop := x.kind = recNat r 9 1 % 4 ∧ x.width = recNat r 12 2 ∧ x.height = recNat r 14 2 ∧
      x.rate = recNat r 16 4 ∧ x.nbuf = recNat r 11 1 ∧ x.pool = recNat r 24 8 ∧ x.recRing = recNat r 32 8 ∧ x.closing = none
    (wellLaid 1 [(8, 63)] r → streamOk s.dev r = true →
      (n < 16 → ∃ (t : State) (x : StreamSt), exec (.streamOpen r) s = .next t ∧ t.dev.stream n = some x ∧ shape x ∧ x.engine = 255 ∧
        (∀ m, m ≠ n → t.dev.stream m = s.dev.stream m) ∧ t.dev.cores = s.dev.cores) ∧
      (16 ≤ n → s.dev.med.streams = [] → load ≤ 2000000000000 → ∃ (t : State) (x : StreamSt), exec (.streamOpen r) s = .next t ∧ t.dev.stream n = some x ∧
        shape x ∧ x.engine = (if recNat r 9 1 % 4 = 1 then 0 else 6) ∧ t.dev.med.encs = s.dev.med.encs ∧ t.dev.cores = s.dev.cores) ∧
      (16 ≤ n → 2000000000000 < load → exec (.streamOpen r) s = .next (s.answered 1 r 0x60#8 [] id))) ∧
    (wellLaid 1 [(8, 63)] r → streamOk s.dev r = false → exec (.streamOpen r) s =
      .next ((s.put (s.dev.violAny (streamAddrs r))).answered 1 r 0x15#8 [] id)) ∧
    (∀ x : StreamSt, wellLaid 2 [(8, 8)] r → 16 ≤ n → s.dev.stream n = some x → x.closing = none → x.frame = none → x.cur = none →
      x.pics = [] → (∀ i : Fin 2, s.dev.med.pipes[i].queue = []) → ∃ t, exec (.streamClose r) s = .next t ∧ t.dev.stream n = none ∧
        (∀ m, m ≠ n → t.dev.stream m = s.dev.stream m) ∧ t.dev.cores = s.dev.cores) ∧
    (wellLaid 2 [(8, 8)] r → s.dev.stream n = none → exec (.streamClose r) s = .next (s.answered 2 r 0x15#8 [] id)) ∧
    (wellLaid 3 [(8, 63)] r → encodeOk s.dev r = true → s.dev.med.encs = [] → load ≤ 1000000000000 → ∃ (t : State) (x : EncSt),
      exec (.encodeOpen r) s = .next t ∧ t.dev.enc n = some x ∧ x.format = recNat r 9 1 ∧ x.width = recNat r 12 2 ∧
      x.height = recNat r 14 2 ∧ x.rate = recNat r 16 4 ∧ x.outLen = recNat r 28 4 ∧ x.out = recNat r 32 8 ∧
      x.engine = (if recNat r 9 1 = 2 then 6 else 4) ∧ t.dev.med.streams = s.dev.med.streams ∧ t.dev.cores = s.dev.cores) ∧
    (wellLaid 3 [(8, 63)] r → encodeOk s.dev r = false → exec (.encodeOpen r) s =
      .next ((s.put (s.dev.violAny (encodeAddrs r))).answered 3 r 0x15#8 [] id)) ∧
    (∀ x : EncSt, wellLaid 4 [(8, 8)] r → s.dev.enc n = some x → x.closing = none → x.jobs = [] → ∃ t, exec (.encodeClose r) s = .next t ∧
      t.dev.enc n = none ∧ (∀ m, m ≠ n → t.dev.enc m = s.dev.enc m) ∧ t.dev.med.streams = s.dev.med.streams)

/-- R385, R413-R415, R422, R435: a fault block is applied; a test waits for its command, a device test ends what waits and holds
dispatch; marionette mode is entered only while nothing runs, and left; a lease request grants its watts. R435, R442-R444: a settings
record that checks is appended, 64 a day at most; for an image that passes boot's checks its slot is erased and the write is under way,
a second meanwhile answered with BUSY, and when it ends (with the next tick, log 62) the image stands in the slot; each is refused
otherwise. The model's choices it rests on: log 52, 55, 56, 59, 60, 62. -/
def Obligations.FaultTestAndSettings : Prop :=
  (∀ (s : State) (r : List Byte) (rest : List (List Byte)), s.dev.stop = none → s.dev.svc.taken = r :: rest →
     let a := recNat r 8 8
     let b := s.dev.load a 320
     let kind := recNat r 8 1
     let k := recNat r 9 1
     let tag := recNat r 4 4
     (wellLaid 0x10 [(8, 15)] r → s.dev.inStack a 320 = true → faultBlockOk s.dev b = true → ∃ t, exec (.faultConfig r) s = .next t ∧
       t.dev.flt.block = true ∧ t.dev.flt.rotS = recNat b 0 4 ∧ t.dev.flt.evRing = some (recNat b 8 8, recNat b 4 1) ∧
       t.dev.flt.recEn = bit (recNat b 5 1) 0 ∧ t.dev.flt.recBase = recNat b 16 8 ∧ t.dev.flt.recLen = recNat b 24 8 ∧
       t.dev.flt.recPost = recNat b 32 4 ∧ t.dev.flt.held = (if s.dev.flt.evRing = some (recNat b 8 8, recNat b 4 1) then s.dev.flt.held else []) ∧
       (∀ e, e ∈ t.dev.flt.backing ↔ e.2.1 ≠ 0 ∧ ∃ i, i < 16 ∧ e = (recNat b (64 + 16 * i) 4, recNat b (68 + 16 * i) 4, recNat b (72 + 16 * i) 8)) ∧
       t.dev.cores = s.dev.cores) ∧
     (wellLaid 0x10 [(8, 15)] r → faultBlockOk s.dev b = false → exec (.faultConfig r) s = .next (s.answered 0x10 r 0x15#8 [] id)) ∧
     (wellLaid 0x11 [(8, 10)] r → recNat r 10 1 < 2 → s.dev.flt.tests = [] → s.dev.flt.devTest = none →
       (kind = 2 → k < 6 → ∃ t, exec (.test r) s = .next t ∧ t.dev = { s.dev.takenUp r with
         flt := { s.dev.flt with tests := [{ kind := 2, arg := k, tag := tag }] } }) ∧
       (kind = 3 → k < 16 → ∃ t, exec (.test r) s = .next t ∧ t.dev = { s.dev.takenUp r with
         flt := { s.dev.flt with tests := [{ kind := 3, arg := k, tag := tag }] } }) ∧
       (kind = 1 → k < 6 → s.dev.spare ≠ 7 → ∃ t, exec (.test r) s = .next t ∧ t.dev = { s.dev.takenUp r with
         flt := { s.dev.flt with tests := [{ kind := 1, arg := s.dev.slotOf k, tag := tag }], rotDue := true } }) ∧
       (kind = 1 → k < 6 → s.dev.spare = 7 → exec (.test r) s = .next (s.answered 0x11 r 0x60#8 [] id)) ∧
       (kind = 4 → k < 6 → s.dev.tt.entries = [] → s.dev.tt.fetched = [] → s.dev.flt.forced = false → ∃ t, exec (.test r) s = .next t ∧
         t.dev.flt.forced = true ∧ t.dev.flt.devTest = some { kind := 4, arg := k, tag := tag } ∧ t.dev.cores = s.dev.cores) ∧
       (5 ≤ kind → exec (.test r) s = .next (s.answered 0x11 r 0x15#8 [] id))) ∧
     (wellLaid 0x12 [(8, 8), (16, 35)] r →
       (kind = 0 → s.dev.flt.mario ≠ none → exec (.marionette r) s = .next (s.answered 0x12 r 0x00#8 [] (fun d =>
         { d with flt := { d.flt with mario := none } }))) ∧
       (kind = 0 → s.dev.flt.mario = none → exec (.marionette r) s = .next (s.answered 0x12 r 0x15#8 [] id)) ∧
       (kind = 1 → s.dev.flag .ttCtl [] 0 = true → exec (.marionette r) s = .next (s.answered 0x12 r 0x15#8 [] id)) ∧
       (kind = 1 → s.dev.flag .ttCtl [] 0 = false → (∀ n, n < 16 → s.dev.flag .capVcCfg [n] 31 = false) → s.dev.flt.mario = none →
         recNat r 16 8 % 64 = 0 → recNat r 24 8 = 2 ^ 20 → recNat r 16 8 + 2 ^ 20 ≤ 0x3F0000000 → s.dev.flag .memGctl [] 31 = true →
         ∃ t, exec (.marionette r) s = .next t ∧ t.dev.cores = s.dev.cores ∧ t.dev.flt.mario.map (·.tag) = some tag)) ∧
     (wellLaid 0x13 [(8, 8)] r → ∃ t, exec (.lease r) s = .next t ∧ t.dev.fld .pwrLease [] 31 30 = 3 ∧ t.dev.fld .pwrLease [] 7 0 = kind ∧
       t.dev.fld .pwrLease [] 15 8 = s.dev.fld .pwrLease [] 15 8 ∧ t.dev.pwr.leaseAt = s.dev.now ∧ t.dev.cores = s.dev.cores)) ∧
  (∀ (s : State) (r : List Byte) (rest : List (List Byte)), s.dev.stop = none → s.dev.svc.taken = r :: rest →
     let a := recNat r 8 8
     let recent := s.dev.boot.writes.filter (fun t => decide (s.dev.now < t + dayNs))
     let slot := recNat r 8 1
     let src := recNat r 16 8
     let n := recNat r 24 4
     let fw := slot != 2
     let reason := imgReason (s.dev.memAt src) fw n (if fw then s.dev.fuses.fwKey else s.dev.fuses.vendorKey) (if fw then s.dev.fuses.rollback else 0)
     (wellLaid 0x20 [(8, 15)] r → s.dev.curHdr ≠ none →
       (∀ b, settingsRec s.dev a = some b → recent.length < 64 → ∃ t, exec (.settingsWrite r) s = .next t ∧
         t.dev.flash = (s.dev.logAppend b).flash ∧ t.dev.boot = { s.dev.boot with writes := recent ++ [s.dev.now] } ∧
         t.dev.fuses = s.dev.fuses ∧ t.dev.cores = s.dev.cores) ∧
       (∀ b, settingsRec s.dev a = some b → 64 ≤ recent.length → exec (.settingsWrite r) s = .next (s.answered 0x20 r 0x60#8 [] id)) ∧
       (settingsRec s.dev a = none → exec (.settingsWrite r) s = .next (s.answered 0x20 r 0x15#8 [] id))) ∧
     (wellLaid 0x21 [(8, 9), (16, 27)] r →
       (∀ (at_ : Nat) (h : List Byte), s.dev.curHdr = some (at_, h) → slot ≤ 2 → recNat r 9 1 ≤ 1 → n ≤ 0x900000 →
         s.dev.reach src n = true → reason = 0 →
         let base := recNat h (if slot = 0 then 12 else if slot = 1 then 16 else 8) 4
         (s.dev.boot.flash = none → ∃ t, exec (.flashWrite r) s = .next t ∧
           t.dev = { s.dev.takenUp r with
             flash := t.dev.flash
             boot := { s.dev.boot with flash := some ⟨slot, recNat r 9 1 == 1 && fw, s.dev.mem.rdN src n, recNat r 4 4⟩ } } ∧
           (∀ i, i < 0x900000 → spGet 0xFF#8 t.dev.flash (base + i) = 0xFF#8) ∧
           (∀ x, x < base ∨ base + 0x900000 ≤ x → spGet 0xFF#8 t.dev.flash x = spGet 0xFF#8 s.dev.flash x)) ∧
         (s.dev.boot.flash ≠ none → exec (.flashWrite r) s = .next (s.answered 0x21 r 0x60#8 [] id))) ∧
       (reason ≠ 0 → exec (.flashWrite r) s = .next (s.answered 0x21 r 0x15#8 [] id)))) ∧
  (∀ (s : State) (j : FlashJob) (at_ : Nat) (h : List Byte), s.dev.boot.flash = some j → s.dev.curHdr = some (at_, h) → j.slot ≤ 2 →
     j.prefer = false →
     let base := recNat h (if j.slot = 0 then 12 else if j.slot = 1 then 16 else 8) 4
     ∃ d : Dev, s.dev.flashDone = d.reply 0x21 j.tag 0x00#8 [] ∧
       d = { s.dev with flash := d.flash, boot := { s.dev.boot with flash := none } } ∧
       (∀ i, i < j.image.length → spGet 0xFF#8 d.flash (base + i) = j.image.getD i 0#8) ∧
       (∀ x, x < base ∨ base + j.image.length ≤ x → spGet 0xFF#8 d.flash x = spGet 0xFF#8 s.dev.flash x))

/-- R452-R456: the owner's key is taken once; the identity key and certificate, and a signed report with the measurement log, are stored
where the request asks. R458: a challenge is stored and kept until it expires or serves one unlock; a token that answers it opens its
scopes and is measured. The model's choices it rests on: log 54, 61. -/
def Obligations.OwnerIdentityAndDebug : Prop :=
  (∀ s : State, s.dev.stop = none → ∃ t, exec .debugChallengeExpire s = .next t ∧
     t.dev = { s.dev with boot := { s.dev.boot with challenge := none } }) ∧
  (∀ (s : State) (r : List Byte) (rest : List (List Byte)), s.dev.stop = none → s.dev.svc.taken = r :: rest →
     let a := recNat r 8 8
     let b := recNat r 16 8
     let key := sha256 (s.dev.load a 64)
     let m := s.dev.boot.mlog.length
     let body := s.dev.reportBody (s.dev.load a 32)
     (wellLaid 0x23 [(8, 16)] r → s.dev.reach a 64 = true → recNat r 16 1 < 2 →
       (s.dev.fuses.owned = false → (∀ i, s.dev.fuses.ownerKey.getD i 0#8 &&& ~~~key.getD i 0#8 = 0#8 ∨ 32 ≤ i) → ∃ t,
         exec (.ownerProvision r) s = .next t ∧ t.dev.fuses = { s.dev.fuses with
           ownerKey := key, owned := true, vdbg := s.dev.fuses.vdbg || decide (recNat r 16 1 = 1) } ∧
         t.dev.flag .secState [] 31 = true ∧ t.dev.flag .secState [] 30 = (s.dev.fuses.vdbg || decide (recNat r 16 1 = 1)) ∧
         t.dev.cores = s.dev.cores ∧ t.dev.flash = s.dev.flash) ∧
       (s.dev.fuses.owned = true → exec (.ownerProvision r) s = .next (s.answered 0x23 r 0x15#8 [] id))) ∧
     (wellLaid 0x30 [(8, 15)] r →
       (s.dev.reach a (64 + s.dev.fuses.cert.length) = true → exec (.identity r) s = .next (s.answered 0x30 r 0x00#8
         (leBytes 2 s.dev.fuses.cert.length) (fun d => d.store a (idPub s.dev.fuses ++ s.dev.fuses.cert)))) ∧
       (s.dev.reach a (64 + s.dev.fuses.cert.length) = false → exec (.identity r) s = .next (s.answered 0x30 r 0x15#8 [] id))) ∧
     (wellLaid 0x31 [(8, 23)] r →
       (s.dev.reach a 32 = true → s.dev.reach b (256 + 48 * m) = true → exec (.attest r) s = .next (s.answered 0x31 r 0x00#8 (leBytes 2 m)
         (fun d => d.store b (body ++ ecdsaSign (idKey s.dev.fuses) (sha256 body) ++ s.dev.boot.mlog.flatten)))) ∧
       (s.dev.reach a 32 = false → exec (.attest r) s = .next (s.answered 0x31 r 0x15#8 [] id)))) ∧
  (∀ (s : State) (r : List Byte) (x : BitVec 256) (rest : List (List Byte)), s.dev.stop = none → s.dev.svc.taken = r :: rest →
     let a := recNat r 8 8
     let tok := s.dev.load a 160
     (wellLaid 0x32 [(8, 15)] r → s.dev.reach a 32 = true → ∃ t, exec (.debugChallenge r x) s = .next t ∧
       t.dev.boot = { s.dev.boot with challenge := some (leBytes 32 x.toNat) } ∧ t.dev.fuses = s.dev.fuses ∧ t.dev.cores = s.dev.cores ∧
       (s.dev.flag .pciSvcCfg [] 31 = false → t.dev.mem.rdN a 32 = leBytes 32 x.toNat)) ∧
     (wellLaid 0x32 [(8, 15)] r → s.dev.reach a 32 = false → exec (.debugChallenge r x) s = .next (s.answered 0x32 r 0x15#8 [] id)) ∧
     (wellLaid 0x33 [(8, 15)] r →
       (∀ c, s.dev.boot.challenge = some c → s.dev.reach a 160 = true → tokenOk s.dev c tok = true → ∃ t, exec (.debugUnlock r) s = .next t ∧
         t.dev.boot.challenge = none ∧ t.dev.fld .secState [] 26 24 = (s.dev.fld .secState [] 26 24 ||| recNat tok 0 1) ∧
         t.dev.boot.items = s.dev.boot.items + 1 ∧ t.dev.fuses = s.dev.fuses ∧ t.dev.cores = s.dev.cores) ∧
       (∀ c, s.dev.boot.challenge = some c → tokenOk s.dev c tok = false → exec (.debugUnlock r) s = .next (s.answered 0x33 r 0x15#8 [] id)) ∧
       (s.dev.boot.challenge = none → exec (.debugUnlock r) s = .next (s.answered 0x33 r 0x15#8 [] id))))

/-! ## The function, resets and boot -/

/-- R423, R430-R432, R459: the function shows its device ID, revision and class in its configuration header; its commands: the service
ring is enabled with its indices and phases at their start, or refused, and while it is on nothing of its configuration but EN can be
written; errors are cleared, in Device Status by writing 1; a write of its Power Management capability moves it between D0 and D3hot; a
message that waited is sent once the function may and the vector is unmasked. The model's choices it rests on: log 5, 69, 97, 104. -/
def Obligations.FunctionControl : Prop :=
  ∀ (s : State) (v : W32), s.dev.stop = none →
    let size (n : Nat) : Bool := decide (4 ≤ n ∧ n ≤ 12)
    let cfg (t : State) (hi lo : Nat) : Nat := t.dev.fld .pciSvcCfg [] hi lo
    (cfg s 31 31 = 0 → size (bits v.toNat 7 4) = true → size (bits v.toNat 11 8) = true → s.dev.svc.out = [] → s.dev.svc.notices = [] →
      ∃ t, exec (.serviceRingEnable v) s = .next t ∧ cfg t 31 31 = 1 ∧ cfg t 30 30 = bits v.toNat 30 30 ∧ cfg t 29 29 = bits v.toNat 29 29 ∧
        cfg t 21 16 = bits v.toNat 21 16 ∧ cfg t 11 8 = bits v.toNat 11 8 ∧ cfg t 7 4 = bits v.toNat 7 4 ∧
        t.dev.svc = { cmdPh := true, rspPh := true, taken := s.dev.svc.taken } ∧ t.dev.mem = s.dev.mem ∧ t.dev.cores = s.dev.cores) ∧
    (cfg s 31 31 = 0 → (size (bits v.toNat 7 4) && size (bits v.toNat 11 8)) = false → ∃ t, exec (.serviceRingEnable v) s = .next t ∧
      cfg t 31 31 = 0 ∧ cfg t 28 28 = 1 ∧ t.dev.svc = s.dev.svc ∧ t.dev.mem = s.dev.mem) ∧
    (cfg s 31 31 = 1 → exec (.serviceRingEnable v) s = .next s) ∧
    (∀ w : W32, cfg s 31 31 = 1 → w.getLsbD 31 = false → exec (.registerWrite (regOff .pciSvcCfg []) w) s =
      .next (s.put (s.dev.setFld .pciSvcCfg [] 31 31 0))) ∧
    (∃ t, exec .pciErrClear s = .next t ∧ t.dev.fld .pciErr [] 23 0 = 0 ∧ t.dev.fld .pciErr [] 31 24 = s.dev.fld .pciErr [] 31 24 ∧
      t.dev.mem = s.dev.mem ∧ t.dev.cores = s.dev.cores ∧ t.dev.pci = s.dev.pci) ∧
    (∀ k : Fin 64, s.dev.pci.busMaster = true → s.dev.pci.d3hot = false → ∃ t, exec (.msixUnmask (some k) true false) s = .next t ∧
      t.dev.pci.vecMasked k.val = false ∧ t.dev.pci.pba.getLsbD k.val = false ∧
      (s.dev.pci.pba.getLsbD k.val = true → k.val ∈ t.dev.pci.msgs) ∧ (∀ m ∈ s.dev.pci.msgs, m ∈ t.dev.pci.msgs) ∧
      t.dev.regs = s.dev.regs ∧ t.dev.cores = s.dev.cores) ∧
    (∀ (k : Option (Fin 64)) (mask : Bool), ∃ t, exec (.msixUnmask k false mask) s = .next t ∧ t.dev.pci.pba = s.dev.pci.pba ∧
      t.dev.pci.msgs = s.dev.pci.msgs ∧ t.dev.pci.msixEn = false) ∧
    (∀ d3 bm : Bool, s.dev.svc.out = [] → s.dev.svc.notices = [] → s.dev.pci.msixEn = false → exec (.powerStateChange d3 bm) s =
      .next (s.put { s.dev with pci := { s.dev.pci with d3hot := d3, busMaster := bm } })) ∧
    (∃ t, exec (.hostRead 15 0 64) s = .next t ∧ t.dev.rd.data.length = 64 ∧ t.dev.rd.ep = false ∧
      (∀ e ∈ ([(2, 0x36), (3, 0x48), (9, 0x00), (10, 0x00), (11, 0x12), (14, 0x00)] : List (Nat × Nat)),
        t.dev.rd.data.getD e.1 0#8 = BitVec.ofNat 8 e.2) ∧
      t.dev.rd.data.getD 8 0#8 = s.dev.fuses.stepping ∧ t.dev.regs = s.dev.regs ∧ t.dev.mem = s.dev.mem ∧ t.dev.pci = s.dev.pci) ∧
    (∀ b : Byte, exec (.hostWrite 15 0x4A [b] false) s = .next (s.put { s.dev with pci := { s.dev.pci with
      devStat := s.dev.pci.devStat &&& ~~~(b.setWidth 4) } })) ∧
    (∀ b : Byte, s.dev.svc.out = [] → s.dev.svc.notices = [] → s.dev.pci.msixEn = false → exec (.hostWrite 15 0x84 [b] false) s =
      .next (if b.toNat % 4 = 0 ∨ b.toNat % 4 = 3 then s.put { s.dev with pci := { s.dev.pci with d3hot := decide (b.toNat % 4 = 3) } }
        else s)) ∧
    (∀ n : Nat, exec (.bar2Resize n) s = .next (if 28 ≤ n ∧ n ≤ 34 then s.put { s.dev with pci := { s.dev.pci with bar2Log := n } } else s)) ∧
    (∃ t, exec .functionReset s = .next t ∧ t.dev.svc = {} ∧ t.dev.pci = { msgs := t.dev.pci.msgs, linkWidth := s.dev.pci.linkWidth, linkRate := s.dev.pci.linkRate, errMsgs := s.dev.pci.errMsgs } ∧
      (∀ r ∈ ([.pciBar2Base, .pciBar4Core, .pciErr, .pciSvcCmdLo, .pciSvcCmdHi, .pciSvcRspLo, .pciSvcRspHi, .pciSvcCfg] : List Reg),
        t.dev.rg r [] = r.reset) ∧
      (∀ n : Fin 16, ringOn t.dev n.val = (ringOn s.dev n.val && ringLoc s.dev n.val)) ∧
      (∀ e ∈ t.dev.med.streams, e.1 < 16 ∨ e.2.loc = true) ∧ t.dev.cores = s.dev.cores ∧ t.dev.mem = s.dev.mem)

/-- R378, R379, R431, R435, R449, R470: a device reset from a running device leaves the fuses, the settings store and SEC_RESET, which
takes its cause and counts it; every other register is at its reset value, every slot idle or standing by, the stack and Commons
undefined; nothing waits or runs; the supply reset acts where the rail is below 88% of the setpoint, the lower one while it slews. While
the device is held, the lowest cause counts, whatever the rail's voltage; after a trip only the removal of the supplies acts. The
model's choices it rests on: log 9, 67, 92, 106. -/
def Obligations.DeviceResets : Prop :=
  ∀ s : State,
    let fresh (t : State) : Prop := t.dev.stop = some .reset ∧ t.dev.fuses = s.dev.fuses ∧ t.dev.flash = s.dev.flash ∧
      t.arbs = Vector.replicate 84 {} ∧ t.pending = s.pending ∧ t.dev.tt = {} ∧ t.dev.med = {} ∧ t.dev.boot = {} ∧ t.dev.svc = {} ∧
      t.dev.pci = {} ∧ t.dev.pwr = {} ∧ t.dev.straps = s.dev.straps ∧ t.dev.lnk = {} ∧ t.dev.flt = {} ∧ t.dev.poison = [] ∧
      (∀ r i, regOff r i ≠ regOff .secReset [] → t.dev.rg r i = regReset s.dev.fuses r i) ∧
      (∀ p : Fin 7, (t.dev.core p).mode = (if s.dev.fuses.badSlot = some p then .fusedOff
        else if (goodSlots s.dev.fuses).getD 6 7 = p.val then .standby else .idle) ∧ (t.dev.core p).sregs = []) ∧
      (∀ a, a < 0x400000000 ∨ 0x800000000 ≤ a ∧ a < 0x801000000 → ∃ e, t.dev.mem.rd a = Config.undefByte e a)
    let counted (t : State) (cause : Nat) : Prop := t.dev.fld .secReset [] 19 16 = cause ∧
      t.dev.fld .secReset [] 15 0 = min (s.dev.fld .secReset [] 15 0 + 1) 65535
    let sp : Nat := if s.dev.pwr.slewing then min s.dev.pwr.oldSp s.dev.pwr.setpoint else s.dev.pwr.setpoint
    (s.dev.stop ≠ some .reset → 88 * (sp : Int) ≤ s.dev.pwr.rail → exec .supplyReset s = .next s) ∧
    (∀ e ∈ ([(.resetNAssert, 1), (.perst, 2), (.supplyReset, 3)] : List (Instr × Nat)),
      (e.2 = 3 → s.dev.stop ≠ some .reset → s.dev.pwr.rail < 88 * (sp : Int)) →
      (s.dev.stop = none ∨ s.dev.stop = some .testMode → ∃ t, exec e.1 s = .next t ∧ fresh t ∧ counted t e.2) ∧
      (s.dev.stop = some .reset → ∃ t, exec e.1 s = .next t ∧
        t.dev.fld .secReset [] 19 16 = min e.2 (s.dev.fld .secReset [] 19 16) ∧ t.dev.fld .secReset [] 15 0 = s.dev.fld .secReset [] 15 0 ∧
        t.dev.cores = s.dev.cores ∧ t.dev.mem = s.dev.mem) ∧
      (s.dev.stop = some .tripped → exec e.1 s = .next s)) ∧
    (∀ r rest, s.dev.stop = none → s.dev.svc.taken = r :: rest → wellLaid 0x34 [] r → ∃ t, exec (.reset r) s = .next t ∧ t.dev.stop = some .reset ∧
      counted t 4 ∧ t.arbs = Vector.replicate 84 {} ∧ t.dev.fuses = s.dev.fuses ∧ t.dev.tt = {} ∧ t.dev.svc = {}) ∧
    (∃ t, exec .supplyRemoval s = .next t ∧ fresh t ∧ t.dev.rg .secReset [] = 0#32)

/-- R389, R464: after a trip no command but the removal of the supplies changes anything; with TEST_MODE high none but that and the
resets. -/
def Obligations.TripStands : Prop :=
  ∀ (s : State) (c : Instr), c ≠ .supplyRemoval →
    (s.dev.stop = some .tripped → exec c s = .next s) ∧
    (s.dev.stop = some .testMode → c ≠ .resetNAssert → c ≠ .perst → c ≠ .supplyReset → exec c s = .next s)

/-- R338, R339, R392, R441, R445-R447, R450, R464, R467, R468: the stages of boot: the ROM samples the straps (with TEST_MODE high it
stops), moves the rail to point 3 and takes the loader the header names; the loader takes the preferred image where it passes its
checks, else the other; the firmware trains the stack, steps the core up with a measurement at each point (a regulator that does not
answer leaves it at its boot voltage in stage 3), trains the links and opens service; each failure stops boot with its reason. R368,
R439, R447: an image pair that the host has placed in Commons starts from stage 6 where both pass their checks, and is refused with ERR
0x20 otherwise; a discovered map that agrees loads its tables with routing off and then turns routing on. The model's choices it rests
on: log 4, 13, 61, 63, 90, 106, 107. -/
def Obligations.BootStages : Prop :=
  (∀ s : State,
     let boot (t : State) (hi lo : Nat) : Nat := t.dev.fld .secBoot [] hi lo
     let at_ (h : List Byte) (o : Nat) : Nat → Nat → List Byte := s.dev.flashAt (recNat h o 4)
     let ldReason (h : List Byte) : Nat := imgReason (at_ h 8) false 0x900000 s.dev.fuses.vendorKey 0
     let fwReason (h : List Byte) (k : Nat) : Nat := imgReason (at_ h (12 + 4 * k)) true 0x900000 s.dev.fuses.fwKey s.dev.fuses.rollback
     (∀ x : Release, s.dev.stop = some .reset →
       let st : Straps := if s.dev.fld .secReset [] 19 16 ≤ 2 then x.straps else s.dev.straps
       st.testMode = true → ∃ t, exec (.resetRelease x) s = .next t ∧ t.dev.stop = some .testMode ∧ t.dev.straps = st ∧
         t.dev.regs = s.dev.regs ∧ t.dev.flash = s.dev.flash ∧ t.dev.fuses = s.dev.fuses) ∧
     (∀ x : Release, s.dev.stop = some .reset →
       let st : Straps := if s.dev.fld .secReset [] 19 16 ≤ 2 then x.straps else s.dev.straps
       st.testMode = false → ∃ t, exec (.resetRelease x) s = .next t ∧ t.dev.stop = none ∧ t.dev.straps = st ∧ t.dev.chn.head = st.head ∧
       t.dev.pwr.mute = !x.regulator ∧ (x.regulator = false → t.dev.pwr.setpoint = s.dev.pwr.setpoint) ∧
       (s.dev.governing 4 = none → x.regulator = true → t.dev.pwr.setpoint = s.dev.fuses.vfac.getD 3 0 + 5 * s.dev.pwr.applied.getD 3 0) ∧
       (s.dev.curHdr = none → boot t 31 29 = 6 ∧ boot t 15 8 = 1) ∧
       (∀ n h, s.dev.curHdr = some (n, h) → ldReason h ≠ 0 → boot t 31 29 = 6 ∧ boot t 15 8 = 2) ∧
       (∀ n h, s.dev.curHdr = some (n, h) → ldReason h = 0 → boot t 31 29 = 1 ∧
         t.dev.boot.loader = at_ h 8 320 (recNat (at_ h 8 0 320) 8 4)) ∧ t.dev.flash = s.dev.flash ∧ t.dev.fuses = s.dev.fuses) ∧
     (∀ x : Release, s.dev.stop = none → s.dev.boot.released = true → exec (.resetRelease x) s = .next s) ∧
     (s.dev.stop = none →
       (boot s 31 29 = 1 → s.dev.curHdr = none → ∃ t, exec .loaderImageCheck s = .next t ∧ boot t 31 29 = 6 ∧ boot t 15 8 = 1) ∧
       (∀ n h, boot s 31 29 = 1 → s.dev.curHdr = some (n, h) →
         let k := if recNat h 6 1 = 1 then 1 else 0
         (s.dev.imgErr k = 0 → fwReason h k = 0 → ∃ t, exec .loaderImageCheck s = .next t ∧ boot t 31 29 = 2 ∧ boot t 28 28 = k ∧
           boot t 7 0 = recNat (at_ h (12 + 4 * k) 0 320) 4 4 ∧ t.dev.boot.head = at_ h (12 + 4 * k) 0 320 ∧
           boot t 23 16 = boot s 23 16 ∧ t.dev.fuses = s.dev.fuses) ∧
         (s.dev.imgErr k ≠ 0 → s.dev.imgErr (1 - k) = 0 → fwReason h (1 - k) = 0 → ∃ t, exec .loaderImageCheck s = .next t ∧
           boot t 31 29 = 2 ∧ boot t 28 28 = 1 - k ∧ t.dev.boot.head = at_ h (12 + 4 * (1 - k)) 0 320) ∧
         (s.dev.imgErr k = 0 → s.dev.imgErr (1 - k) = 0 → fwReason h k ≠ 0 → fwReason h (1 - k) = 0 → ∃ t,
           exec .loaderImageCheck s = .next t ∧ boot t 31 29 = 2 ∧ boot t 28 28 = 1 - k ∧ t.dev.imgErr k = fwReason h k ∧
           t.dev.imgErr (1 - k) = 0 ∧ t.dev.boot.head = at_ h (12 + 4 * (1 - k)) 0 320) ∧
         (s.dev.imgErr 0 = 0 → s.dev.imgErr 1 = 0 → fwReason h 0 ≠ 0 → fwReason h 1 ≠ 0 → ∃ t, exec .loaderImageCheck s = .next t ∧
           boot t 31 29 = 6 ∧ boot t 15 8 = 3 ∧ boot t 23 20 = fwReason h 0 ∧ boot t 19 16 = fwReason h 1)) ∧
       (boot s 31 29 = 2 → (∃ t, exec (.firmwareRelease true) s = .next t ∧ boot t 31 29 = 3 ∧
           (∀ c, c < 16 → t.dev.fld .memChStat [c] 31 29 = 1) ∧ t.dev.cores = s.dev.cores) ∧
         (boot s 27 27 = 0 → ∃ t, exec (.firmwareRelease false) s = .next t ∧ boot t 31 29 = 1 ∧ t.dev.imgErr (boot s 28 28) = 6 ∧
           t.dev.cores = s.dev.cores) ∧
         (boot s 27 27 = 1 → ∃ t, exec (.firmwareRelease false) s = .next t ∧ boot t 31 29 = 6 ∧ boot t 15 8 = 3)) ∧
       (boot s 31 29 = 3 → (∀ (c : Fin 16) (up : StepUp), ∃ t, exec (.stackTrainingComplete [c] up) s = .next t ∧ boot t 31 29 = 7 ∧
           boot t 15 8 = 16 + c.val ∧ (∀ x, x < 16 → t.dev.fld .memChStat [x] 31 29 = (if x = c.val then 4 else 2))) ∧
         (∀ up : StepUp, (∀ k, s.dev.governing k = none) → mapOk s.dev = true →
           (up.regulator = false ∨ s.dev.pwr.mute = true → ∃ t, exec (.stackTrainingComplete [] up) s = .next t ∧ boot t 31 29 = 3 ∧
             t.dev.flag .memGctl [] 31 = true ∧ t.dev.pwr.setpoint = 700 ∧ t.dev.boot.uart = s.dev.boot.uart ++ [.regulatorMute]) ∧
           (∀ k, k < 4 → up.regulator = true → s.dev.pwr.mute = false → up.slack.getD k 100 < 80 →
             (∀ j, j < 4 → j ≠ k → 80 ≤ up.slack.getD j 100) → s.dev.flag .telRcard [] 31 = false →
             s.dev.fld .telRcard [] (4 * k + 3) (4 * k) < 10 → ∃ t, exec (.stackTrainingComplete [] up) s = .next t ∧
             boot t 31 29 = 4 ∧ t.dev.fld .telRcard [] (4 * k + 3) (4 * k) = s.dev.fld .telRcard [] (4 * k + 3) (4 * k) + 1) ∧
           (up.regulator = true → s.dev.pwr.mute = false → (∀ k, k < 4 → 80 ≤ up.slack.getD k 100) → ∃ t,
             exec (.stackTrainingComplete [] up) s = .next t ∧ boot t 31 29 = 4 ∧ t.dev.flag .memGctl [] 31 = true ∧
             (∀ x, x < 16 → t.dev.fld .memChStat [x] 31 29 = 2) ∧
             t.dev.fld .pwrDvfs [] 27 26 = (if s.dev.flag .telRcard [] 31 = true ∨ s.dev.boot.point = 1 then 1 else 0) ∧
             (∀ a, 0x800000000 ≤ a → a < 0x801000000 → t.dev.mem.rd a = 0#8) ∧ (∀ k, k < 4 → t.dev.flag .lnkCtl [k] 31 = true)))) ∧
       (boot s 31 29 = 4 → ∃ t, exec .bootReady s = .next t ∧ boot t 31 29 = 5 ∧ t.dev.flag .ttCtl [] 0 = true ∧ t.dev.cores = s.dev.cores) ∧
       (boot s 31 29 ≠ 4 → exec .bootReady s = .next s))) ∧
  (∀ (s : State) (len : BitVec 24), s.dev.stop = none →
     let ld := s.dev.memAt 0x800000000
     let off := ceilDiv (imgPlaces (ld 0 320)).2.2.2 64 * 64
     let fw := s.dev.memAt (0x800000000 + off)
     let ok : Prop := len.toNat % 64 = 0 ∧ off ≤ len.toNat ∧ imgReason ld false len.toNat s.dev.fuses.vendorKey 0 = 0 ∧
       imgReason fw true (len.toNat - off) s.dev.fuses.fwKey s.dev.fuses.rollback = 0
     (s.dev.stage = 6 → ok → ∃ t, exec (.recoveryGo len) s = .next t ∧ t.dev.stage = 2 ∧ t.dev.flag .secBoot [] 27 = true ∧
       t.dev.boot.head = fw 0 320 ∧ t.dev.boot.loader = ld 320 (recNat (ld 0 320) 8 4) ∧ t.dev.fld .secBoot [] 7 0 = recNat (fw 0 320) 4 4) ∧
     (s.dev.stage = 6 → ¬ ok → ∃ t, exec (.recoveryGo len) s = .next t ∧ t.dev.stage = 6 ∧ t.dev.fld .secBoot [] 15 8 = 0x20 ∧
       t.dev.fld .secRecovery [] 23 0 = len.toNat ∧ t.dev.mem = s.dev.mem ∧ t.dev.boot = s.dev.boot) ∧
     (s.dev.stage ≠ 6 → exec (.recoveryGo len) s = .next (s.put (s.dev.setFld .secRecovery [] 23 0 len.toNat))) ∧
     (∀ (roster : BitVec 8) (i : Nat) (v fab : W32), i < 192 → ∃ t,
       exec (.fabricDiscovery true roster [(i, v)] [] fab) s = .next t ∧ t.dev.flag .lnkFabCtl [] 31 = true ∧
       t.dev.rg .lnkRoute [i] = mergeWrite s.dev.locked (Reg.fields .lnkRoute) (s.dev.rg .lnkRoute [i]) v ∧
       (∀ j, j < 192 → j ≠ i → t.dev.rg .lnkRoute [j] = s.dev.rg .lnkRoute [j]) ∧ t.dev.cores = s.dev.cores) ∧
     (∀ (roster : BitVec 8) (routes ctl : List (Nat × W32)) (fab : W32), ∃ t, exec (.fabricDiscovery false roster routes ctl fab) s = .next t ∧
         t.dev.lnk = s.dev.lnk ∧ (∀ j, j < 192 → t.dev.rg .lnkRoute [j] = s.dev.rg .lnkRoute [j]) ∧ t.dev.rg .lnkFabCtl [] = s.dev.rg .lnkFabCtl [] ∧
         t.dev.cores = s.dev.cores))

/-- Registers' reset values: in State.reset each register has the value its table gives (R41, R42, R125, R292, R293, R321, R340, R349,
R354, R396, R460). The values that fuses set are the model's choice of fuses (log 3). -/
def Obligations.ResetRegisters : Prop :=
  ∀ e ∈ ([(.sysId, [], 0x48360001), (.sysLock, [], 0), (.sysCoreMap, [], 0x001AC688), (.coreArrIdle, [6], 0x400), (.coreWchCtl, [0], 7),
      (.ttCtl, [], 0), (.ttRingPoll, [], 4), (.ttBarDev, [], 0x8000003F), (.ttRingCfg, [15], 0), (.capVcCfg, [3], 0x04000000),
      (.capFsyncCfg, [0], 0x64), (.capFsyncPer, [1], 0x8235), (.memGctl, [], 2), (.memRdCtl, [], 0xC8141000), (.memMap, [0], 0x4DE6),
      (.memMap, [8], 0x724E), (.memRtThr, [9], 0x80000010), (.memChRepair, [2], 0x40), (.chnCfg, [], 0xA01), (.chnTime, [], 0xFFFFFFFF),
      (.lnkCtl, [3], 0x00100000), (.lnkFabCtl, [], 0), (.pwrCap, [], 0x4B08004B), (.pwrLease, [], 0x1400), (.pwrDvfs, [], 0x3C000000),
      (.pwrDroop, [], 5), (.pciSvcCfg, [], 0), (.pciErr, [], 0), (.secBoot, [], 0), (.secState, [], 0), (.secReset, [], 0)] :
      List (Reg × List Nat × Nat)),
    (State.reset.dev.rg e.1 e.2.1).toNat = e.2.2 ∧
    (∀ p : Fin 7, (State.reset.dev.core p).mode = (if p = 6 then .standby else .idle)) ∧ State.reset.pending = []
end

