-- ==== Sys2Proof/Laws/Sparse.lean ====
section
/-! SUPPORT. Sparse maps and memory: a read after a write, and the canonical form. -/

namespace Sys2Proof.Machine

variable {V : Type}

theorem spGet_erase_same (d : V) (m : Sparse V) (a : Nat) : spGet d (spErase m a) a = d := by
  induction m with
  | nil => rfl
  | cons e r ih =>
    obtain ⟨k, v⟩ := e
    by_cases h : k = a <;> simp [spErase, spGet, h, ih]

theorem spGet_erase_ne (d : V) (m : Sparse V) {a b : Nat} (h : b ≠ a) : spGet d (spErase m a) b = spGet d m b := by
  induction m with
  | nil => rfl
  | cons e r ih =>
    obtain ⟨k, v⟩ := e
    by_cases hk : k = a
    · have : k ≠ b := fun e => h (e.symm.trans hk)
      simp [spErase, spGet, hk, ih]; intro e; exact absurd e.symm h
    · by_cases hb : k = b
      · subst hb; simp [spErase, spGet, h]
      · simp [spErase, spGet, hk, hb, ih]

theorem spGet_ins_same (d : V) (m : Sparse V) (a : Nat) (v : V) : spGet d (spIns m a v) a = v := by
  induction m with
  | nil => simp [spIns, spGet]
  | cons e r ih =>
    obtain ⟨k, x⟩ := e
    simp only [spIns]
    split
    · simp [spGet]
    · split
      · simp [spGet]
      · rename_i h1 h2
        simp only [spGet, ih]
        rw [if_neg (fun e => h2 e.symm)]

theorem spGet_ins_ne (d : V) (m : Sparse V) {a b : Nat} (v : V) (h : b ≠ a) : spGet d (spIns m a v) b = spGet d m b := by
  induction m with
  | nil => simp [spIns, spGet]; intro e; exact absurd e.symm h
  | cons e r ih =>
    obtain ⟨k, x⟩ := e
    simp only [spIns]
    split
    · simp [spGet]; intro e; exact absurd e.symm h
    · split
      · rename_i h1 h2
        subst h2
        simp only [spGet]
        rw [if_neg (fun e => h e.symm), if_neg (fun e => h e.symm)]
      · simp only [spGet, ih]

/-- What is written is read. -/
@[simp] theorem spGet_spSet_same [DecidableEq V] (d : V) (m : Sparse V) (a : Nat) (v : V) :
    spGet d (spSet d m a v) a = v := by
  unfold spSet
  split
  · rename_i h; rw [spGet_erase_same, h]
  · exact spGet_ins_same d m a v

/-- A write leaves every other place alone. -/
theorem spGet_spSet_ne [DecidableEq V] (d : V) (m : Sparse V) {a b : Nat} (v : V) (h : b ≠ a) :
    spGet d (spSet d m a v) b = spGet d m b := by
  unfold spSet
  split
  · exact spGet_erase_ne d m h
  · exact spGet_ins_ne d m v h

/-- A place no write touches reads the same under any default. -/
theorem spGet_spSet_ne' [DecidableEq V] (d e : V) (m : Sparse V) {a b : Nat} (v : V) (h : b ≠ a) :
    spGet e (spSet d m a v) b = spGet e m b := by
  unfold spSet
  split
  · exact spGet_erase_ne e m h
  · exact spGet_ins_ne e m v h

/-! ## The canonical form is kept -/

theorem spRising_mono {m : Sparse V} {lo lo' : Nat} (h : spRising lo m = true) (hl : lo' ≤ lo) : spRising lo' m = true := by
  cases m with
  | nil => rfl
  | cons e r =>
    obtain ⟨k, v⟩ := e
    simp only [spRising, Bool.and_eq_true, decide_eq_true_eq] at h ⊢
    exact ⟨Nat.le_trans hl h.1, h.2⟩

theorem spRising_erase {m : Sparse V} {lo : Nat} (a : Nat) (h : spRising lo m = true) : spRising lo (spErase m a) = true := by
  induction m generalizing lo with
  | nil => rfl
  | cons e r ih =>
    obtain ⟨k, v⟩ := e
    simp only [spRising, Bool.and_eq_true, decide_eq_true_eq] at h
    simp only [spErase]
    split
    · exact ih (spRising_mono h.2 (by omega))
    · simp only [spRising, Bool.and_eq_true, decide_eq_true_eq]
      exact ⟨h.1, ih h.2⟩

theorem spRising_ins {m : Sparse V} {lo a : Nat} (v : V) (h : spRising lo m = true) (hl : lo ≤ a) :
    spRising lo (spIns m a v) = true := by
  induction m generalizing lo with
  | nil => simp [spIns, spRising, hl]
  | cons e r ih =>
    obtain ⟨k, x⟩ := e
    simp only [spRising, Bool.and_eq_true, decide_eq_true_eq] at h
    simp only [spIns]
    split
    · simp only [spRising, Bool.and_eq_true, decide_eq_true_eq]
      exact ⟨hl, by omega, h.2⟩
    · split
      · rename_i h1 h2
        simp only [spRising, Bool.and_eq_true, decide_eq_true_eq]
        exact ⟨hl, h2 ▸ h.2⟩
      · simp only [spRising, Bool.and_eq_true, decide_eq_true_eq]
        exact ⟨h.1, ih h.2 (by omega)⟩

theorem mem_spErase {m : Sparse V} {a : Nat} {e : Nat × V} (h : e ∈ spErase m a) : e ∈ m := by
  induction m with
  | nil => exact h
  | cons x r ih =>
    obtain ⟨k, v⟩ := x
    simp only [spErase] at h
    split at h
    · exact List.mem_cons_of_mem _ (ih h)
    · rcases List.mem_cons.mp h with h | h
      · exact h ▸ List.mem_cons_self
      · exact List.mem_cons_of_mem _ (ih h)

theorem mem_spErase_ne {m : Sparse V} {a : Nat} {e : Nat × V} (h : e ∈ spErase m a) : e.1 ≠ a := by
  induction m with
  | nil => simp [spErase] at h
  | cons x r ih =>
    obtain ⟨k, v⟩ := x
    simp only [spErase] at h
    split at h
    · exact ih h
    · rename_i hk
      rcases List.mem_cons.mp h with h | h
      · exact h ▸ hk
      · exact ih h

theorem mem_spIns {m : Sparse V} {a : Nat} {v : V} {e : Nat × V} (h : e ∈ spIns m a v) : e = (a, v) ∨ e ∈ m := by
  induction m with
  | nil => exact .inl (by simpa [spIns] using h)
  | cons x r ih =>
    obtain ⟨k, y⟩ := x
    simp only [spIns] at h
    split at h
    · rcases List.mem_cons.mp h with h | h
      · exact .inl h
      · exact .inr h
    · split at h
      · rcases List.mem_cons.mp h with h | h
        · exact .inl h
        · exact .inr (List.mem_cons_of_mem _ h)
      · rcases List.mem_cons.mp h with h | h
        · exact .inr (h ▸ List.mem_cons_self)
        · rcases ih h with h | h
          · exact .inl h
          · exact .inr (List.mem_cons_of_mem _ h)

/-- A write keeps the canonical form. -/
theorem spWf_spSet [DecidableEq V] {d : V} {m : Sparse V} (a : Nat) (v : V) (h : spWf d m = true) :
    spWf d (spSet d m a v) = true := by
  simp only [spWf, Bool.and_eq_true, List.all_eq_true, decide_eq_true_eq] at h ⊢
  unfold spSet
  split
  · exact ⟨spRising_erase a h.1, fun e he => h.2 e (mem_spErase he)⟩
  · rename_i hv
    refine ⟨spRising_ins v h.1 (Nat.zero_le _), fun e he => ?_⟩
    rcases mem_spIns he with rfl | he
    · exact hv
    · exact h.2 e he

/-! ## Memory -/

theorem undefAt_cut_same (u : List (Nat × Nat × Nat)) (a : Nat) : undefAt (cutUndef u a) a = none := by
  induction u with
  | nil => rfl
  | cons x r ih =>
    obtain ⟨lo, hi, n⟩ := x
    simp only [cutUndef]
    split
    · rename_i h
      have e : ¬ (a + 1 ≤ a ∧ a < hi) := by omega
      by_cases h1 : lo < a <;> by_cases h2 : a + 1 < hi <;> simp only [h1, h2, undefAt, ih, if_true, if_false, if_neg e,
        List.cons_append, List.nil_append, Nat.lt_irrefl, and_false]
    · rename_i h
      simp [undefAt, h, ih]

theorem undefAt_cut_ne (u : List (Nat × Nat × Nat)) {a b : Nat} (h : b ≠ a) : undefAt (cutUndef u a) b = undefAt u b := by
  induction u with
  | nil => rfl
  | cons x r ih =>
    obtain ⟨lo, hi, n⟩ := x
    simp only [cutUndef]
    split
    · rename_i hin
      by_cases hb : lo ≤ b ∧ b < hi
      · rcases Nat.lt_or_gt_of_ne h with hlt | hgt
        · have h1 : lo < a := by omega
          simp [h1, undefAt, hb, hlt]
        · have h2 : a + 1 < hi := by omega
          have h3 : ¬ b < a := by omega
          have h4 : a + 1 ≤ b := by omega
          by_cases h1 : lo < a <;>
            simp only [h1, h2, if_true, if_false, undefAt, List.cons_append, List.nil_append, h3, h4, hb, and_false, and_self]
      · have e1 : ¬ (lo ≤ b ∧ b < a) := by omega
        have e2 : ¬ (a + 1 ≤ b ∧ b < hi) := by omega
        by_cases h1 : lo < a <;> by_cases h2 : a + 1 < hi <;>
          simp only [h1, h2, if_true, if_false, undefAt, List.cons_append, List.nil_append, if_neg hb, if_neg e1, if_neg e2, ih]
    · rename_i hin
      simp [undefAt, ih]

/-- A byte written is the byte read. -/
@[simp] theorem Memory.rd_wr_same (m : Memory) (a : Nat) (v : Byte) : (m.wr a v).rd a = v := by
  simp [Memory.rd, Memory.wr, undefAt_cut_same]

/-- A write leaves every other byte as it was. -/
theorem Memory.rd_wr_ne (m : Memory) {a b : Nat} (v : Byte) (h : b ≠ a) : (m.wr a v).rd b = m.rd b := by
  simp [Memory.rd, Memory.wr, undefAt_cut_ne _ h, spGet_spSet_ne _ _ _ h]

/-- A write of several bytes leaves every byte outside them as it was. -/
theorem Memory.rd_wrN_out (m : Memory) (a : Nat) (bs : List Byte) {x : Nat} (h : x < a ∨ a + bs.length ≤ x) :
    (m.wrN a bs).rd x = m.rd x := by
  induction bs generalizing m a with
  | nil => rfl
  | cons b r ih =>
    simp only [List.length_cons] at h
    simp only [Memory.wrN]
    rw [ih (m.wr a b) (a + 1) (by omega), Memory.rd_wr_ne _ _ (by omega)]

/-- Each byte of a write of several bytes is read back. -/
theorem Memory.rd_wrN_in (m : Memory) (a : Nat) (bs : List Byte) {i : Nat} (h : i < bs.length) :
    (m.wrN a bs).rd (a + i) = bs[i] := by
  induction bs generalizing m a i with
  | nil => simp at h
  | cons b r ih =>
    cases i with
    | zero => simp only [Memory.wrN, Nat.add_zero]; rw [Memory.rd_wrN_out _ _ _ (by omega)]; simp
    | succ k =>
      simp only [Memory.wrN, List.getElem_cons_succ]
      rw [show a + (k + 1) = (a + 1) + k by omega]
      exact ih (m.wr a b) (a + 1) (by simpa using h)

/-- A byte written keeps the canonical form. -/
theorem Memory.wf_wr {m : Memory} (a : Nat) (v : Byte) (h : m.wf = true) : (m.wr a v).wf = true := by
  simp only [Memory.wf, Bool.and_eq_true, List.all_eq_true, Option.isNone_iff_eq_none] at h ⊢
  refine ⟨spWf_spSet a v h.1, fun e he => ?_⟩
  by_cases hea : e.1 = a
  · rw [hea]; exact undefAt_cut_same _ _
  · show undefAt (cutUndef m.undef a) e.1 = none
    rw [undefAt_cut_ne _ hea]
    simp only [Memory.wr] at he
    unfold spSet at he
    split at he
    · exact h.2 e (mem_spErase he)
    · rcases mem_spIns he with rfl | he
      · exact absurd rfl hea
      · exact h.2 e he

theorem Memory.wf_wrN {m : Memory} (a : Nat) (bs : List Byte) (h : m.wf = true) : (m.wrN a bs).wf = true := by
  induction bs generalizing m a with
  | nil => exact h
  | cons b r ih => exact ih (a + 1) (Memory.wf_wr a b h)

theorem spRising_filter {m : Sparse V} {lo : Nat} (p : Nat × V → Bool) (h : spRising lo m = true) :
    spRising lo (m.filter p) = true := by
  induction m generalizing lo with
  | nil => rfl
  | cons e r ih =>
    obtain ⟨k, v⟩ := e
    simp only [spRising, Bool.and_eq_true, decide_eq_true_eq] at h
    simp only [List.filter_cons]
    split
    · simp only [spRising, Bool.and_eq_true, decide_eq_true_eq]
      exact ⟨h.1, ih h.2⟩
    · exact ih (spRising_mono h.2 (by omega))

theorem spWf_filter [DecidableEq V] {d : V} {m : Sparse V} (p : Nat × V → Bool) (h : spWf d m = true) :
    spWf d (m.filter p) = true := by
  simp only [spWf, Bool.and_eq_true, List.all_eq_true] at h ⊢
  exact ⟨spRising_filter p h.1, fun e he => h.2 e (List.mem_filter.mp he).1⟩

/-- A range that becomes undefined keeps the canonical form. -/
theorem Memory.wf_mkUndef {m : Memory} (lo hi n : Nat) (h : m.wf = true) : (m.mkUndef lo hi n).wf = true := by
  simp only [Memory.wf, Bool.and_eq_true, List.all_eq_true, Option.isNone_iff_eq_none] at h ⊢
  refine ⟨spWf_filter _ h.1, fun e he => ?_⟩
  obtain ⟨h1, h2⟩ := List.mem_filter.mp he
  have h3 : ¬ (lo ≤ e.1 ∧ e.1 < hi) := by
    have h4 : e.1 < lo ∨ hi ≤ e.1 := by simpa using h2
    omega
  show undefAt ((lo, hi, n) :: m.undef) e.1 = none
  simp only [undefAt, if_neg h3]
  exact h.2 e h1

end Sys2Proof.Machine
end

