-- ==== Sys2Proof/Laws/State.lean ====
section
/-! SUPPORT. What each named update of the state leaves alone: one lemma per field. -/

namespace Sys2Proof.Machine

@[simp] theorem Dev.setCore_stop (d : Dev) (p : Fin 7) (c : CoreSt) : (d.setCore p c).stop = d.stop := rfl
@[simp] theorem Dev.setCore_now (d : Dev) (p : Fin 7) (c : CoreSt) : (d.setCore p c).now = d.now := rfl
@[simp] theorem Dev.setCore_free (d : Dev) (p : Fin 7) (c : CoreSt) : (d.setCore p c).free = d.free := rfl
@[simp] theorem Dev.setCore_tb (d : Dev) (p : Fin 7) (c : CoreSt) : (d.setCore p c).tb = d.tb := rfl
@[simp] theorem Dev.setCore_fuses (d : Dev) (p : Fin 7) (c : CoreSt) : (d.setCore p c).fuses = d.fuses := rfl
@[simp] theorem Dev.setCore_regs (d : Dev) (p : Fin 7) (c : CoreSt) : (d.setCore p c).regs = d.regs := rfl
@[simp] theorem Dev.setCore_mem (d : Dev) (p : Fin 7) (c : CoreSt) : (d.setCore p c).mem = d.mem := rfl
@[simp] theorem Dev.setCore_poison (d : Dev) (p : Fin 7) (c : CoreSt) : (d.setCore p c).poison = d.poison := rfl
@[simp] theorem Dev.setCore_hostMem (d : Dev) (p : Fin 7) (c : CoreSt) : (d.setCore p c).hostMem = d.hostMem := rfl
@[simp] theorem Dev.setCore_flash (d : Dev) (p : Fin 7) (c : CoreSt) : (d.setCore p c).flash = d.flash := rfl
@[simp] theorem Dev.setCore_imMirror (d : Dev) (p : Fin 7) (c : CoreSt) : (d.setCore p c).imMirror = d.imMirror := rfl
@[simp] theorem Dev.setCore_coreImg (d : Dev) (p : Fin 7) (c : CoreSt) : (d.setCore p c).coreImg = d.coreImg := rfl
@[simp] theorem Dev.setCore_chainFly (d : Dev) (p : Fin 7) (c : CoreSt) : (d.setCore p c).chainFly = d.chainFly := rfl
@[simp] theorem Dev.setCore_rampReq (d : Dev) (p : Fin 7) (c : CoreSt) : (d.setCore p c).rampReq = d.rampReq := rfl
@[simp] theorem Dev.setCore_tt (d : Dev) (p : Fin 7) (c : CoreSt) : (d.setCore p c).tt = d.tt := rfl
@[simp] theorem Dev.setCore_bar (d : Dev) (p : Fin 7) (c : CoreSt) : (d.setCore p c).bar = d.bar := rfl
@[simp] theorem Dev.setCore_com (d : Dev) (p : Fin 7) (c : CoreSt) : (d.setCore p c).com = d.com := rfl
@[simp] theorem Dev.setCore_lnk (d : Dev) (p : Fin 7) (c : CoreSt) : (d.setCore p c).lnk = d.lnk := rfl
@[simp] theorem Dev.setCore_chn (d : Dev) (p : Fin 7) (c : CoreSt) : (d.setCore p c).chn = d.chn := rfl
@[simp] theorem Dev.setCore_med (d : Dev) (p : Fin 7) (c : CoreSt) : (d.setCore p c).med = d.med := rfl
@[simp] theorem Dev.setCore_stk (d : Dev) (p : Fin 7) (c : CoreSt) : (d.setCore p c).stk = d.stk := rfl
@[simp] theorem Dev.setCore_pwr (d : Dev) (p : Fin 7) (c : CoreSt) : (d.setCore p c).pwr = d.pwr := rfl
@[simp] theorem Dev.setCore_flt (d : Dev) (p : Fin 7) (c : CoreSt) : (d.setCore p c).flt = d.flt := rfl
@[simp] theorem Dev.setCore_pci (d : Dev) (p : Fin 7) (c : CoreSt) : (d.setCore p c).pci = d.pci := rfl
@[simp] theorem Dev.setCore_svc (d : Dev) (p : Fin 7) (c : CoreSt) : (d.setCore p c).svc = d.svc := rfl
@[simp] theorem Dev.setCore_boot (d : Dev) (p : Fin 7) (c : CoreSt) : (d.setCore p c).boot = d.boot := rfl
@[simp] theorem Dev.setCore_staff (d : Dev) (p : Fin 7) (c : CoreSt) : (d.setCore p c).staff = d.staff := rfl
@[simp] theorem Dev.setCore_rd (d : Dev) (p : Fin 7) (c : CoreSt) : (d.setCore p c).rd = d.rd := rfl

@[simp] theorem Dev.modCore_stop (d : Dev) (p : Fin 7) (g : CoreSt → CoreSt) : (d.modCore p g).stop = d.stop := rfl
@[simp] theorem Dev.modCore_now (d : Dev) (p : Fin 7) (g : CoreSt → CoreSt) : (d.modCore p g).now = d.now := rfl
@[simp] theorem Dev.modCore_free (d : Dev) (p : Fin 7) (g : CoreSt → CoreSt) : (d.modCore p g).free = d.free := rfl
@[simp] theorem Dev.modCore_tb (d : Dev) (p : Fin 7) (g : CoreSt → CoreSt) : (d.modCore p g).tb = d.tb := rfl
@[simp] theorem Dev.modCore_fuses (d : Dev) (p : Fin 7) (g : CoreSt → CoreSt) : (d.modCore p g).fuses = d.fuses := rfl
@[simp] theorem Dev.modCore_regs (d : Dev) (p : Fin 7) (g : CoreSt → CoreSt) : (d.modCore p g).regs = d.regs := rfl
@[simp] theorem Dev.modCore_mem (d : Dev) (p : Fin 7) (g : CoreSt → CoreSt) : (d.modCore p g).mem = d.mem := rfl
@[simp] theorem Dev.modCore_poison (d : Dev) (p : Fin 7) (g : CoreSt → CoreSt) : (d.modCore p g).poison = d.poison := rfl
@[simp] theorem Dev.modCore_hostMem (d : Dev) (p : Fin 7) (g : CoreSt → CoreSt) : (d.modCore p g).hostMem = d.hostMem := rfl
@[simp] theorem Dev.modCore_flash (d : Dev) (p : Fin 7) (g : CoreSt → CoreSt) : (d.modCore p g).flash = d.flash := rfl
@[simp] theorem Dev.modCore_imMirror (d : Dev) (p : Fin 7) (g : CoreSt → CoreSt) : (d.modCore p g).imMirror = d.imMirror := rfl
@[simp] theorem Dev.modCore_coreImg (d : Dev) (p : Fin 7) (g : CoreSt → CoreSt) : (d.modCore p g).coreImg = d.coreImg := rfl
@[simp] theorem Dev.modCore_chainFly (d : Dev) (p : Fin 7) (g : CoreSt → CoreSt) : (d.modCore p g).chainFly = d.chainFly := rfl
@[simp] theorem Dev.modCore_rampReq (d : Dev) (p : Fin 7) (g : CoreSt → CoreSt) : (d.modCore p g).rampReq = d.rampReq := rfl
@[simp] theorem Dev.modCore_tt (d : Dev) (p : Fin 7) (g : CoreSt → CoreSt) : (d.modCore p g).tt = d.tt := rfl
@[simp] theorem Dev.modCore_bar (d : Dev) (p : Fin 7) (g : CoreSt → CoreSt) : (d.modCore p g).bar = d.bar := rfl
@[simp] theorem Dev.modCore_com (d : Dev) (p : Fin 7) (g : CoreSt → CoreSt) : (d.modCore p g).com = d.com := rfl
@[simp] theorem Dev.modCore_lnk (d : Dev) (p : Fin 7) (g : CoreSt → CoreSt) : (d.modCore p g).lnk = d.lnk := rfl
@[simp] theorem Dev.modCore_chn (d : Dev) (p : Fin 7) (g : CoreSt → CoreSt) : (d.modCore p g).chn = d.chn := rfl
@[simp] theorem Dev.modCore_med (d : Dev) (p : Fin 7) (g : CoreSt → CoreSt) : (d.modCore p g).med = d.med := rfl
@[simp] theorem Dev.modCore_stk (d : Dev) (p : Fin 7) (g : CoreSt → CoreSt) : (d.modCore p g).stk = d.stk := rfl
@[simp] theorem Dev.modCore_pwr (d : Dev) (p : Fin 7) (g : CoreSt → CoreSt) : (d.modCore p g).pwr = d.pwr := rfl
@[simp] theorem Dev.modCore_flt (d : Dev) (p : Fin 7) (g : CoreSt → CoreSt) : (d.modCore p g).flt = d.flt := rfl
@[simp] theorem Dev.modCore_pci (d : Dev) (p : Fin 7) (g : CoreSt → CoreSt) : (d.modCore p g).pci = d.pci := rfl
@[simp] theorem Dev.modCore_svc (d : Dev) (p : Fin 7) (g : CoreSt → CoreSt) : (d.modCore p g).svc = d.svc := rfl
@[simp] theorem Dev.modCore_boot (d : Dev) (p : Fin 7) (g : CoreSt → CoreSt) : (d.modCore p g).boot = d.boot := rfl
@[simp] theorem Dev.modCore_staff (d : Dev) (p : Fin 7) (g : CoreSt → CoreSt) : (d.modCore p g).staff = d.staff := rfl
@[simp] theorem Dev.modCore_rd (d : Dev) (p : Fin 7) (g : CoreSt → CoreSt) : (d.modCore p g).rd = d.rd := rfl

@[simp] theorem Dev.setRg_stop (d : Dev) (r : Reg) (i : List Nat) (v : W32) : (d.setRg r i v).stop = d.stop := rfl
@[simp] theorem Dev.setRg_now (d : Dev) (r : Reg) (i : List Nat) (v : W32) : (d.setRg r i v).now = d.now := rfl
@[simp] theorem Dev.setRg_free (d : Dev) (r : Reg) (i : List Nat) (v : W32) : (d.setRg r i v).free = d.free := rfl
@[simp] theorem Dev.setRg_tb (d : Dev) (r : Reg) (i : List Nat) (v : W32) : (d.setRg r i v).tb = d.tb := rfl
@[simp] theorem Dev.setRg_fuses (d : Dev) (r : Reg) (i : List Nat) (v : W32) : (d.setRg r i v).fuses = d.fuses := rfl
@[simp] theorem Dev.setRg_mem (d : Dev) (r : Reg) (i : List Nat) (v : W32) : (d.setRg r i v).mem = d.mem := rfl
@[simp] theorem Dev.setRg_poison (d : Dev) (r : Reg) (i : List Nat) (v : W32) : (d.setRg r i v).poison = d.poison := rfl
@[simp] theorem Dev.setRg_hostMem (d : Dev) (r : Reg) (i : List Nat) (v : W32) : (d.setRg r i v).hostMem = d.hostMem := rfl
@[simp] theorem Dev.setRg_flash (d : Dev) (r : Reg) (i : List Nat) (v : W32) : (d.setRg r i v).flash = d.flash := rfl
@[simp] theorem Dev.setRg_imMirror (d : Dev) (r : Reg) (i : List Nat) (v : W32) : (d.setRg r i v).imMirror = d.imMirror := rfl
@[simp] theorem Dev.setRg_coreImg (d : Dev) (r : Reg) (i : List Nat) (v : W32) : (d.setRg r i v).coreImg = d.coreImg := rfl
@[simp] theorem Dev.setRg_cores (d : Dev) (r : Reg) (i : List Nat) (v : W32) : (d.setRg r i v).cores = d.cores := rfl
@[simp] theorem Dev.setRg_chainFly (d : Dev) (r : Reg) (i : List Nat) (v : W32) : (d.setRg r i v).chainFly = d.chainFly := rfl
@[simp] theorem Dev.setRg_rampReq (d : Dev) (r : Reg) (i : List Nat) (v : W32) : (d.setRg r i v).rampReq = d.rampReq := rfl
@[simp] theorem Dev.setRg_tt (d : Dev) (r : Reg) (i : List Nat) (v : W32) : (d.setRg r i v).tt = d.tt := rfl
@[simp] theorem Dev.setRg_bar (d : Dev) (r : Reg) (i : List Nat) (v : W32) : (d.setRg r i v).bar = d.bar := rfl
@[simp] theorem Dev.setRg_com (d : Dev) (r : Reg) (i : List Nat) (v : W32) : (d.setRg r i v).com = d.com := rfl
@[simp] theorem Dev.setRg_lnk (d : Dev) (r : Reg) (i : List Nat) (v : W32) : (d.setRg r i v).lnk = d.lnk := rfl
@[simp] theorem Dev.setRg_chn (d : Dev) (r : Reg) (i : List Nat) (v : W32) : (d.setRg r i v).chn = d.chn := rfl
@[simp] theorem Dev.setRg_med (d : Dev) (r : Reg) (i : List Nat) (v : W32) : (d.setRg r i v).med = d.med := rfl
@[simp] theorem Dev.setRg_stk (d : Dev) (r : Reg) (i : List Nat) (v : W32) : (d.setRg r i v).stk = d.stk := rfl
@[simp] theorem Dev.setRg_pwr (d : Dev) (r : Reg) (i : List Nat) (v : W32) : (d.setRg r i v).pwr = d.pwr := rfl
@[simp] theorem Dev.setRg_flt (d : Dev) (r : Reg) (i : List Nat) (v : W32) : (d.setRg r i v).flt = d.flt := rfl
@[simp] theorem Dev.setRg_pci (d : Dev) (r : Reg) (i : List Nat) (v : W32) : (d.setRg r i v).pci = d.pci := rfl
@[simp] theorem Dev.setRg_svc (d : Dev) (r : Reg) (i : List Nat) (v : W32) : (d.setRg r i v).svc = d.svc := rfl
@[simp] theorem Dev.setRg_boot (d : Dev) (r : Reg) (i : List Nat) (v : W32) : (d.setRg r i v).boot = d.boot := rfl
@[simp] theorem Dev.setRg_staff (d : Dev) (r : Reg) (i : List Nat) (v : W32) : (d.setRg r i v).staff = d.staff := rfl
@[simp] theorem Dev.setRg_rd (d : Dev) (r : Reg) (i : List Nat) (v : W32) : (d.setRg r i v).rd = d.rd := rfl

@[simp] theorem Dev.setFld_stop (d : Dev) (r : Reg) (i : List Nat) (hi lo v : Nat) : (d.setFld r i hi lo v).stop = d.stop := rfl
@[simp] theorem Dev.setFld_now (d : Dev) (r : Reg) (i : List Nat) (hi lo v : Nat) : (d.setFld r i hi lo v).now = d.now := rfl
@[simp] theorem Dev.setFld_free (d : Dev) (r : Reg) (i : List Nat) (hi lo v : Nat) : (d.setFld r i hi lo v).free = d.free := rfl
@[simp] theorem Dev.setFld_tb (d : Dev) (r : Reg) (i : List Nat) (hi lo v : Nat) : (d.setFld r i hi lo v).tb = d.tb := rfl
@[simp] theorem Dev.setFld_fuses (d : Dev) (r : Reg) (i : List Nat) (hi lo v : Nat) : (d.setFld r i hi lo v).fuses = d.fuses := rfl
@[simp] theorem Dev.setFld_mem (d : Dev) (r : Reg) (i : List Nat) (hi lo v : Nat) : (d.setFld r i hi lo v).mem = d.mem := rfl
@[simp] theorem Dev.setFld_poison (d : Dev) (r : Reg) (i : List Nat) (hi lo v : Nat) : (d.setFld r i hi lo v).poison = d.poison := rfl
@[simp] theorem Dev.setFld_hostMem (d : Dev) (r : Reg) (i : List Nat) (hi lo v : Nat) : (d.setFld r i hi lo v).hostMem = d.hostMem := rfl
@[simp] theorem Dev.setFld_flash (d : Dev) (r : Reg) (i : List Nat) (hi lo v : Nat) : (d.setFld r i hi lo v).flash = d.flash := rfl
@[simp] theorem Dev.setFld_imMirror (d : Dev) (r : Reg) (i : List Nat) (hi lo v : Nat) : (d.setFld r i hi lo v).imMirror = d.imMirror := rfl
@[simp] theorem Dev.setFld_coreImg (d : Dev) (r : Reg) (i : List Nat) (hi lo v : Nat) : (d.setFld r i hi lo v).coreImg = d.coreImg := rfl
@[simp] theorem Dev.setFld_cores (d : Dev) (r : Reg) (i : List Nat) (hi lo v : Nat) : (d.setFld r i hi lo v).cores = d.cores := rfl
@[simp] theorem Dev.setFld_chainFly (d : Dev) (r : Reg) (i : List Nat) (hi lo v : Nat) : (d.setFld r i hi lo v).chainFly = d.chainFly := rfl
@[simp] theorem Dev.setFld_rampReq (d : Dev) (r : Reg) (i : List Nat) (hi lo v : Nat) : (d.setFld r i hi lo v).rampReq = d.rampReq := rfl
@[simp] theorem Dev.setFld_tt (d : Dev) (r : Reg) (i : List Nat) (hi lo v : Nat) : (d.setFld r i hi lo v).tt = d.tt := rfl
@[simp] theorem Dev.setFld_bar (d : Dev) (r : Reg) (i : List Nat) (hi lo v : Nat) : (d.setFld r i hi lo v).bar = d.bar := rfl
@[simp] theorem Dev.setFld_com (d : Dev) (r : Reg) (i : List Nat) (hi lo v : Nat) : (d.setFld r i hi lo v).com = d.com := rfl
@[simp] theorem Dev.setFld_lnk (d : Dev) (r : Reg) (i : List Nat) (hi lo v : Nat) : (d.setFld r i hi lo v).lnk = d.lnk := rfl
@[simp] theorem Dev.setFld_chn (d : Dev) (r : Reg) (i : List Nat) (hi lo v : Nat) : (d.setFld r i hi lo v).chn = d.chn := rfl
@[simp] theorem Dev.setFld_med (d : Dev) (r : Reg) (i : List Nat) (hi lo v : Nat) : (d.setFld r i hi lo v).med = d.med := rfl
@[simp] theorem Dev.setFld_stk (d : Dev) (r : Reg) (i : List Nat) (hi lo v : Nat) : (d.setFld r i hi lo v).stk = d.stk := rfl
@[simp] theorem Dev.setFld_pwr (d : Dev) (r : Reg) (i : List Nat) (hi lo v : Nat) : (d.setFld r i hi lo v).pwr = d.pwr := rfl
@[simp] theorem Dev.setFld_flt (d : Dev) (r : Reg) (i : List Nat) (hi lo v : Nat) : (d.setFld r i hi lo v).flt = d.flt := rfl
@[simp] theorem Dev.setFld_pci (d : Dev) (r : Reg) (i : List Nat) (hi lo v : Nat) : (d.setFld r i hi lo v).pci = d.pci := rfl
@[simp] theorem Dev.setFld_svc (d : Dev) (r : Reg) (i : List Nat) (hi lo v : Nat) : (d.setFld r i hi lo v).svc = d.svc := rfl
@[simp] theorem Dev.setFld_boot (d : Dev) (r : Reg) (i : List Nat) (hi lo v : Nat) : (d.setFld r i hi lo v).boot = d.boot := rfl
@[simp] theorem Dev.setFld_staff (d : Dev) (r : Reg) (i : List Nat) (hi lo v : Nat) : (d.setFld r i hi lo v).staff = d.staff := rfl
@[simp] theorem Dev.setFld_rd (d : Dev) (r : Reg) (i : List Nat) (hi lo v : Nat) : (d.setFld r i hi lo v).rd = d.rd := rfl

@[simp] theorem Dev.incSat_stop (d : Dev) (r : Reg) (i : List Nat) (hi lo n : Nat) : (d.incSat r i hi lo n).stop = d.stop := rfl
@[simp] theorem Dev.incSat_now (d : Dev) (r : Reg) (i : List Nat) (hi lo n : Nat) : (d.incSat r i hi lo n).now = d.now := rfl
@[simp] theorem Dev.incSat_free (d : Dev) (r : Reg) (i : List Nat) (hi lo n : Nat) : (d.incSat r i hi lo n).free = d.free := rfl
@[simp] theorem Dev.incSat_tb (d : Dev) (r : Reg) (i : List Nat) (hi lo n : Nat) : (d.incSat r i hi lo n).tb = d.tb := rfl
@[simp] theorem Dev.incSat_fuses (d : Dev) (r : Reg) (i : List Nat) (hi lo n : Nat) : (d.incSat r i hi lo n).fuses = d.fuses := rfl
@[simp] theorem Dev.incSat_mem (d : Dev) (r : Reg) (i : List Nat) (hi lo n : Nat) : (d.incSat r i hi lo n).mem = d.mem := rfl
@[simp] theorem Dev.incSat_poison (d : Dev) (r : Reg) (i : List Nat) (hi lo n : Nat) : (d.incSat r i hi lo n).poison = d.poison := rfl
@[simp] theorem Dev.incSat_hostMem (d : Dev) (r : Reg) (i : List Nat) (hi lo n : Nat) : (d.incSat r i hi lo n).hostMem = d.hostMem := rfl
@[simp] theorem Dev.incSat_flash (d : Dev) (r : Reg) (i : List Nat) (hi lo n : Nat) : (d.incSat r i hi lo n).flash = d.flash := rfl
@[simp] theorem Dev.incSat_imMirror (d : Dev) (r : Reg) (i : List Nat) (hi lo n : Nat) : (d.incSat r i hi lo n).imMirror = d.imMirror := rfl
@[simp] theorem Dev.incSat_coreImg (d : Dev) (r : Reg) (i : List Nat) (hi lo n : Nat) : (d.incSat r i hi lo n).coreImg = d.coreImg := rfl
@[simp] theorem Dev.incSat_cores (d : Dev) (r : Reg) (i : List Nat) (hi lo n : Nat) : (d.incSat r i hi lo n).cores = d.cores := rfl
@[simp] theorem Dev.incSat_chainFly (d : Dev) (r : Reg) (i : List Nat) (hi lo n : Nat) : (d.incSat r i hi lo n).chainFly = d.chainFly := rfl
@[simp] theorem Dev.incSat_rampReq (d : Dev) (r : Reg) (i : List Nat) (hi lo n : Nat) : (d.incSat r i hi lo n).rampReq = d.rampReq := rfl
@[simp] theorem Dev.incSat_tt (d : Dev) (r : Reg) (i : List Nat) (hi lo n : Nat) : (d.incSat r i hi lo n).tt = d.tt := rfl
@[simp] theorem Dev.incSat_bar (d : Dev) (r : Reg) (i : List Nat) (hi lo n : Nat) : (d.incSat r i hi lo n).bar = d.bar := rfl
@[simp] theorem Dev.incSat_com (d : Dev) (r : Reg) (i : List Nat) (hi lo n : Nat) : (d.incSat r i hi lo n).com = d.com := rfl
@[simp] theorem Dev.incSat_lnk (d : Dev) (r : Reg) (i : List Nat) (hi lo n : Nat) : (d.incSat r i hi lo n).lnk = d.lnk := rfl
@[simp] theorem Dev.incSat_chn (d : Dev) (r : Reg) (i : List Nat) (hi lo n : Nat) : (d.incSat r i hi lo n).chn = d.chn := rfl
@[simp] theorem Dev.incSat_med (d : Dev) (r : Reg) (i : List Nat) (hi lo n : Nat) : (d.incSat r i hi lo n).med = d.med := rfl
@[simp] theorem Dev.incSat_stk (d : Dev) (r : Reg) (i : List Nat) (hi lo n : Nat) : (d.incSat r i hi lo n).stk = d.stk := rfl
@[simp] theorem Dev.incSat_pwr (d : Dev) (r : Reg) (i : List Nat) (hi lo n : Nat) : (d.incSat r i hi lo n).pwr = d.pwr := rfl
@[simp] theorem Dev.incSat_flt (d : Dev) (r : Reg) (i : List Nat) (hi lo n : Nat) : (d.incSat r i hi lo n).flt = d.flt := rfl
@[simp] theorem Dev.incSat_pci (d : Dev) (r : Reg) (i : List Nat) (hi lo n : Nat) : (d.incSat r i hi lo n).pci = d.pci := rfl
@[simp] theorem Dev.incSat_svc (d : Dev) (r : Reg) (i : List Nat) (hi lo n : Nat) : (d.incSat r i hi lo n).svc = d.svc := rfl
@[simp] theorem Dev.incSat_boot (d : Dev) (r : Reg) (i : List Nat) (hi lo n : Nat) : (d.incSat r i hi lo n).boot = d.boot := rfl
@[simp] theorem Dev.incSat_staff (d : Dev) (r : Reg) (i : List Nat) (hi lo n : Nat) : (d.incSat r i hi lo n).staff = d.staff := rfl
@[simp] theorem Dev.incSat_rd (d : Dev) (r : Reg) (i : List Nat) (hi lo n : Nat) : (d.incSat r i hi lo n).rd = d.rd := rfl

@[simp] theorem Dev.incMod_stop (d : Dev) (r : Reg) (i : List Nat) (hi lo n : Nat) : (d.incMod r i hi lo n).stop = d.stop := rfl
@[simp] theorem Dev.incMod_now (d : Dev) (r : Reg) (i : List Nat) (hi lo n : Nat) : (d.incMod r i hi lo n).now = d.now := rfl
@[simp] theorem Dev.incMod_free (d : Dev) (r : Reg) (i : List Nat) (hi lo n : Nat) : (d.incMod r i hi lo n).free = d.free := rfl
@[simp] theorem Dev.incMod_tb (d : Dev) (r : Reg) (i : List Nat) (hi lo n : Nat) : (d.incMod r i hi lo n).tb = d.tb := rfl
@[simp] theorem Dev.incMod_fuses (d : Dev) (r : Reg) (i : List Nat) (hi lo n : Nat) : (d.incMod r i hi lo n).fuses = d.fuses := rfl
@[simp] theorem Dev.incMod_mem (d : Dev) (r : Reg) (i : List Nat) (hi lo n : Nat) : (d.incMod r i hi lo n).mem = d.mem := rfl
@[simp] theorem Dev.incMod_poison (d : Dev) (r : Reg) (i : List Nat) (hi lo n : Nat) : (d.incMod r i hi lo n).poison = d.poison := rfl
@[simp] theorem Dev.incMod_hostMem (d : Dev) (r : Reg) (i : List Nat) (hi lo n : Nat) : (d.incMod r i hi lo n).hostMem = d.hostMem := rfl
@[simp] theorem Dev.incMod_flash (d : Dev) (r : Reg) (i : List Nat) (hi lo n : Nat) : (d.incMod r i hi lo n).flash = d.flash := rfl
@[simp] theorem Dev.incMod_imMirror (d : Dev) (r : Reg) (i : List Nat) (hi lo n : Nat) : (d.incMod r i hi lo n).imMirror = d.imMirror := rfl
@[simp] theorem Dev.incMod_coreImg (d : Dev) (r : Reg) (i : List Nat) (hi lo n : Nat) : (d.incMod r i hi lo n).coreImg = d.coreImg := rfl
@[simp] theorem Dev.incMod_cores (d : Dev) (r : Reg) (i : List Nat) (hi lo n : Nat) : (d.incMod r i hi lo n).cores = d.cores := rfl
@[simp] theorem Dev.incMod_chainFly (d : Dev) (r : Reg) (i : List Nat) (hi lo n : Nat) : (d.incMod r i hi lo n).chainFly = d.chainFly := rfl
@[simp] theorem Dev.incMod_rampReq (d : Dev) (r : Reg) (i : List Nat) (hi lo n : Nat) : (d.incMod r i hi lo n).rampReq = d.rampReq := rfl
@[simp] theorem Dev.incMod_tt (d : Dev) (r : Reg) (i : List Nat) (hi lo n : Nat) : (d.incMod r i hi lo n).tt = d.tt := rfl
@[simp] theorem Dev.incMod_bar (d : Dev) (r : Reg) (i : List Nat) (hi lo n : Nat) : (d.incMod r i hi lo n).bar = d.bar := rfl
@[simp] theorem Dev.incMod_com (d : Dev) (r : Reg) (i : List Nat) (hi lo n : Nat) : (d.incMod r i hi lo n).com = d.com := rfl
@[simp] theorem Dev.incMod_lnk (d : Dev) (r : Reg) (i : List Nat) (hi lo n : Nat) : (d.incMod r i hi lo n).lnk = d.lnk := rfl
@[simp] theorem Dev.incMod_chn (d : Dev) (r : Reg) (i : List Nat) (hi lo n : Nat) : (d.incMod r i hi lo n).chn = d.chn := rfl
@[simp] theorem Dev.incMod_med (d : Dev) (r : Reg) (i : List Nat) (hi lo n : Nat) : (d.incMod r i hi lo n).med = d.med := rfl
@[simp] theorem Dev.incMod_stk (d : Dev) (r : Reg) (i : List Nat) (hi lo n : Nat) : (d.incMod r i hi lo n).stk = d.stk := rfl
@[simp] theorem Dev.incMod_pwr (d : Dev) (r : Reg) (i : List Nat) (hi lo n : Nat) : (d.incMod r i hi lo n).pwr = d.pwr := rfl
@[simp] theorem Dev.incMod_flt (d : Dev) (r : Reg) (i : List Nat) (hi lo n : Nat) : (d.incMod r i hi lo n).flt = d.flt := rfl
@[simp] theorem Dev.incMod_pci (d : Dev) (r : Reg) (i : List Nat) (hi lo n : Nat) : (d.incMod r i hi lo n).pci = d.pci := rfl
@[simp] theorem Dev.incMod_svc (d : Dev) (r : Reg) (i : List Nat) (hi lo n : Nat) : (d.incMod r i hi lo n).svc = d.svc := rfl
@[simp] theorem Dev.incMod_boot (d : Dev) (r : Reg) (i : List Nat) (hi lo n : Nat) : (d.incMod r i hi lo n).boot = d.boot := rfl
@[simp] theorem Dev.incMod_staff (d : Dev) (r : Reg) (i : List Nat) (hi lo n : Nat) : (d.incMod r i hi lo n).staff = d.staff := rfl
@[simp] theorem Dev.incMod_rd (d : Dev) (r : Reg) (i : List Nat) (hi lo n : Nat) : (d.incMod r i hi lo n).rd = d.rd := rfl

@[simp] theorem Dev.plainWrite_stop (d : Dev) (r : Reg) (i : List Nat) (v : W32) : (d.plainWrite r i v).stop = d.stop := rfl
@[simp] theorem Dev.plainWrite_now (d : Dev) (r : Reg) (i : List Nat) (v : W32) : (d.plainWrite r i v).now = d.now := rfl
@[simp] theorem Dev.plainWrite_free (d : Dev) (r : Reg) (i : List Nat) (v : W32) : (d.plainWrite r i v).free = d.free := rfl
@[simp] theorem Dev.plainWrite_tb (d : Dev) (r : Reg) (i : List Nat) (v : W32) : (d.plainWrite r i v).tb = d.tb := rfl
@[simp] theorem Dev.plainWrite_fuses (d : Dev) (r : Reg) (i : List Nat) (v : W32) : (d.plainWrite r i v).fuses = d.fuses := rfl
@[simp] theorem Dev.plainWrite_mem (d : Dev) (r : Reg) (i : List Nat) (v : W32) : (d.plainWrite r i v).mem = d.mem := rfl
@[simp] theorem Dev.plainWrite_poison (d : Dev) (r : Reg) (i : List Nat) (v : W32) : (d.plainWrite r i v).poison = d.poison := rfl
@[simp] theorem Dev.plainWrite_hostMem (d : Dev) (r : Reg) (i : List Nat) (v : W32) : (d.plainWrite r i v).hostMem = d.hostMem := rfl
@[simp] theorem Dev.plainWrite_flash (d : Dev) (r : Reg) (i : List Nat) (v : W32) : (d.plainWrite r i v).flash = d.flash := rfl
@[simp] theorem Dev.plainWrite_imMirror (d : Dev) (r : Reg) (i : List Nat) (v : W32) : (d.plainWrite r i v).imMirror = d.imMirror := rfl
@[simp] theorem Dev.plainWrite_coreImg (d : Dev) (r : Reg) (i : List Nat) (v : W32) : (d.plainWrite r i v).coreImg = d.coreImg := rfl
@[simp] theorem Dev.plainWrite_cores (d : Dev) (r : Reg) (i : List Nat) (v : W32) : (d.plainWrite r i v).cores = d.cores := rfl
@[simp] theorem Dev.plainWrite_chainFly (d : Dev) (r : Reg) (i : List Nat) (v : W32) : (d.plainWrite r i v).chainFly = d.chainFly := rfl
@[simp] theorem Dev.plainWrite_rampReq (d : Dev) (r : Reg) (i : List Nat) (v : W32) : (d.plainWrite r i v).rampReq = d.rampReq := rfl
@[simp] theorem Dev.plainWrite_tt (d : Dev) (r : Reg) (i : List Nat) (v : W32) : (d.plainWrite r i v).tt = d.tt := rfl
@[simp] theorem Dev.plainWrite_bar (d : Dev) (r : Reg) (i : List Nat) (v : W32) : (d.plainWrite r i v).bar = d.bar := rfl
@[simp] theorem Dev.plainWrite_com (d : Dev) (r : Reg) (i : List Nat) (v : W32) : (d.plainWrite r i v).com = d.com := rfl
@[simp] theorem Dev.plainWrite_lnk (d : Dev) (r : Reg) (i : List Nat) (v : W32) : (d.plainWrite r i v).lnk = d.lnk := rfl
@[simp] theorem Dev.plainWrite_chn (d : Dev) (r : Reg) (i : List Nat) (v : W32) : (d.plainWrite r i v).chn = d.chn := rfl
@[simp] theorem Dev.plainWrite_med (d : Dev) (r : Reg) (i : List Nat) (v : W32) : (d.plainWrite r i v).med = d.med := rfl
@[simp] theorem Dev.plainWrite_stk (d : Dev) (r : Reg) (i : List Nat) (v : W32) : (d.plainWrite r i v).stk = d.stk := rfl
@[simp] theorem Dev.plainWrite_pwr (d : Dev) (r : Reg) (i : List Nat) (v : W32) : (d.plainWrite r i v).pwr = d.pwr := rfl
@[simp] theorem Dev.plainWrite_flt (d : Dev) (r : Reg) (i : List Nat) (v : W32) : (d.plainWrite r i v).flt = d.flt := rfl
@[simp] theorem Dev.plainWrite_pci (d : Dev) (r : Reg) (i : List Nat) (v : W32) : (d.plainWrite r i v).pci = d.pci := rfl
@[simp] theorem Dev.plainWrite_svc (d : Dev) (r : Reg) (i : List Nat) (v : W32) : (d.plainWrite r i v).svc = d.svc := rfl
@[simp] theorem Dev.plainWrite_boot (d : Dev) (r : Reg) (i : List Nat) (v : W32) : (d.plainWrite r i v).boot = d.boot := rfl
@[simp] theorem Dev.plainWrite_staff (d : Dev) (r : Reg) (i : List Nat) (v : W32) : (d.plainWrite r i v).staff = d.staff := rfl
@[simp] theorem Dev.plainWrite_rd (d : Dev) (r : Reg) (i : List Nat) (v : W32) : (d.plainWrite r i v).rd = d.rd := rfl

@[simp] theorem Dev.store_stop (d : Dev) (a : Nat) (bs : List Byte) : (d.store a bs).stop = d.stop := rfl
@[simp] theorem Dev.store_now (d : Dev) (a : Nat) (bs : List Byte) : (d.store a bs).now = d.now := rfl
@[simp] theorem Dev.store_free (d : Dev) (a : Nat) (bs : List Byte) : (d.store a bs).free = d.free := rfl
@[simp] theorem Dev.store_tb (d : Dev) (a : Nat) (bs : List Byte) : (d.store a bs).tb = d.tb := rfl
@[simp] theorem Dev.store_fuses (d : Dev) (a : Nat) (bs : List Byte) : (d.store a bs).fuses = d.fuses := rfl
@[simp] theorem Dev.store_regs (d : Dev) (a : Nat) (bs : List Byte) : (d.store a bs).regs = d.regs := rfl
@[simp] theorem Dev.store_hostMem (d : Dev) (a : Nat) (bs : List Byte) : (d.store a bs).hostMem = d.hostMem := rfl
@[simp] theorem Dev.store_flash (d : Dev) (a : Nat) (bs : List Byte) : (d.store a bs).flash = d.flash := rfl
@[simp] theorem Dev.store_imMirror (d : Dev) (a : Nat) (bs : List Byte) : (d.store a bs).imMirror = d.imMirror := rfl
@[simp] theorem Dev.store_coreImg (d : Dev) (a : Nat) (bs : List Byte) : (d.store a bs).coreImg = d.coreImg := rfl
@[simp] theorem Dev.store_cores (d : Dev) (a : Nat) (bs : List Byte) : (d.store a bs).cores = d.cores := rfl
@[simp] theorem Dev.store_chainFly (d : Dev) (a : Nat) (bs : List Byte) : (d.store a bs).chainFly = d.chainFly := rfl
@[simp] theorem Dev.store_rampReq (d : Dev) (a : Nat) (bs : List Byte) : (d.store a bs).rampReq = d.rampReq := rfl
@[simp] theorem Dev.store_tt (d : Dev) (a : Nat) (bs : List Byte) : (d.store a bs).tt = d.tt := rfl
@[simp] theorem Dev.store_bar (d : Dev) (a : Nat) (bs : List Byte) : (d.store a bs).bar = d.bar := rfl
@[simp] theorem Dev.store_lnk (d : Dev) (a : Nat) (bs : List Byte) : (d.store a bs).lnk = d.lnk := rfl
@[simp] theorem Dev.store_chn (d : Dev) (a : Nat) (bs : List Byte) : (d.store a bs).chn = d.chn := rfl
@[simp] theorem Dev.store_med (d : Dev) (a : Nat) (bs : List Byte) : (d.store a bs).med = d.med := rfl
@[simp] theorem Dev.store_stk (d : Dev) (a : Nat) (bs : List Byte) : (d.store a bs).stk = d.stk := rfl
@[simp] theorem Dev.store_pwr (d : Dev) (a : Nat) (bs : List Byte) : (d.store a bs).pwr = d.pwr := rfl
@[simp] theorem Dev.store_flt (d : Dev) (a : Nat) (bs : List Byte) : (d.store a bs).flt = d.flt := rfl
@[simp] theorem Dev.store_pci (d : Dev) (a : Nat) (bs : List Byte) : (d.store a bs).pci = d.pci := rfl
@[simp] theorem Dev.store_svc (d : Dev) (a : Nat) (bs : List Byte) : (d.store a bs).svc = d.svc := rfl
@[simp] theorem Dev.store_boot (d : Dev) (a : Nat) (bs : List Byte) : (d.store a bs).boot = d.boot := rfl
@[simp] theorem Dev.store_staff (d : Dev) (a : Nat) (bs : List Byte) : (d.store a bs).staff = d.staff := rfl
@[simp] theorem Dev.store_rd (d : Dev) (a : Nat) (bs : List Byte) : (d.store a bs).rd = d.rd := rfl

@[simp] theorem Dev.satWr_stop (d : Dev) (p o : Nat) (bs : List Byte) : (d.satWr p o bs).stop = d.stop := rfl
@[simp] theorem Dev.satWr_now (d : Dev) (p o : Nat) (bs : List Byte) : (d.satWr p o bs).now = d.now := rfl
@[simp] theorem Dev.satWr_free (d : Dev) (p o : Nat) (bs : List Byte) : (d.satWr p o bs).free = d.free := rfl
@[simp] theorem Dev.satWr_tb (d : Dev) (p o : Nat) (bs : List Byte) : (d.satWr p o bs).tb = d.tb := rfl
@[simp] theorem Dev.satWr_fuses (d : Dev) (p o : Nat) (bs : List Byte) : (d.satWr p o bs).fuses = d.fuses := rfl
@[simp] theorem Dev.satWr_regs (d : Dev) (p o : Nat) (bs : List Byte) : (d.satWr p o bs).regs = d.regs := rfl
@[simp] theorem Dev.satWr_poison (d : Dev) (p o : Nat) (bs : List Byte) : (d.satWr p o bs).poison = d.poison := rfl
@[simp] theorem Dev.satWr_hostMem (d : Dev) (p o : Nat) (bs : List Byte) : (d.satWr p o bs).hostMem = d.hostMem := rfl
@[simp] theorem Dev.satWr_flash (d : Dev) (p o : Nat) (bs : List Byte) : (d.satWr p o bs).flash = d.flash := rfl
@[simp] theorem Dev.satWr_imMirror (d : Dev) (p o : Nat) (bs : List Byte) : (d.satWr p o bs).imMirror = d.imMirror := rfl
@[simp] theorem Dev.satWr_coreImg (d : Dev) (p o : Nat) (bs : List Byte) : (d.satWr p o bs).coreImg = d.coreImg := rfl
@[simp] theorem Dev.satWr_cores (d : Dev) (p o : Nat) (bs : List Byte) : (d.satWr p o bs).cores = d.cores := rfl
@[simp] theorem Dev.satWr_chainFly (d : Dev) (p o : Nat) (bs : List Byte) : (d.satWr p o bs).chainFly = d.chainFly := rfl
@[simp] theorem Dev.satWr_rampReq (d : Dev) (p o : Nat) (bs : List Byte) : (d.satWr p o bs).rampReq = d.rampReq := rfl
@[simp] theorem Dev.satWr_tt (d : Dev) (p o : Nat) (bs : List Byte) : (d.satWr p o bs).tt = d.tt := rfl
@[simp] theorem Dev.satWr_bar (d : Dev) (p o : Nat) (bs : List Byte) : (d.satWr p o bs).bar = d.bar := rfl
@[simp] theorem Dev.satWr_com (d : Dev) (p o : Nat) (bs : List Byte) : (d.satWr p o bs).com = d.com := rfl
@[simp] theorem Dev.satWr_lnk (d : Dev) (p o : Nat) (bs : List Byte) : (d.satWr p o bs).lnk = d.lnk := rfl
@[simp] theorem Dev.satWr_chn (d : Dev) (p o : Nat) (bs : List Byte) : (d.satWr p o bs).chn = d.chn := rfl
@[simp] theorem Dev.satWr_med (d : Dev) (p o : Nat) (bs : List Byte) : (d.satWr p o bs).med = d.med := rfl
@[simp] theorem Dev.satWr_stk (d : Dev) (p o : Nat) (bs : List Byte) : (d.satWr p o bs).stk = d.stk := rfl
@[simp] theorem Dev.satWr_pwr (d : Dev) (p o : Nat) (bs : List Byte) : (d.satWr p o bs).pwr = d.pwr := rfl
@[simp] theorem Dev.satWr_flt (d : Dev) (p o : Nat) (bs : List Byte) : (d.satWr p o bs).flt = d.flt := rfl
@[simp] theorem Dev.satWr_pci (d : Dev) (p o : Nat) (bs : List Byte) : (d.satWr p o bs).pci = d.pci := rfl
@[simp] theorem Dev.satWr_svc (d : Dev) (p o : Nat) (bs : List Byte) : (d.satWr p o bs).svc = d.svc := rfl
@[simp] theorem Dev.satWr_boot (d : Dev) (p o : Nat) (bs : List Byte) : (d.satWr p o bs).boot = d.boot := rfl
@[simp] theorem Dev.satWr_staff (d : Dev) (p o : Nat) (bs : List Byte) : (d.satWr p o bs).staff = d.staff := rfl
@[simp] theorem Dev.satWr_rd (d : Dev) (p o : Nat) (bs : List Byte) : (d.satWr p o bs).rd = d.rd := rfl

@[simp] theorem Dev.nextFree_stop (d : Dev) : (d.nextFree).stop = d.stop := rfl
@[simp] theorem Dev.nextFree_now (d : Dev) : (d.nextFree).now = d.now := rfl
@[simp] theorem Dev.nextFree_tb (d : Dev) : (d.nextFree).tb = d.tb := rfl
@[simp] theorem Dev.nextFree_fuses (d : Dev) : (d.nextFree).fuses = d.fuses := rfl
@[simp] theorem Dev.nextFree_regs (d : Dev) : (d.nextFree).regs = d.regs := rfl
@[simp] theorem Dev.nextFree_mem (d : Dev) : (d.nextFree).mem = d.mem := rfl
@[simp] theorem Dev.nextFree_poison (d : Dev) : (d.nextFree).poison = d.poison := rfl
@[simp] theorem Dev.nextFree_hostMem (d : Dev) : (d.nextFree).hostMem = d.hostMem := rfl
@[simp] theorem Dev.nextFree_flash (d : Dev) : (d.nextFree).flash = d.flash := rfl
@[simp] theorem Dev.nextFree_imMirror (d : Dev) : (d.nextFree).imMirror = d.imMirror := rfl
@[simp] theorem Dev.nextFree_coreImg (d : Dev) : (d.nextFree).coreImg = d.coreImg := rfl
@[simp] theorem Dev.nextFree_cores (d : Dev) : (d.nextFree).cores = d.cores := rfl
@[simp] theorem Dev.nextFree_chainFly (d : Dev) : (d.nextFree).chainFly = d.chainFly := rfl
@[simp] theorem Dev.nextFree_rampReq (d : Dev) : (d.nextFree).rampReq = d.rampReq := rfl
@[simp] theorem Dev.nextFree_tt (d : Dev) : (d.nextFree).tt = d.tt := rfl
@[simp] theorem Dev.nextFree_bar (d : Dev) : (d.nextFree).bar = d.bar := rfl
@[simp] theorem Dev.nextFree_com (d : Dev) : (d.nextFree).com = d.com := rfl
@[simp] theorem Dev.nextFree_lnk (d : Dev) : (d.nextFree).lnk = d.lnk := rfl
@[simp] theorem Dev.nextFree_chn (d : Dev) : (d.nextFree).chn = d.chn := rfl
@[simp] theorem Dev.nextFree_med (d : Dev) : (d.nextFree).med = d.med := rfl
@[simp] theorem Dev.nextFree_stk (d : Dev) : (d.nextFree).stk = d.stk := rfl
@[simp] theorem Dev.nextFree_pwr (d : Dev) : (d.nextFree).pwr = d.pwr := rfl
@[simp] theorem Dev.nextFree_flt (d : Dev) : (d.nextFree).flt = d.flt := rfl
@[simp] theorem Dev.nextFree_pci (d : Dev) : (d.nextFree).pci = d.pci := rfl
@[simp] theorem Dev.nextFree_svc (d : Dev) : (d.nextFree).svc = d.svc := rfl
@[simp] theorem Dev.nextFree_boot (d : Dev) : (d.nextFree).boot = d.boot := rfl
@[simp] theorem Dev.nextFree_staff (d : Dev) : (d.nextFree).staff = d.staff := rfl
@[simp] theorem Dev.nextFree_rd (d : Dev) : (d.nextFree).rd = d.rd := rfl

@[simp] theorem Dev.undefine_stop (d : Dev) (lo hi : Nat) : (d.undefine lo hi).stop = d.stop := rfl
@[simp] theorem Dev.undefine_now (d : Dev) (lo hi : Nat) : (d.undefine lo hi).now = d.now := rfl
@[simp] theorem Dev.undefine_tb (d : Dev) (lo hi : Nat) : (d.undefine lo hi).tb = d.tb := rfl
@[simp] theorem Dev.undefine_fuses (d : Dev) (lo hi : Nat) : (d.undefine lo hi).fuses = d.fuses := rfl
@[simp] theorem Dev.undefine_regs (d : Dev) (lo hi : Nat) : (d.undefine lo hi).regs = d.regs := rfl
@[simp] theorem Dev.undefine_poison (d : Dev) (lo hi : Nat) : (d.undefine lo hi).poison = d.poison := rfl
@[simp] theorem Dev.undefine_hostMem (d : Dev) (lo hi : Nat) : (d.undefine lo hi).hostMem = d.hostMem := rfl
@[simp] theorem Dev.undefine_flash (d : Dev) (lo hi : Nat) : (d.undefine lo hi).flash = d.flash := rfl
@[simp] theorem Dev.undefine_imMirror (d : Dev) (lo hi : Nat) : (d.undefine lo hi).imMirror = d.imMirror := rfl
@[simp] theorem Dev.undefine_coreImg (d : Dev) (lo hi : Nat) : (d.undefine lo hi).coreImg = d.coreImg := rfl
@[simp] theorem Dev.undefine_cores (d : Dev) (lo hi : Nat) : (d.undefine lo hi).cores = d.cores := rfl
@[simp] theorem Dev.undefine_chainFly (d : Dev) (lo hi : Nat) : (d.undefine lo hi).chainFly = d.chainFly := rfl
@[simp] theorem Dev.undefine_rampReq (d : Dev) (lo hi : Nat) : (d.undefine lo hi).rampReq = d.rampReq := rfl
@[simp] theorem Dev.undefine_tt (d : Dev) (lo hi : Nat) : (d.undefine lo hi).tt = d.tt := rfl
@[simp] theorem Dev.undefine_bar (d : Dev) (lo hi : Nat) : (d.undefine lo hi).bar = d.bar := rfl
@[simp] theorem Dev.undefine_com (d : Dev) (lo hi : Nat) : (d.undefine lo hi).com = d.com := rfl
@[simp] theorem Dev.undefine_lnk (d : Dev) (lo hi : Nat) : (d.undefine lo hi).lnk = d.lnk := rfl
@[simp] theorem Dev.undefine_chn (d : Dev) (lo hi : Nat) : (d.undefine lo hi).chn = d.chn := rfl
@[simp] theorem Dev.undefine_med (d : Dev) (lo hi : Nat) : (d.undefine lo hi).med = d.med := rfl
@[simp] theorem Dev.undefine_stk (d : Dev) (lo hi : Nat) : (d.undefine lo hi).stk = d.stk := rfl
@[simp] theorem Dev.undefine_pwr (d : Dev) (lo hi : Nat) : (d.undefine lo hi).pwr = d.pwr := rfl
@[simp] theorem Dev.undefine_flt (d : Dev) (lo hi : Nat) : (d.undefine lo hi).flt = d.flt := rfl
@[simp] theorem Dev.undefine_pci (d : Dev) (lo hi : Nat) : (d.undefine lo hi).pci = d.pci := rfl
@[simp] theorem Dev.undefine_svc (d : Dev) (lo hi : Nat) : (d.undefine lo hi).svc = d.svc := rfl
@[simp] theorem Dev.undefine_boot (d : Dev) (lo hi : Nat) : (d.undefine lo hi).boot = d.boot := rfl
@[simp] theorem Dev.undefine_staff (d : Dev) (lo hi : Nat) : (d.undefine lo hi).staff = d.staff := rfl
@[simp] theorem Dev.undefine_rd (d : Dev) (lo hi : Nat) : (d.undefine lo hi).rd = d.rd := rfl

@[simp] theorem Dev.core_setCore (d : Dev) (p : Fin 7) (c : CoreSt) : (d.setCore p c).core p = c := by
  simp [Dev.core, Dev.setCore]

@[simp] theorem Dev.core_modCore (d : Dev) (p : Fin 7) (g : CoreSt → CoreSt) : (d.modCore p g).core p = g (d.core p) := by
  simp [Dev.modCore]

theorem Dev.core_setCore_ne (d : Dev) (c : CoreSt) {p q : Fin 7} (h : q ≠ p) : (d.setCore p c).core q = d.core q := by
  have hv : p.val ≠ q.val := fun e => h (Fin.ext e.symm)
  simp [Dev.core, Dev.setCore, hv]

theorem Dev.core_modCore_ne (d : Dev) (g : CoreSt → CoreSt) {p q : Fin 7} (h : q ≠ p) :
    (d.modCore p g).core q = d.core q := Dev.core_setCore_ne d _ h

@[simp] theorem Dev.core_setRg (d : Dev) (r : Reg) (i : List Nat) (v : W32) (q : Fin 7) :
    (d.setRg r i v).core q = d.core q := rfl
@[simp] theorem Dev.core_setFld (d : Dev) (r : Reg) (i : List Nat) (hi lo v : Nat) (q : Fin 7) :
    (d.setFld r i hi lo v).core q = d.core q := rfl
@[simp] theorem Dev.core_incSat (d : Dev) (r : Reg) (i : List Nat) (hi lo v : Nat) (q : Fin 7) :
    (d.incSat r i hi lo v).core q = d.core q := rfl
@[simp] theorem Dev.core_incMod (d : Dev) (r : Reg) (i : List Nat) (hi lo v : Nat) (q : Fin 7) :
    (d.incMod r i hi lo v).core q = d.core q := rfl
@[simp] theorem Dev.core_plainWrite (d : Dev) (r : Reg) (i : List Nat) (v : W32) (q : Fin 7) :
    (d.plainWrite r i v).core q = d.core q := rfl
@[simp] theorem Dev.core_store (d : Dev) (a : Nat) (bs : List Byte) (q : Fin 7) : (d.store a bs).core q = d.core q := rfl
@[simp] theorem Dev.core_satWr (d : Dev) (p o : Nat) (bs : List Byte) (q : Fin 7) : (d.satWr p o bs).core q = d.core q := rfl
@[simp] theorem Dev.rg_setCore (d : Dev) (p : Fin 7) (c : CoreSt) (r : Reg) (i : List Nat) :
    (d.setCore p c).rg r i = d.rg r i := rfl
@[simp] theorem Dev.rg_modCore (d : Dev) (p : Fin 7) (g : CoreSt → CoreSt) (r : Reg) (i : List Nat) :
    (d.modCore p g).rg r i = d.rg r i := rfl
@[simp] theorem Dev.rg_store (d : Dev) (a : Nat) (bs : List Byte) (r : Reg) (i : List Nat) :
    (d.store a bs).rg r i = d.rg r i := rfl

/-- Two changes of one slot are one. -/
theorem Dev.modCore_modCore (d : Dev) (p : Fin 7) (g h : CoreSt → CoreSt) :
    (d.modCore p g).modCore p h = d.modCore p (fun c => h (g c)) := by
  simp [Dev.modCore, Dev.setCore, Dev.core]

theorem Dev.modCore_id (d : Dev) (p : Fin 7) : d.modCore p (fun c => c) = d := by
  simp [Dev.modCore, Dev.setCore, Dev.core]

/-- A command on the device that is not stopped answers the changed device. -/
theorem onDev_go {s : State} (d : Dev) (h : s.dev.stop = none) : onDev s d = .next { s with dev := d } := by
  simp [onDev, h]

/-- A stopped device does nothing. -/
theorem onDev_stopped {s : State} (d : Dev) (h : s.dev.stop ≠ none) : onDev s d = .next s := by
  cases e : s.dev.stop <;> simp_all [onDev]

/-- Everything a command on the device can do: it answers a next state with the same arbiters and queue. -/
theorem onDev_cases {s t : State} {d : Dev} (h : onDev s d = .next t) :
    t = s ∨ (s.dev.stop = none ∧ t = { s with dev := d }) := by
  unfold onDev at h
  split at h
  · exact .inl (by injection h with h; exact h.symm)
  · rename_i hs
    exact .inr ⟨by simpa using hs, by injection h with h; exact h.symm⟩

theorem onDev_arbs {s t : State} {d : Dev} (h : onDev s d = .next t) : t.arbs = s.arbs := by
  rcases onDev_cases h with rfl | ⟨_, rfl⟩ <;> rfl

theorem onDev_pending {s t : State} {d : Dev} (h : onDev s d = .next t) : t.pending = s.pending := by
  rcases onDev_cases h with rfl | ⟨_, rfl⟩ <;> rfl

end Sys2Proof.Machine
end

