-- ==== Sys2Proof/Laws/Bundle.lean ====
section
/-! SUPPORT. Registers read back, what a core cycle leaves alone, and what a bundle of one operation does. -/

namespace Sys2Proof.Machine

/-- A register holds what was stored into it. -/
@[simp] theorem Dev.rg_setRg_same (d : Dev) (r : Reg) (i : List Nat) (v : W32) : (d.setRg r i v).rg r i = v := by
  simp [Dev.rg, Dev.setRg]

/-- A store into a register leaves every register at another offset as it was. -/
theorem Dev.rg_setRg_ne (d : Dev) {r r' : Reg} {i i' : List Nat} (v : W32) (h : regOff r' i' ≠ regOff r i) :
    (d.setRg r i v).rg r' i' = d.rg r' i' := by
  show spGet (regReset d.fuses r' i') (spSet (regReset d.fuses r i) d.regs (regOff r i) v) (regOff r' i') = _
  exact spGet_spSet_ne' _ _ _ _ h

theorem Dev.rg_setFld_ne (d : Dev) {r r' : Reg} {i i' : List Nat} (hi lo v : Nat) (h : regOff r' i' ≠ regOff r i) :
    (d.setFld r i hi lo v).rg r' i' = d.rg r' i' := by
  unfold Dev.setFld
  exact Dev.rg_setRg_ne d _ h

theorem Dev.rg_incSat_ne (d : Dev) {r r' : Reg} {i i' : List Nat} (hi lo n : Nat) (h : regOff r' i' ≠ regOff r i) :
    (d.incSat r i hi lo n).rg r' i' = d.rg r' i' := by
  unfold Dev.incSat
  exact Dev.rg_setFld_ne d _ _ _ h

/-! ## A core cycle -/

/-- The counters that a core cycle of slot `p` moves. -/
def clockRegs (p : Fin 7) : List Nat := [regOff .coreArrRampWait [p.val], regOff .pwrStretch []]

/-- What an operation on one slot's clock leaves alone. -/
def ClockFrame (d d' : Dev) (p : Fin 7) : Prop :=
  d' = { d with regs := d'.regs, cores := d'.cores } ∧ (∀ q, q ≠ p → d'.core q = d.core q) ∧
  SameButTime (d.core p) (d'.core p) ∧ (∀ r i, regOff r i ∉ clockRegs p → d'.rg r i = d.rg r i)

theorem ArrSt.timeless_refl (a : ArrSt) : a.timeless a := ⟨rfl, rfl, rfl⟩

theorem ArrSt.timeless.trans {a b c : ArrSt} (h : a.timeless b) (h' : b.timeless c) : a.timeless c := by
  unfold ArrSt.timeless at *
  refine ⟨?_, h'.2.1.trans h.2.1, h'.2.2.trans h.2.2⟩
  have h1 := h.1
  have h2 := h'.1
  rw [h2, h1]

theorem SameButTime.refl (c : CoreSt) : SameButTime c c := ⟨rfl, ArrSt.timeless_refl _, ArrSt.timeless_refl _⟩

theorem SameButTime.trans {a b c : CoreSt} (h : SameButTime a b) (h' : SameButTime b c) : SameButTime a c := by
  refine ⟨?_, h.2.1.trans h'.2.1, h.2.2.trans h'.2.2⟩
  have h1 := h.1
  have h2 := h'.1
  rw [h2, h1]

theorem ClockFrame.refl (d : Dev) (p : Fin 7) : ClockFrame d d p := ⟨rfl, fun _ _ => rfl, .refl _, fun _ _ _ => rfl⟩

theorem ClockFrame.trans {a b c : Dev} {p : Fin 7} (h : ClockFrame a b p) (h' : ClockFrame b c p) : ClockFrame a c p := by
  refine ⟨?_, fun q hq => (h'.2.1 q hq).trans (h.2.1 q hq), h.2.2.1.trans h'.2.2.1,
    fun r i hr => (h'.2.2.2 r i hr).trans (h.2.2.2 r i hr)⟩
  have h1 := h.1
  have h2 := h'.1
  rw [h2, h1]

theorem ClockFrame.modCore (d : Dev) (p : Fin 7) (g : CoreSt → CoreSt) (hg : SameButTime (d.core p) (g (d.core p))) :
    ClockFrame d (d.modCore p g) p :=
  ⟨rfl, fun _ hq => Dev.core_modCore_ne d g hq, by rw [Dev.core_modCore]; exact hg, fun _ _ _ => rfl⟩

theorem ClockFrame.boundary (d : Dev) (p : Fin 7) : ClockFrame d (d.boundary p) p := by
  unfold Dev.boundary
  refine ClockFrame.modCore d p _ ⟨rfl, ?_, ?_⟩ <;> exact ArrSt.timeless_refl _

theorem ClockFrame.passPos (d : Dev) (p : Fin 7) : ClockFrame d (d.passPos p) p := by
  unfold Dev.passPos
  simp only []
  split
  · exact ClockFrame.boundary d p
  · refine ClockFrame.modCore d p _ ⟨rfl, ?_, ?_⟩ <;> exact ArrSt.timeless_refl _

theorem ClockFrame.passSkipped (k : Nat) (d : Dev) (p : Fin 7) : ClockFrame d (passSkipped k d p) p := by
  induction k generalizing d with
  | zero => exact ClockFrame.refl d p
  | succ k ih =>
    unfold Sys2Proof.Machine.passSkipped
    split
    · exact (ClockFrame.passPos d p).trans (ih _)
    · exact ClockFrame.refl d p

theorem ClockFrame.incSat (d : Dev) (p : Fin 7) {r : Reg} {i : List Nat} (h : regOff r i ∈ clockRegs p) :
    ClockFrame d (d.incSat r i 31 0 1) p :=
  ⟨rfl, fun _ _ => rfl, .refl _, fun _ _ hr => Dev.rg_incSat_ne d _ _ _ (fun e => hr (e ▸ h))⟩

theorem ClockFrame.deliverPulse (d : Dev) (p : Fin 7) : ClockFrame d (d.deliverPulse p) p := by
  unfold Dev.deliverPulse
  simp only []
  refine ((ClockFrame.passSkipped 16 d p).trans ?_).trans (ClockFrame.passPos _ p)
  refine ClockFrame.trans ?_ (ClockFrame.modCore _ p _ ⟨rfl, ArrSt.timeless_refl _, ArrSt.timeless_refl _⟩)
  split
  · exact ClockFrame.refl _ p
  · exact ClockFrame.incSat _ p (by simp [clockRegs])

theorem ArrSt.timeless_tick (a : ArrSt) (held : Bool) (now : Nat) (stalls : Bool) : a.timeless (a.tick held now stalls) := by
  refine ⟨rfl, ?_, ?_⟩
  · simp only [ArrSt.tick]
    split
    · simp only [List.map_map]
      refine List.map_congr_left (fun j _ => ?_)
      simp only [Function.comp]
      split <;> rfl
    · rfl
  · simp only [ArrSt.tick]
    split
    · simp [List.map_map, Function.comp_def]
    · rfl

theorem SameButTime.cycle (c : CoreSt) (susp held : Bool) (walk : Nat → Bool) : SameButTime c (c.cycle susp held walk) :=
  ⟨rfl, ArrSt.timeless_tick _ _ _ _, ArrSt.timeless_tick _ _ _ _⟩

/-- A core cycle changes the cycle counts, the latencies that run, the place in the pulse frame, the idle counts and the
places of the streams of its slot, and its counters; nothing else. -/
theorem ClockFrame.coreCycle (d : Dev) (p : Fin 7) : ClockFrame d (d.coreCycle p) p := by
  unfold Dev.coreCycle
  simp only []
  refine ((ClockFrame.deliverPulse d p).trans ?_).trans (ClockFrame.modCore _ p _ (SameButTime.cycle _ _ _ _))
  split
  · exact ClockFrame.incSat _ p (by simp [clockRegs])
  · exact ClockFrame.refl _ p

@[simp] theorem Dev.coreCycle_mem (d : Dev) (p : Fin 7) : (d.coreCycle p).mem = d.mem := by
  rw [(ClockFrame.coreCycle d p).1]

@[simp] theorem Dev.coreCycle_fuses (d : Dev) (p : Fin 7) : (d.coreCycle p).fuses = d.fuses := by
  rw [(ClockFrame.coreCycle d p).1]

theorem Dev.coreCycle_core (d : Dev) (p : Fin 7) : SameButTime (d.core p) ((d.coreCycle p).core p) :=
  (ClockFrame.coreCycle d p).2.2.1

theorem Dev.coreCycle_core_ne (d : Dev) {p q : Fin 7} (h : q ≠ p) : (d.coreCycle p).core q = d.core q :=
  (ClockFrame.coreCycle d p).2.1 q h

/-! ## A bundle of one operation -/

theorem CoreSt.not_blocks {s : State} {p : Fin 7} {a : Act} (h : NoPending s p (a.sR ++ a.sW) (a.vR ++ a.vW) (a.mR ++ a.mW)) :
    (s.dev.core p).blocks a = false := by
  simp only [CoreSt.blocks, Bool.or_eq_false_iff, List.any_eq_false]
  exact ⟨⟨fun r hr => by simpa using h.1 r hr, fun r hr => by simpa using h.2.1 r hr⟩, fun r hr => by simpa using h.2.2 r hr⟩

/-- A bundle that reaches no Satchel byte meets no busy bank. -/
theorem Dev.bankBusy_none (d : Dev) (p : Fin 7) (pos : Nat) {a : Act} (h : a.sat = none) :
    d.bankBusy p [(pos, a)] = false ∧ pairMeets (satBanks [(pos, a)]) = false := by
  simp [Dev.bankBusy, satBanks, h, pairMeets]

/-- An act touches no pending register and no busy bank. -/
def FreeAct (d : Dev) (p : Fin 7) (a : Act) : Prop := (d.core p).blocks a = false ∧ a.sat = none

theorem firstHold_solo (d : Dev) (p : Fin 7) (pos : Nat) {a : Act} (hh : a.hold = .go) (hf : FreeAct d p a) :
    firstHold d p [(pos, a)] = .go := by
  simp [firstHold, hh, hf.1, (d.bankBusy_none p pos hf.2).1]

/-- A bundle of one operation that nothing holds and that raises nothing: its effect, and control moves on. -/
theorem issueAt_solo (d : Dev) (p : Fin 7) (pos : Nat) (act : Action)
    (hi : (d.core p).issues = true) (hn : (d.core p).after < 4096)
    (hh : (act d p).hold = .go) (he : (act d p).exc = none)
    (hd : (act d p).noDelay = false ∨ (d.core p).delay = none)
    (hb : (act d p).branch = none) (hpre : (act d p).pre = id) (hpost : (act d p).post = id)
    (hr : FreeAct d p (act d p)) :
    d.issueAt ⟨p, []⟩ pos act = d.done p ((act d p).eff d) (act d p).writes (act d p).lat := by
  have hnd : ((d.core p).delay.isSome && (act d p).noDelay) = false := by
    rcases hd with h | h <;> simp [h]
  have hcl : clash (act d p) [] = false := by simp [clash]
  simp only [Dev.issueAt, coActs, sortActs, sortActs.ins, Dev.issue, hi, Bool.not_true, Bool.false_eq_true, if_false,
    firstHold_solo d p pos hh hr, firstExc, hnd, he, hcl, Dev.runBundle, List.foldl,
    List.filterMap_cons, List.filterMap_nil, hb, nextPc, hpre, hpost, id]
  unfold Dev.done CoreSt.after at *
  cases hdl : (d.core p).delay <;> simp_all [Nat.mod_eq_of_lt]

/-- The same as a command, for an effect on the device. -/
theorem onDev_solo {s : State} {p : Fin 7} (pos : Nat) (act : Action) (g : Dev → Dev) (hR : Ready s p)
    (hf : (act s.dev p).eff s.dev = g) (he : (act s.dev p).exc = none)
    (hr : FreeAct s.dev p (act s.dev p))
    (hh : (act s.dev p).hold = .go) (hd : (act s.dev p).noDelay = false ∨ (s.dev.core p).delay = none)
    (hb : (act s.dev p).branch = none) (hpre : (act s.dev p).pre = id) (hpost : (act s.dev p).post = id) :
    onDev s (s.dev.issueAt ⟨p, []⟩ pos act) = .next (s.done p g (act s.dev p).writes (act s.dev p).lat) := by
  rw [onDev_go _ hR.1, issueAt_solo s.dev p pos act hR.2.1 hR.2.2 hh he hd hb hpre hpost hr, hf]
  rfl

/-- The same for an operation whose operands are checked together and whose effect is on its core alone. -/
theorem onDev_guard {s : State} {p : Fin 7} {ok : Bool} {a : Act} {g : CoreSt → CoreSt} (pos : Nat) (act : Action)
    (hR : Ready s p) (hact : act s.dev p = guardOp ok a) (hok : ok = true)
    (hr : NoPending s p (a.sR ++ a.sW) (a.vR ++ a.vW) (a.mR ++ a.mW)) (hf : a.eff s.dev = fun d => d.modCore p g)
    (hs : a.sat = none := by rfl) (hh : a.hold = .go := by rfl) (he : a.exc = none := by rfl)
    (hd : a.noDelay = false := by rfl) (hb : a.branch = none := by rfl) (hpre : a.pre = id := by rfl)
    (hpost : a.post = id := by rfl) :
    onDev s (s.dev.issueAt ⟨p, []⟩ pos act) = .next (s.doneCore p g a.writes a.lat) := by
  have e : act s.dev p = a := by simp [hact, guardOp, hok]
  have hfree : FreeAct s.dev p (act s.dev p) := e ▸ ⟨CoreSt.not_blocks hr, hs⟩
  have := onDev_solo pos act _ hR (e ▸ hf) (e ▸ he) hfree (e ▸ hh) (.inl (e ▸ hd)) (e ▸ hb) (e ▸ hpre) (e ▸ hpost)
  rwa [e] at this

/-- A bundle of one operation that is held: a cycle passes and the stall is counted. -/
theorem issueAt_held (d : Dev) (p : Fin 7) (pos : Nat) (act : Action) (hi : (d.core p).issues = true)
    (hh : (act d p).hold = .go ∨ (act d p).hold = .issue) (hs : (act d p).sat = none)
    (hb : (act d p).hold = .issue ∨ (d.core p).blocks (act d p) = true) :
    d.issueAt ⟨p, []⟩ pos act = (d.coreCycle p).stall p .issue := by
  have hf : firstHold d p [(pos, act d p)] = .issue := by
    rcases hb with e | e <;> rcases hh with h | h <;> simp_all [firstHold]
  have hk := d.bankBusy_none p pos hs
  simp only [Dev.issueAt, coActs, sortActs, sortActs.ins, Dev.issue, hi, Bool.not_true, Bool.false_eq_true, if_false, hf, hk.2,
    Bool.or_false]
  exact Dev.modCore_id _ _

/-- A bundle of one operation that raises a cause ends the task. -/
theorem issueAt_raises (d : Dev) (p : Fin 7) (pos : Nat) (act : Action) (c : Cause) (hi : (d.core p).issues = true)
    (hh : (act d p).hold = .go) (he : (act d p).exc = some c)
    (hd : (act d p).noDelay = false ∨ (d.core p).delay = none)
    (hr : FreeAct d p (act d p)) :
    d.issueAt ⟨p, []⟩ pos act = (d.coreCycle p).raise p (d.core p).pc [(pos, act d p)] pos c := by
  have hnd : ((d.core p).delay.isSome && (act d p).noDelay) = false := by
    rcases hd with h | h <;> simp [h]
  simp [Dev.issueAt, coActs, sortActs, sortActs.ins, Dev.issue, hi, firstHold_solo d p pos hh hr, firstExc, hnd, he]

/-- Only an atomic out of range names an address that can count as an access to the Proctor region (R36). -/
theorem Dev.raise_eq (d : Dev) (p : Fin 7) (pc i : Nat) (acts : List (Nat × Act)) {c : Cause} (h : c ≠ .atomicRange) :
    d.raise p pc acts i c = d.except p pc i c := by
  cases c <;> first | exact absurd rfl h | rfl

end Sys2Proof.Machine
end

