-- ==== Sys2Proof/Laws/Memory.lean ====
section
/-! SUPPORT. The remaining operations on memory: they keep its canonical form, which reset has. -/

namespace Sys2Proof.Machine

/-- What a clearing leaves undefined: what was, outside the cleared range. -/
theorem undefAt_clear (u : List (Nat × Nat × Nat)) (lo hi a : Nat) (h : ¬ (lo ≤ a ∧ a < hi)) :
    undefAt (u.flatMap (fun x =>
      (if x.1 < min x.2.1 lo then [(x.1, min x.2.1 lo, x.2.2)] else []) ++
      (if max x.1 hi < x.2.1 then [(max x.1 hi, x.2.1, x.2.2)] else []))) a = undefAt u a := by
  induction u with
  | nil => rfl
  | cons x r ih =>
    obtain ⟨l, k, n⟩ := x
    simp only [List.flatMap_cons, undefAt]
    by_cases hx : l ≤ a ∧ a < k
    · by_cases ha : a < lo
      · have h1 : l < min k lo := by omega
        have h2 : l ≤ a ∧ a < min k lo := by omega
        simp [h1, undefAt, hx, h2]
      · have h1 : max l hi < k := by omega
        have h2 : max l hi ≤ a ∧ a < k := by omega
        have h3 : ¬ (l ≤ a ∧ a < min k lo) := by omega
        by_cases h4 : l < min k lo <;> simp only [h4, h1, undefAt, if_pos hx, if_pos h2, if_neg h3, if_true, if_false,
          List.cons_append, List.nil_append]
    · have h1 : ¬ (l ≤ a ∧ a < min k lo) := by omega
      have h2 : ¬ (max l hi ≤ a ∧ a < k) := by omega
      by_cases h3 : l < min k lo <;> by_cases h4 : max l hi < k <;>
        simp only [h3, h4, undefAt, hx, h1, h2, if_true, if_false, List.cons_append, List.nil_append, ih]

/-- A clearing keeps the canonical form. -/
theorem Memory.wf_clear {m : Memory} (lo hi : Nat) (h : m.wf = true) : (m.clear lo hi).wf = true := by
  simp only [Memory.wf, Bool.and_eq_true, List.all_eq_true, Option.isNone_iff_eq_none] at h ⊢
  refine ⟨spWf_filter _ h.1, fun e he => ?_⟩
  obtain ⟨h1, h2⟩ := List.mem_filter.mp he
  have h3 : ¬ (lo ≤ e.1 ∧ e.1 < hi) := by
    have h4 : e.1 < lo ∨ hi ≤ e.1 := by simpa using h2
    omega
  exact (undefAt_clear m.undef lo hi e.1 h3).trans (h.2 e h1)

/-- A masked write keeps the canonical form. -/
theorem Memory.wf_wrMasked {m : Memory} (a : Nat) (keep : Nat → Bool) (i : Nat) (bs : List Byte) (h : m.wf = true) :
    (wrMasked m a keep i bs).wf = true := by
  induction bs generalizing m i with
  | nil => exact h
  | cons b r ih =>
    simp only [wrMasked]
    refine ih (i + 1) ?_
    split
    · exact Memory.wf_wr _ _ h
    · exact h

theorem Dev.wf_store {d : Dev} (a : Nat) (bs : List Byte) (h : d.mem.wf = true) : (d.store a bs).mem.wf = true :=
  Memory.wf_wrN a bs h

theorem Dev.wf_satWr {d : Dev} (p o : Nat) (bs : List Byte) (h : d.mem.wf = true) : (d.satWr p o bs).mem.wf = true :=
  Memory.wf_wrN _ bs h

theorem Dev.wf_undefine {d : Dev} (lo hi : Nat) (h : d.mem.wf = true) : (d.undefine lo hi).mem.wf = true :=
  Memory.wf_mkUndef lo hi _ h

/-- The memory at reset is in canonical form. -/
theorem reset_mem_wf : State.reset.dev.mem.wf = true := rfl

end Sys2Proof.Machine
end

