-- ==== Sys2Proof/WellFormed.lean ====
section
/-! DEFINITION. Well-formed commands: the shape a command must have to be one of the spec's, before any state is
looked at. `exec` does not test it: an ill-formed command is one no sender of the spec can form. -/

namespace Sys2Proof

/-- The place of a scalar operation, S0 or S1, and of a load or store, L0 or L1 (R90). -/
def sPlace (second : Bool) : Nat := if second then 1 else 0
def lPlace (second : Bool) : Nat := if second then 4 else 3

/-- The other words of a bundle stand in slots of their own, each different from the operation's (R90). -/
def siteOk (a : Site) (pos : Nat) : Bool :=
  decide ((pos :: a.co.map (fun w => w.pos.val)).Nodup)

/-- A packet of a kind (R356, R357): its KIND, LEN and data bytes agree. -/
def packetOk (kind : Nat) (p : Packet) : Bool :=
  let n := p.len.toNat
  let blocks := kind == 0x02 || kind == 0x10 || kind == 0x81
  p.kind.toNat == kind && (if blocks || kind == 0x01 then decide (1 ≤ n ∧ n ≤ 4) else n == 0) &&
    p.data.length == (if blocks then 64 * n else if kind == 0x03 || kind == 0x83 then 32 else 0) &&
    p.flags.toNat / 2 == 0

/-- The BARs of the function (R425). -/
def barOk (bar : Nat) : Bool := bar == 0 || bar == 2 || bar == 4

/-- The shape of each command. -/
def Instr.wf : Instr → Bool
  | .registerWrite off _ => decide (off < 0x10000000 ∧ off % 4 = 0)
  | .sysLockSet => true
  | .cyclesLatchRead _ => true
  | .timebaseLatchRead => true
  | .heldWriteApply _ => true
  | .hostRead bar off len => (barOk bar || bar == 15 && decide (off + len ≤ 4096)) && decide (0 < len ∧ len ≤ 4096)
  | .hostWrite bar off bs _ => (barOk bar || bar == 15 && decide (off + bs.length ≤ 4096)) && decide (0 < bs.length ∧ bs.length ≤ 512)
  | .nop at_ pos => siteOk at_ pos.val
  | .add at_ second _ => siteOk at_ (sPlace second)
  | .sub at_ second _ => siteOk at_ (sPlace second)
  | .and_ at_ second _ => siteOk at_ (sPlace second)
  | .or_ at_ second _ => siteOk at_ (sPlace second)
  | .xor_ at_ second _ => siteOk at_ (sPlace second)
  | .sll at_ second _ => siteOk at_ (sPlace second)
  | .srl at_ second _ => siteOk at_ (sPlace second)
  | .sra at_ second _ => siteOk at_ (sPlace second)
  | .slt at_ second _ => siteOk at_ (sPlace second)
  | .sltu at_ second _ => siteOk at_ (sPlace second)
  | .mul at_ second _ => siteOk at_ (sPlace second)
  | .mulh at_ second _ => siteOk at_ (sPlace second)
  | .min_ at_ second _ => siteOk at_ (sPlace second)
  | .max_ at_ second _ => siteOk at_ (sPlace second)
  | .addi at_ second _ => siteOk at_ (sPlace second)
  | .andi at_ second _ => siteOk at_ (sPlace second)
  | .ori at_ second _ => siteOk at_ (sPlace second)
  | .xori at_ second _ => siteOk at_ (sPlace second)
  | .slli at_ second _ => siteOk at_ (sPlace second)
  | .srli at_ second _ => siteOk at_ (sPlace second)
  | .srai at_ second _ => siteOk at_ (sPlace second)
  | .slti at_ second _ => siteOk at_ (sPlace second)
  | .lui at_ second _ => siteOk at_ (sPlace second)
  | .div at_ second _ => siteOk at_ (sPlace second)
  | .divu at_ second _ => siteOk at_ (sPlace second)
  | .remu at_ second _ => siteOk at_ (sPlace second)
  | .divideComplete _ _ => true
  | .gets at_ second _ => siteOk at_ (sPlace second)
  | .sets at_ second _ => siteOk at_ (sPlace second)
  | .movv at_ second _ => siteOk at_ (sPlace second)
  | .vadd at_ _ => siteOk at_ 2
  | .vsub at_ _ => siteOk at_ 2
  | .vmul at_ _ => siteOk at_ 2
  | .vfma at_ _ => siteOk at_ 2
  | .vmin at_ _ => siteOk at_ 2
  | .vmax at_ _ => siteOk at_ 2
  | .vand at_ _ => siteOk at_ 2
  | .vor at_ _ => siteOk at_ 2
  | .vxor at_ _ => siteOk at_ 2
  | .vshl at_ _ => siteOk at_ 2
  | .vshr at_ _ => siteOk at_ 2
  | .vcmplt at_ _ => siteOk at_ 2
  | .vcmpeq at_ _ => siteOk at_ 2
  | .vsel at_ _ => siteOk at_ 2
  | .vbcast at_ _ => siteOk at_ 2
  | .vcvt at_ _ => siteOk at_ 2
  | .vred at_ _ => siteOk at_ 2
  | .vgather at_ _ => siteOk at_ 2
  | .mgen at_ _ => siteOk at_ 2
  | .mand at_ _ => siteOk at_ 2
  | .mor at_ _ => siteOk at_ 2
  | .mandn at_ _ => siteOk at_ 2
  | .qrinit at_ _ => siteOk at_ 2
  | .qracc at_ _ => siteOk at_ 2
  | .qrange at_ _ => siteOk at_ 2
  | .vquant at_ _ => siteOk at_ 2
  | .vdeq at_ _ => siteOk at_ 2
  | .vrdacc at_ _ => siteOk at_ 2
  | .vrdtal at_ _ => siteOk at_ 2
  | .finish at_ _ => siteOk at_ 2
  | .ld at_ second _ => siteOk at_ (lPlace second)
  | .st at_ second _ => siteOk at_ (lPlace second)
  | .ldw at_ second _ => siteOk at_ (lPlace second)
  | .mload at_ _ => siteOk at_ 5
  | .mloadComplete _ _ => true
  | .mswap at_ _ => siteOk at_ 5
  | .mrun at_ _ => siteOk at_ 5
  | .mrunStreamStart _ _ => true
  | .mrunComplete _ _ => true
  | .mepi at_ _ => siteOk at_ 5
  | .mepiStart _ _ => true
  | .mepiComplete _ _ => true
  | .mclr at_ _ => siteOk at_ 5
  | .chainPlaneArrive _ => true
  | .walk at_ _ => siteOk at_ 6
  | .walkerTransferStart _ _ => true
  | .walkerTransferComplete _ _ => true
  | .remoteTimeout _ _ => true
  | .fset at_ _ => siteOk at_ 6
  | .fclr at_ _ => siteOk at_ 6
  | .take at_ _ => siteOk at_ 6
  | .aadd at_ _ => siteOk at_ 6
  | .ald at_ _ => siteOk at_ 6
  | .ast at_ _ => siteOk at_ 6
  | .acas at_ _ => siteOk at_ 6
  | .atomicPerform _ => true
  | .atomicComplete _ => true
  | .awatch at_ _ => siteOk at_ 6
  | .awatchFire _ _ => true
  | .fence at_ _ => siteOk at_ 6
  | .jmp at_ _ => siteOk at_ 7
  | .jal at_ _ => siteOk at_ 7
  | .jr at_ _ => siteOk at_ 7
  | .beq at_ _ => siteOk at_ 7
  | .bne at_ _ => siteOk at_ 7
  | .blt at_ _ => siteOk at_ 7
  | .bge at_ _ => siteOk at_ 7
  | .bltu at_ _ => siteOk at_ 7
  | .bgeu at_ _ => siteOk at_ 7
  | .waitf at_ _ => siteOk at_ 7
  | .waita at_ _ => siteOk at_ 7
  | .tile at_ _ => siteOk at_ 7
  | .end_ at_ _ => siteOk at_ 7
  | .trap at_ _ => siteOk at_ 7
  | .barrier at_ _ => siteOk at_ 7
  | .barrierRelease _ _ _ => true
  | .dismissHoldExpire => true
  | .tileWatchdog _ => true
  | .tileRerunResume _ => true
  | .arrayIdleRampDown _ _ => true
  | .arrayRampDownStep _ _ => true
  | .rampGrant => true
  | .arrayRampUpStep _ _ => true
  | .haloCounterClear _ => true
  | .ringPoll host => host.all (fun x => decide (x.1 < 2 ^ 64))
  | .task _ rec => rec.length == 64
  | .load _ rec => rec.length == 64
  | .mark _ rec => rec.length == 64
  | .taskDispatch => true
  | .loadStart => true
  | .loadComplete _ => true
  | .markComplete => true
  | .taskComplete _ => true
  | .completionRecordWrite _ => true
  | .irqModerationTimeout _ => true
  | .ttEnable _ => true
  | .ringEnable _ _ => true
  | .ringDisable _ => true
  | .counterWrite _ _ => true
  | .arbModeChange _ => true
  | .barrierMaskApply => true
  | .staffCoreAmo _ _ _ addr _ => decide (addr < 2 ^ 64)
  | .staffCoreLr _ _ addr => decide (addr < 2 ^ 64)
  | .staffCoreSc _ _ addr _ => decide (addr < 2 ^ 64)
  | .arbiterRequest _ _ _ what => (match what with | .transfer beats _ => decide (1 ≤ beats ∧ beats ≤ 16) | .withdraw => true)
  | .arbiterGrant _ => true
  | .csiFrameStart _ _ _ _ _ => true
  | .csiLinePacket _ _ _ _ _ _ _ => true
  | .csiFrameEnd _ _ _ _ => true
  | .portEnable _ _ => true
  | .streamEnable _ _ => true
  | .portErrClear _ => true
  | .vcStatClear _ => true
  | .ppsEdge => true
  | .ppsHoldover => true
  | .timebaseLoad => true
  | .fsyncEdge _ => true
  | .triggerWindowEnd _ => true
  | .ispLineGroup _ => true
  | .ispFrameComplete _ => true
  | .bitstreamPoll host => host.all (fun x => decide (x.1 < 2 ^ 64))
  | .data _ entry _ => entry.length == 32
  | .eos _ entry => entry.length == 32
  | .pictureDecodeStart _ _ => true
  | .pictureDecodeComplete _ _ _ _ _ _ _ => true
  | .encodeInput _ => true
  | .accessUnitComplete _ _ => true
  | .assemblerEnable _ => true
  | .assemblerDisable _ => true
  | .asmStatClear _ => true
  | .groupConfigWrite _ _ => true
  | .sampleConvert => true
  | .sampleConvertComplete => true
  | .batchBudgetExpire _ => true
  | .batchComplete _ => true
  | .lateDecode _ => true
  | .groupSetClose _ => true
  | .primerEnable => true
  | .primerPoll => true
  | .tokenise rec => rec.length == 64
  | .tokeniseComplete => true
  | .stackReadAccept _ _ _ what => decide (0 < what.len ∧ what.addr % 64 + what.len ≤ 64)
  | .stackWriteAccept _ _ _ addr _ bs => decide (addr % 64 = 0) && bs.length == 64
  | .dramCommandIssue _ _ _ => true
  | .stackReadComplete _ _ => true
  | .writeParityError _ _ => true
  | .refreshDue _ _ _ => true
  | .trackerWindowReset => true
  | .channelRetrain _ => true
  | .channelRetrainComplete _ => true
  | .softRepairRequest _ _ => true
  | .softRepair _ => true
  | .stackEnable => true
  | .memErrClear _ => true
  | .rollCallStart => true
  | .token _ => true
  | .full => true
  | .close _ _ => true
  | .chainFrameRepeat => true
  | .rollCallTimeout => true
  | .chainNoclk => true
  | .linkEnable _ => true
  | .linkRetrain _ => true
  | .linkTrainingComplete _ _ _ _ _ => true
  | .linkNoPeer _ => true
  | .flitReceive _ _ => true
  | .nak _ _ => true
  | .linkAck _ _ credits => credits.length == 5
  | .laneErrorThreshold _ _ => true
  | .laneLockLoss _ _ => true
  | .linkErrClear _ => true
  | .fabricEnable _ => true
  | .read _ pkt => packetOk 0x01 pkt
  | .write _ pkt => packetOk 0x02 pkt
  | .atomic _ pkt => packetOk 0x03 pkt
  | .barArrive _ pkt => packetOk 0x04 pkt
  | .mgmt _ pkt => packetOk 0x10 pkt
  | .rdata _ pkt => packetOk 0x81 pkt
  | .wack _ pkt => packetOk 0x82 pkt
  | .aresult _ pkt => packetOk 0x83 pkt
  | .barRelease _ pkt => packetOk 0x84 pkt
  | .error _ pkt => packetOk 0x8F pkt
  | .fabricDiscovery _ _ _ _ _ => true
  | .dvfsStep _ => true
  | .setpointSlewDone => true
  | .relockWindow => true
  | .relockComplete => true
  | .droopTrip x => x.mv.length == 8
  | .skipFrameBoundary _ => true
  | .braceEntry => true
  | .braceRecovery => true
  | .braceHoldEnd => true
  | .braceRampStep => true
  | .supplyReset => true
  | .capTick _ _ => true
  | .grantWrite _ => true
  | .leaseDrop => true
  | .leaseExpire => true
  | .grant payload => decide (payload.length % 64 = 0 ∧ 0 < payload.length)
  | .thermalSample milli => milli.length == 16
  | .thermalTick => true
  | .energyTick _ => true
  | .energyTableEnable _ => true
  | .pmbusTelemetry _ _ => true
  | .pmAlert => true
  | .marginMeasure _ _ => true
  | .reportCardWrite => true
  | .errorDetect _ _ => true
  | .takeoverRemap => true
  | .takeoverReloadDone => true
  | .pllLockLoss _ => true
  | .pllSwitchComplete _ => true
  | .rotationDue => true
  | .rotationStep => true
  | .rotationSkip => true
  | .selfTestComplete _ _ => true
  | .recessWindow _ => true
  | .deviceTestComplete _ => true
  | .servicePoll host => host.all (fun x => decide (x.1 < 2 ^ 64))
  | .streamOpen req => req.length == 64
  | .streamClose req => req.length == 64
  | .encodeOpen req => req.length == 64
  | .encodeClose req => req.length == 64
  | .faultConfig req => req.length == 64
  | .test req => req.length == 64
  | .marionette req => req.length == 64
  | .lease req => req.length == 64
  | .settingsWrite req => req.length == 64
  | .flashWrite req => req.length == 64
  | .svnCommit req => req.length == 64
  | .ownerProvision req => req.length == 64
  | .identity req => req.length == 64
  | .attest req => req.length == 64
  | .debugChallenge req _ => req.length == 64
  | .debugChallengeExpire => true
  | .debugUnlock req => req.length == 64
  | .reset req => req.length == 64
  | .serviceRingEnable _ => true
  | .pciErrClear => true
  | .msixUnmask _ _ _ => true
  | .powerStateChange _ _ => true
  | .perst => true
  | .functionReset => true
  | .resetNAssert => true
  | .resetRelease _ => true
  | .loaderImageCheck => true
  | .firmwareRelease _ => true
  | .stackTrainingComplete _ _ => true
  | .bootReady => true
  | .recoveryGo _ => true
  | .ignoredChainFrame _ => true
  | .tb10mLock => true
  | .supplyRemoval => true
  | .bar2Resize _ => true
  | .forcedTestTimeout => true

end Sys2Proof
end

