-- ==== Sys2Proof/Tests/Slice0.lean ====
section
/-! SUPPORT. Tests: small states that meet the hypotheses of the statements, with what one command leaves in them; ill-formed
commands that WellFormed refuses. Expected values are worked out by hand from the rule named beside each test. -/

namespace Sys2Proof.Tests

open Sys2Proof Sys2Proof.Machine

-- One theorem at a time: checking many at once takes a thread and its stack for each.
set_option Elab.async false

/-- What a next state shows; false for a fault or a refusal. -/
def nx (o : Host.Outcome State Fault Refusal) (q : State → Bool) : Bool :=
  match o with
  | .next t => q t
  | _ => false

/-- The state after a command; the state itself where there is none. -/
def aft (c : Instr) (s : State) : State :=
  match exec c s with
  | .next t => t
  | _ => s

/-- A state with the device given, nothing waiting. -/
def mk (d : Dev) : State := { State.reset with dev := d }

/-- Slot 0 runs a task with these registers. -/
def run (c : CoreSt) : State := mk (Dev.reset.setCore 0 { c with mode := .running })

def site : Site := ⟨0, []⟩

/-- The conditions of Ready as one Boolean. -/
def rdy (s : State) (p : Fin 7) : Bool := s.dev.stop.isNone && (s.dev.core p).issues && decide ((s.dev.core p).after < 4096)

theorem ready_of {s : State} {p : Fin 7} (h : rdy s p = true) : Ready s p := by
  simp only [rdy, Bool.and_eq_true, Option.isNone_iff_eq_none, decide_eq_true_eq] at h
  exact ⟨h.1.1, h.1.2, h.2⟩

/-- No scalar write is pending, as one Boolean. -/
def free (s : State) (p : Fin 7) (l : List Nat) : Bool := l.all (fun r => !(s.dev.core p).pendS.contains r)

/-- An empty transfer. -/
def xf0 : Xfer := { words := [], dsrc := false, descAt := 0, idx := 0, padv := 0, cls := 0, flag := none, released := false }

/-- n bytes, those listed as given, the others 0. -/
def bytes (n : Nat) (l : List (Nat × Byte)) : List Byte := (upto n).map (fun i => ((l.find? (fun e => e.1 == i)).map (·.2)).getD 0#8)
/-- A host cell at each place from `a` on. -/
def hcells (a : Nat) (l : List Byte) : List Host.Cell := (l.zipIdx).map (fun e => (a + e.2, e.1))
def wrote (c : Instr) (d : Dev) (r : Reg) (i : List Nat) : Nat := ((aft c (mk d)).dev.rg r i).toNat
/-- In service, with the function awake. -/
def dSv : Dev := Dev.reset.setFld .secBoot [] 31 29 5

/-! ## The queue and the scalar slots -/

def sA : State := run { sregs := [(1, 5#64), (2, 0xFFFFFFFFFFFFFFFE#64), (31, 9#64)], pc := 4094 }
def fR : SFields := ⟨31#6, 1#6, 2#6, 0#38⟩

/-- A command at the front is taken. -/
theorem test_front : nx (step { sA with pending := [.add site false fR, .rampGrant] }) (fun t =>
    (t.dev.core 0).s 31 == 3#64 && t.pending == [.rampGrant]) = true := by decide +kernel

/-- R97, R121: operands 5 and -2 into s31, at the last bundle but one; a product is under way for two cycles more; the hypotheses of the
register forms hold. -/
theorem test_scalar_forms : Ready sA 0 ∧ fR.d.toNat < 32 ∧ fR.a.toNat < 32 ∧ fR.b.toNat < 32 ∧ fR.imm = 0#38 ∧
    NoPending sA 0 [fR.a.toNat, fR.b.toNat, fR.d.toNat] ∧
    ((aft (.add site false fR) sA).dev.core 0).s 31 = 3#64 ∧ ((aft (.sub site true fR) sA).dev.core 0).s 31 = 7#64 ∧
    ((aft (.mulh site false fR) sA).dev.core 0).s 31 = 0xFFFFFFFFFFFFFFFF#64 ∧
    ((aft (.mulh site false fR) sA).dev.core 0).pend = [(.s 31, 2)] ∧ ((aft (.min_ site false fR) sA).dev.core 0).s 31 = 0xFFFFFFFFFFFFFFFE#64 ∧
    ((aft (.sltu site false fR) sA).dev.core 0).s 31 = 1#64 ∧ ((aft (.slt site false fR) sA).dev.core 0).s 31 = 0#64 := by
  refine ⟨ready_of (by decide +kernel), ?_⟩
  unfold NoPending
  decide +kernel

/-- R94: s0 takes no value. -/
theorem test_s0 : nx (exec (.add site false ⟨0#6, 1#6, 1#6, 0#38⟩) sA) (fun t => (t.dev.core 0).s 0 == 0#64 && (t.dev.core 0).pc == 4095) = true := by
  decide +kernel

/-- R97: an immediate of -1, the largest shift, LUI. -/
theorem test_immediates : Ready sA 0 ∧ NoPending sA 0 [1, 31] ∧
    ((aft (.addi site false ⟨31#6, 1#6, 0#6, BitVec.allOnes 38⟩) sA).dev.core 0).s 31 = 4#64 ∧
    ((aft (.srai site false ⟨31#6, 2#6, 0#6, 63#38⟩) sA).dev.core 0).s 31 = BitVec.allOnes 64 ∧
    ((aft (.lui site false ⟨31#6, 0#6, 0#6, 1#38⟩) sA).dev.core 0).s 31 = 0x4000000#64 := by
  refine ⟨ready_of (by decide +kernel), ?_⟩
  unfold NoPending
  decide +kernel

/-- R97, R121: a division by zero goes to its divider and completes with all ones; the remainder is the dividend. -/
theorem test_divide : (sA.dev.core 0).div0 = none ∧ (aft (.div site false ⟨31#6, 1#6, 0#6, 0#38⟩) sA).dev.stop = none ∧
    ((aft (.div site false ⟨31#6, 1#6, 0#6, 0#38⟩) sA).dev.core 0).div0 = some ⟨31, BitVec.allOnes 64⟩ ∧
    ((aft (.divideComplete 0 false) (aft (.div site false ⟨31#6, 1#6, 0#6, 0#38⟩) sA)).dev.core 0).s 31 = BitVec.allOnes 64 ∧
    ((aft (.remu site true ⟨31#6, 1#6, 0#6, 0#38⟩) sA).dev.core 0).div1 = some ⟨31, 5#64⟩ := by decide +kernel

def sB : State := run { sregs := [(1, 0xFFFFFFFF#64), (2, 0xFF#64)], vregs := [(31, 0x80#1024)], tiles := 3 }

/-- R95, R97: the special state, its two writable members, a signed byte lane. -/
theorem test_special : Ready sB 0 ∧ (specialState sB 0)[4]? = some 3#64 ∧
    ((aft (.gets site false ⟨31#6, 0#6, 0#6, 4#38⟩) sB).dev.core 0).s 31 = 3#64 ∧
    ((sB.dev.core 0).s 1).toNat < 2 ^ 32 ∧ ((aft (.sets site false ⟨0#6, 1#6, 0#6, 5#38⟩) sB).dev.core 0).padv = 0xFFFFFFFF#32 ∧
    ((sB.dev.core 0).s 2).toNat < 2 ^ 8 ∧ ((aft (.sets site false ⟨0#6, 2#6, 0#6, 6#38⟩) sB).dev.core 0).azp = 0xFF#8 ∧
    ((aft (.movv site false ⟨31#6, 31#6, 0#6, 0#38⟩) sB).dev.core 0).s 31 = BitVec.ofInt 64 (-128) ∧
    ((aft (.movv site false ⟨31#6, 31#6, 0#6, 256#38⟩) sB).dev.core 0).s 31 = 128#64 ∧
    ((aft (.movv site false ⟨31#6, 31#6, 0#6, 256#38⟩) sB).dev.core 0).pend = [(.s 31, 2)] :=
  ⟨ready_of (by decide +kernel), by decide +kernel⟩

/-! ## The vector slot -/

/-- v1 holds 0x7F in every byte, v2 holds 1 in byte 0, v3 FP32 ones, v4 FP32 twos; m1 names lane 0. -/
def ones (b : Nat) : W1024 := BitVec.ofNat 1024 (packLanes 8 (List.replicate 128 b))
def fps (x : Nat) : W1024 := BitVec.ofNat 1024 (packLanes 32 (List.replicate 32 x))
def sV : State := run { vregs := [(1, ones 0x7F), (2, 1#1024), (3, fps 0x3F800000), (4, fps 0x40000000)], mregs := [(1, 1#128)]
                        sregs := [(1, 2#64), (2, 40#64)] }
def vf (vd va vb : BitVec 6) (m : BitVec 4) (t : BitVec 3) (imm : BitVec 24) : VFields := ⟨vd, va, vb, m, t, false, 0#6, imm⟩
def vl (c : Instr) (r w i : Nat) : Nat := lane w (((aft c sV).dev.core 0).v r) i

/-- R100, R101: INT8 127 + 1 wraps, or saturates with IMM 1; a masked lane is kept; FP32 1 + 2. -/
theorem test_lanes : Ready sV 0 ∧ VClear sV 0 (vf 31 1 2 0 0 0) [31] [] ∧ NoPending sV 0 [1] [31] [0] ∧ vl (.vadd site (vf 31 1 2 0 0 0)) 31 8 0 = 0x80 ∧
    vl (.vadd site (vf 31 1 2 0 0 1)) 31 8 0 = 0x7F ∧ vl (.vadd site (vf 3 1 2 1 0 0)) 3 8 1 = 0 ∧
    vl (.vadd site (vf 31 3 4 0 7 0)) 31 32 31 = 0x40400000 ∧ vl (.vmin site (vf 31 3 4 0 7 0)) 31 32 0 = 0x3F800000 ∧
    vl (.vmax site (vf 31 1 2 0 6 0)) 31 32 1 = 0x7F7F7F7F ∧ vl (.vand site (vf 31 1 2 0 0 0)) 31 8 0 = 1 ∧
    vl (.vbcast site ⟨31, 0, 1, 0, 0, true, 0, 0⟩) 31 8 127 = 2 ∧ vl (.vgather site (vf 31 1 2 0 0 0)) 31 8 5 = 0x7F ∧
    vl (.vsel site (vf 31 1 2 1 0 0)) 31 8 1 = 0 ∧ ((aft (.vadd site (vf 31 1 2 0 0 0)) sV).dev.core 0).pend = [(.v 31, 1)] ∧
    ((aft (.vadd site (vf 31 3 4 0 7 0)) sV).dev.core 0).pend = [(.v 31, 3)] := by
  refine ⟨ready_of (by decide +kernel), ?_⟩
  unfold VClear NoPending
  decide +kernel

/-- R101, R102: 1 × 2 + 1; shifts by the whole width; reductions; FP32 to FP16 into quarter 1, FP16's lanes to FP32. -/
theorem test_unary : vl (.vfma site ⟨31, 3, 4, 0, 7, false, 3, 0⟩) 31 32 0 = 0x40400000 ∧ vl (.vshl site (vf 31 1 0 0 0 31)) 31 8 0 = 0 ∧
    vl (.vshr site (vf 31 1 0 0 0 1)) 31 8 0 = 0x3F ∧ vl (.vred site (vf 31 1 0 0 0 0)) 31 8 0 = 0x80 ∧
    vl (.vred site (vf 31 2 0 0 0 1)) 31 8 0 = 1 ∧ vl (.vred site (vf 31 2 0 0 0 2)) 31 8 0 = 0 ∧
    vl (.vred site (vf 31 3 0 0 7 0)) 31 32 0 = 0x42000000 ∧ vl (.vcvt site (vf 31 3 0 0 7 0)) 31 8 0 = 1 ∧
    vl (.vcvt site (vf 31 1 0 0 0 31)) 31 32 0 = 0x42FE0000 := by decide +kernel

/-- R94, R101: compares, mask logic, MGEN at 2 and at 40; m0 takes no value. -/
theorem test_masks : ((aft (.vcmplt site (vf 15 2 1 0 0 0)) sV).dev.core 0).m 15 = BitVec.allOnes 128 ∧
    ((aft (.vcmpeq site (vf 15 3 4 0 7 0)) sV).dev.core 0).m 15 = 0#128 ∧
    ((aft (.mandn site (vf 15 0 1 0 0 0)) sV).dev.core 0).m 15 = ~~~1#128 ∧
    ((aft (.mgen site ⟨15, 0, 1, 0, 0, true, 0, 0⟩) sV).dev.core 0).m 15 = 3#128 ∧
    ((aft (.mgen site ⟨0, 0, 1, 0, 0, true, 0, 0⟩) sV).dev.core 0).m 0 = BitVec.allOnes 128 := by decide +kernel

/-- R103, R104: range finding over 1 and 2, code 1 of range 2 is 2 / 255, and 2 of range 2 is code 255. -/
theorem test_quant : vl (.qrinit site (vf 30 0 0 0 7 0)) 31 32 0 = 0xFF800000 ∧
    (∀ i : Fin 32, f32IsNan (BitVec.ofNat 32 (lane 32 ((sV.dev.core 0).v 3) i.val)) = false) ∧
    vl (.qracc site (vf 30 3 0 0 7 0)) 31 32 7 = 0x3F800000 ∧ vl (.vdeq site (vf 31 2 4 0 7 0)) 31 32 0 = 0x3C008081 ∧
    vl (.vquant site (vf 31 4 4 0 7 24)) 31 8 96 = 255 := by decide +kernel

/-- R101, R118: no plane and no tally is busy; the maximum of tally 7 for row 127; FINISH 4 on it. -/
def sT : State := run { tally := [(7 * 384 + 2 * 128 + 127, 0x40000000#32)], sregs := [(1, 1#64)] }
theorem test_acc_reads : planeReady (sT.dev.core 0) 3 = true ∧ planeTag (sT.dev.core 0) 3 ≠ .grouped ∧ tallyBusy sT.dev 0 7 = false ∧
    lane 32 (((aft (.vrdacc site (vf 31 3 0 0 7 511)) sT).dev.core 0).v 31) 31 = 0 ∧
    lane 32 (((aft (.vrdtal site (vf 31 7 0 0 7 14)) sT).dev.core 0).v 31) 31 = 0x40000000 ∧
    lane 32 (((aft (.finish site ⟨31, 7, 1, 0, 7, true, 0, 28⟩) sT).dev.core 0).v 31) 31 = 0x40000000 := by decide +kernel

/-! ## Loads, stores, stalls -/

def sL : State := run { sregs := [(1, 0x7FFF80#64)], vregs := [(1, ones 0xAB)], mregs := [(1, 2#128)] }
def lf (m : BitVec 4) (g : BitVec 2) : LFields := ⟨1, 1, 0, m, g, 0, 0⟩

/-- R105, R106: the last line of the Satchel, no bank busy; a byte mask stores byte 1 alone. -/
theorem test_loads : (banksOf 0x7FFF80 128 = [30, 31] ∧ sL.dev.arrayBanks 0 = [] ∧ (∀ b ∈ banksOf 0x7FFF80 128, sL.dev.walkerTakes 0 b = false)) ∧
    ((sL.dev.core 0).s 1 + (0#24).signExtend 64).toNat < 0x800000 ∧ free sL 0 [1] = true ∧
    nx (exec (.st site false (lf 1 0)) sL) (fun t => t.dev.mem.rd (satBase 0 + 0x7FFF81) == 0xAB#8 && t.dev.mem.rd (satBase 0 + 0x7FFF80) == 0#8) = true ∧
    nx (exec (.ld site true (lf 0 0)) (aft (.st site false (lf 0 2)) sL)) (fun t => (t.dev.core 0).v 1 == ones 0xAB) = true ∧
    nx (exec (.ldw site false (lf 1 2)) sL) (fun t => lane 32 ((t.dev.core 0).v 1) 1 == 0 && lane 32 ((t.dev.core 0).v 1) 0 == 0xABABABAB) = true := by
  decide +kernel

/-- R118, R129: a bundle that reads a register with a division pending is held and counted. -/
def sP : State := run { sregs := [(1, 5#64)], div0 := some ⟨1, 7#64⟩ }
theorem test_pending : rdy sP 0 = true ∧ 1 ∈ (sP.dev.core 0).pendS ∧ nx (exec (.add site false fR) sP) (fun t =>
    (t.dev.core 0).pc == 0 && t.dev.fld .coreStallIssue [0] 31 0 == 1 && (t.dev.core 0).s 31 == 0#64) = true := by decide +kernel

/-- R106: bank 30 belongs to the second line of a plane load one cycle old; two loads of one bank stall one cycle and then issue. -/
def sBk : State := run { sregs := [(1, 0x7FFF80#64)], totCyc := 1, arrA := { loading := some { addr := 0x7FFF00, fmt := 0, gsize := 0, saddr := 0, chain := false, flag := none, seq := 0 } } }
def ldWord : BitVec 64 := 0x01#8 ++ 2#6 ++ 1#6 ++ 0#6 ++ 0#4 ++ 0#2 ++ 0#8 ++ 0#24
theorem test_banks : 30 ∈ sBk.dev.arrayBanks 0 ∧ lCheck (sBk.dev.core 0) (lf 0 0) 128 = none ∧
    nx (exec (.ld site false (lf 0 0)) sBk) (fun t => (t.dev.core 0).pc == 0 && t.dev.fld .coreStallIssue [0] 31 0 == 1) = true ∧
    nx (exec (.ld ⟨0, [⟨4, ldWord⟩]⟩ false (lf 0 0)) sL) (fun t => (t.dev.core 0).pc == 0 && (t.dev.core 0).bankRetry &&
      nx (exec (.ld ⟨0, [⟨4, ldWord⟩]⟩ false (lf 0 0)) t) (fun u => (u.dev.core 0).pc == 1 && !(u.dev.core 0).bankRetry)) = true := by decide +kernel

/-- R93, R122, R127: register number 32 in S1 ends the task. -/
theorem test_illegal : nx (exec (.add site true ⟨32#6, 1#6, 2#6, 0#38⟩) sA) (fun t => (t.dev.core 0).mode == .aborting &&
    t.dev.rg .coreExc [0] == BitVec.ofNat 32 (4094 * 2 ^ 20 + 2 ^ 8 + 2)) = true := by decide +kernel

/-- R117: both slots of a bundle read the registers as they were at issue: SUB s1, s2, s1 in S1 beside ADD s2, s1, s1. -/
def subWord : BitVec 64 := 0x02#8 ++ 1#6 ++ 2#6 ++ 1#6 ++ 0#38
theorem test_bundle : rdy sA 0 = true ∧ subWord.extractLsb' 56 8 = 0x02#8 ∧ sFields subWord = ⟨1#6, 2#6, 1#6, 0#38⟩ ∧
    nx (exec (.add ⟨0, [⟨1, subWord⟩]⟩ false ⟨2#6, 1#6, 1#6, 0#38⟩) sA) (fun t =>
      (t.dev.core 0).s 2 == 10#64 && (t.dev.core 0).s 1 == BitVec.ofInt 64 (-7)) = true := by decide +kernel

/-! ## Arrays -/

def mf (d sa sb : BitVec 6) (fmt : BitVec 4) (clr : Bool) : MFields := ⟨d, sa, sb, 0, false, fmt, clr, true, 63, 0, 0, 0, false, false⟩
/-- s1: the last plane of the Satchel; s2: one row, row 127; s3: a G8 scale stream with groups of 32 at 0x7000; s4: an offset of 0x8000. -/
def sM : State := run { sregs := [(1, 0x7FC000#64), (2, 0x7F01#64), (3, 0x7000#64), (4, 0x8000#64)], arrA := { pwr := .on, step := 8 } }

/-- R107, R109, R130-R135: the operands are legal, the queue has room; a load and a swap start at once, the flag of the swap is set. -/
theorem test_mload : rdy sM 0 = true ∧ free sM 0 [1, 3] = true ∧ ((sM.dev.core 0).s 1).toNat + planeBytes 0 ≤ 0x800000 ∧
    ((sM.dev.core 0).s 3).toNat = 0 * 2 ^ 24 + 0x7000 ∧ 0x7000 + scaleBytes 8 0 ≤ 0x800000 ∧ ((sM.dev.core 0).arr 1).queue.length < 4 ∧
    nx (exec (.mload site (mf 1 1 0 0 false)) sM) (fun t => ((t.dev.core 0).arr 1).loading.map (·.addr) == some 0x7FC000) = true ∧
    nx (exec (.mload site (mf 0 1 3 8 false)) sM) (fun t => ((t.dev.core 0).arr 0).loading.map (·.saddr) == some 0x7000) = true ∧
    nx (exec (.mswap site (mf 1 0 0 0 false)) sM) (fun t => (t.dev.core 0).f 63) = true ∧
    nx (exec (.mclr site (mf 3 0 0 0 false)) sM) (fun t => (t.dev.core 0).f 63) = true := by decide +kernel

/-- R202: a member of the chain waits for its plane. -/
def sW : State := mk (sM.dev.setFld .coreWchCtl [0] 7 7 1)
theorem test_chain_mload : sW.dev.flag .coreWchCtl [0] 7 = true ∧ nx (exec (.mload site ⟨0, 0, 0, 0, false, 0, false, true, 63, 0, 0, 0, true, false⟩) sW)
    (fun t => ((t.dev.core 0).arr 0).loading.map (·.chain) == some true) = true := by decide +kernel

/-- R107, R137, R138: MRUN and MEPI enter their queue; INT8, a grouped pair, and INT8 with CLR on a plane of the pair. -/
theorem test_mrun : mrunCause sM.dev 0 (mf 0 4 2 0 true) = none ∧ mrunCause sM.dev 0 (mf 0 4 2 8 true) = none ∧ mepiCause sM.dev 0 (mf 3 4 2 0 false) = none ∧
    rowsArg ((sM.dev.core 0).s 2) = some (1, 127) ∧
    nx (exec (.mrun site (mf 0 4 2 0 true)) sM) (fun t => ((t.dev.core 0).arr 0).queue.length == 1 && planeTag (t.dev.core 0) 0 == .integer) = true ∧
    nx (exec (.mrun site (mf 0 4 2 8 true)) sM) (fun t => planeTag (t.dev.core 0) 1 == .grouped) = true ∧
    nx (exec (.mepi site (mf 3 4 2 0 false)) sM) (fun t => ((t.dev.core 0).arr 1).queue.length == 1) = true := by decide +kernel

def sG : State := run { sregs := [(2, 0x7F01#64), (4, 0x8000#64)], arrA := { pwr := .on, step := 8, tag0 := .grouped, tag1 := .grouped } }
theorem test_break_pair : mrunCause sG.dev 0 (mf 0 4 2 0 true) = none ∧ planeTag (sG.dev.core 0) 0 = .grouped ∧
    nx (exec (.mrun site (mf 0 4 2 0 true)) sG) (fun t => planeTag (t.dev.core 0) 1 == .none && planeTag (t.dev.core 0) 0 == .integer) = true ∧
    nx (exec (.mclr site (mf 1 0 0 0 false)) sG) (fun t => planeTag (t.dev.core 0) 0 == .none) = true := by decide +kernel

/-- R109: a fifth operation is held. -/
def sQ : State := run { arrA := { queue := List.replicate 4 (.swap none 0), loading := some ⟨0, 0, 0, 0, false, none, 0, none, 0⟩ } }
theorem test_full_queue : rdy sQ 0 = true ∧ 4 ≤ ((sQ.dev.core 0).arr 0).queue.length ∧ nx (exec (.mswap site (mf 0 0 0 0 false)) sQ) (fun t =>
    (t.dev.core 0).pc == 0 && t.dev.fld .coreStallIssue [0] 31 0 == 1) = true := by decide +kernel

/-- R109, R135: the head of a queue. -/
theorem test_queue_head : ({ queue := [.swap (some 3) 0] } : ArrSt).loading = none ∧
    (drainArr 0 1 { queue := [.swap (some 3) 0], shadow := { gsize := 1 } } []).1.active.gsize = 1 ∧
    (drainArr 0 1 { queue := [.clr 3 false none 0], acc1 := [(0, 1#4096)] } []).1.acc1 = [] ∧
    ({ queue := [.clr 3 false none 0] } : ArrSt).busyPlane 1 = false := by decide +kernel

/-- One row of 128 ones against a plane of ones in column 0. -/
def rOp : RunOp := ⟨0, 0, 1, 127, 0, false, 0, true, some 5, BitVec.allOnes 128, 0, 0, 0, false, 0⟩
def eOp : EpiOp := ⟨0, 0x8000, 1, 127, some 6, 0, 0, .integer, 1⟩
def lOp : LoadOp := ⟨0, 0, 0, 0, false, some 7, 0, none, 0⟩
def sE (a : ArrSt) : State := mk { (run { sregs := [], arrA := a }).dev with mem := { cells := [(satBase 0, 3#8), (satBase 0 + 0x8000, 9#8)] } }

/-- R134-R139, R154, R164: each event of array A at a state that meets its conditions. -/
theorem test_array_events :
    headForwards (sE { loading := some lOp }).dev 0 0 = false ∧
    nx (exec (.mloadComplete 0 0) (sE { loading := some lOp })) (fun t => (t.dev.core 0).f 7 && ((t.dev.core 0).arr 0).shadow.el 0 0 0 == 3) = true ∧
    (sE { pwr := .on, queue := [.run rOp] }).dev.arraysHeld = false ∧
    nx (exec (.mrunStreamStart 0 0) (sE { pwr := .on, queue := [.run rOp] })) (fun t => ((t.dev.core 0).arr 0).runs.length == 1) = true ∧
    rOp.normTallies (sE { pwr := .on, queue := [.run rOp] }).dev 0 = [] ∧ spansMeet lOp.spans (eOp.spans (sE {}).dev 0) = false ∧
    nx (exec (.mrunComplete 0 0) (sE { runs := [⟨rOp, { fmt := some 0, lines := [(0, 3#1024)] }, [[2]], 0, 0, 0, 1, []⟩] })) (fun t =>
      (t.dev.core 0).f 5 && accEl (spGet 0#4096 ((t.dev.core 0).arr 0).acc0 127) 0 == 6#32) = true ∧
    nx (exec (.mepiStart 0 0) (sE { queue := [.epi eOp] })) (fun t => ((t.dev.core 0).arr 0).epis.length == 1) = true ∧
    eOp.tallies (sE {}).dev 0 = [] ∧
    nx (exec (.mepiComplete 0 0) (sE { epis := [⟨eOp, [(127, 5#4096)], [], 0, 0, 512, [], []⟩] })) (fun t =>
      (t.dev.core 0).f 6 && t.dev.mem.rd (satBase 0 + 0x8000) == 5#8) = true := by decide +kernel

/-- R143, R145: a column that reaches the largest sum, and one that passes it. -/
theorem test_column : (intCol rOp [(1, 1)] 0#32).1 = 1#32 ∧ (intCol { rOp with clr := false } [(1, 1)] 0x7FFFFFFE#32) = (0x7FFFFFFF#32, 0#8) ∧
    (intCol { rOp with clr := false } [(1, 1)] 0x7FFFFFFF#32) = (0x7FFFFFFF#32, nfAsat) ∧
    (intCol { rOp with clr := false } [(255, 1)] 0x80000000#32) = (0x80000000#32, nfAsat) := by decide +kernel

/-- R202-R205: slot 0 passes a plane on to slot 1 while it is no member; a member gives it to its load. -/
def cOp : LoadOp := ⟨0, 0, 0, 0, true, some 7, 0, none, 0⟩
def sC (on : Nat) : State := mk { ((sE { loading := some cOp }).dev.setFld .coreWchCtl [0] 7 0 (on * 128 + 1)) with chainFly := [(3, {}), (0, { fmt := some 0 })] }
theorem test_chain : takeFly 0 (sC 0).dev.chainFly = some ({ fmt := some 0 }, [(3, {})]) ∧ (sC 0).dev.flag .coreWchCtl [0] 7 = false ∧
    nx (exec (.chainPlaneArrive 0) (sC 0)) (fun t => t.dev.chainFly == [(3, {}), (1, { fmt := some 0 })]) = true ∧
    (sC 1).dev.flag .coreWchCtl [0] 7 = true ∧ nextChainLoad ((sC 1).dev.core 0) = some 0 ∧
    nx (exec (.chainPlaneArrive 0) (sC 1)) (fun t => (((t.dev.core 0).arr 0).loading.bind (·.got)).isSome && t.dev.chainFly.length == 2) = true := by
  decide +kernel

/-- R152-R155: the ramps of an array; one stopped after its first step down is on when granted. -/
theorem test_ramps :
    nx (exec .rampGrant (mk { (sE { waitsGrant := true, pwr := .down, step := 8 }).dev with rampReq := [(7, 0, 0)] })) (fun t => ((t.dev.core 0).arr 0).pwr == .on) = true ∧
    nx (exec (.arrayIdleRampDown 0 0) (sE { pwr := .on, step := 8, idle := 1024 })) (fun t => ((t.dev.core 0).arr 0).pwr == .down) = true ∧
    nx (exec (.arrayRampDownStep 0 0) (sE { pwr := .down, step := 2 })) (fun t => ((t.dev.core 0).arr 0).pwr == .down) = true ∧
    nx (exec (.arrayRampDownStep 0 0) (sE { pwr := .down, step := 1 })) (fun t => ((t.dev.core 0).arr 0).pwr == .gated) = true ∧
    nx (exec (.arrayRampUpStep 0 0) (sE { pwr := .up, step := 6 })) (fun t => ((t.dev.core 0).arr 0).pwr == .up) = true ∧
    nx (exec (.arrayRampUpStep 0 0) (sE { pwr := .up, step := 7 })) (fun t => ((t.dev.core 0).arr 0).pwr == .on) = true ∧
    (mk { (sE { waitsGrant := true }).dev with rampReq := [(7, 0, 0)] }).dev.liveRamps = [(7, 0, 0)] ∧
    nx (exec .rampGrant (mk { (sE { waitsGrant := true }).dev with rampReq := [(7, 0, 0)] })) (fun t => ((t.dev.core 0).arr 0).pwr == .up && t.dev.rampReq == []) = true ∧
    nx (exec (.haloCounterClear 0) (mk ((sE {}).dev.setRg .coreHaloRdyUp [0] 5#32))) (fun t => t.dev.rg .coreHaloRdyUp [0] == 0#32) = true := by
  decide +kernel

/-! ## Movement and control -/

def xf (sd sa sb flag : BitVec 6) (w c : BitVec 2) : XFields := ⟨sd, sa, sb, flag, w, c, false, 0, 0⟩
/-- s1: the window's first word, s2: its last, s3: 7. -/
def sX : State := run { sregs := [(1, 0x810000000#64), (2, 0x8100FFFF8#64), (3, 7#64), (4, 0x1000#64)] }

/-- R110-R112, R183: WALK takes a write of class 0 and a read of class R in tile 0; FSET 63; FENCE with and without an atomic outstanding. -/
theorem test_movement : rdy sX 0 = true ∧ free sX 0 [4, 3] = true ∧ (sX.dev.core 0).tiles = 0 ∧
    nx (exec (.walk site (xf 0 4 3 63 2 0)) sX) (fun t => (t.dev.core 0).wk2.map (·.released) == [false]) = true ∧
    nx (exec (.walk site (xf 0 4 3 63 1 2)) sX) (fun t => (t.dev.core 0).resident.length == 1 && (t.dev.core 0).wk1.length == 1) = true ∧
    nx (exec (.walk site (xf 0 4 3 63 0 1)) sX) (fun t => (t.dev.core 0).nextDescs.length == 1) = true ∧
    nx (exec (.fset site (xf 0 0 0 63 0 0)) sX) (fun t => (t.dev.core 0).f 63) = true ∧
    nx (exec (.fence site (xf 0 0 0 0 0 0)) sX) (fun t => (t.dev.core 0).pc == 1) = true ∧
    nx (exec (.fence site (xf 0 0 0 0 0 0)) (aft (.aadd site (xf 5 2 3 0 0 0)) sX)) (fun t => (t.dev.core 0).pc == 1) = true ∧
    nx (exec (.awatch site (xf 0 2 3 63 0 0)) sX) (fun t => (t.dev.core 0).watches == [⟨0xFFFF8, 7#64, 63⟩]) = true := by decide +kernel

/-- R86, R110, R258: AADD on the window's last word: 7 is added, the old 0 comes back; performed again under its key, the word stays. -/
def sY : State := aft (.aadd site (xf 5 2 3 0 0 0)) sX
def sZ : State := aft (.atomicPerform 0) sY
theorem test_atomics : ((sY.dev.core 0).atomics.map (·.off)) = [0xFFFF8] ∧ sY.dev.com.find 0 0 0 = none ∧ sY.dev.poison = [] ∧
    leNat (sZ.dev.mem.rdN (0x800000000 + 0xFFFF8) 8) = 7 ∧ sZ.dev.com.find 0 0 0 = some 0#64 ∧
    nx (exec (.atomicComplete 0) sZ) (fun t => (t.dev.core 0).atomics == [] && (t.dev.core 0).s 5 == 0#64) = true ∧
    nx (exec (.atomicPerform 0) (mk (sZ.dev.modCore 0 (fun c => { c with atomics := (sY.dev.core 0).atomics })))) (fun t =>
      leNat (t.dev.mem.rdN (0x800000000 + 0xFFFF8) 8) == 7 && (t.dev.core 0).atomics.map (·.result) == [some 0#64]) = true ∧
    nx (exec (.awatchFire 0 0) (mk (sZ.dev.modCore 0 (fun c => { c with watches := [⟨0xFFFF8, 7#64, 63⟩] })))) (fun t =>
      (t.dev.core 0).f 63 && (t.dev.core 0).watches == []) = true ∧
    nx (exec (.awatchFire 0 0) (mk (sZ.dev.modCore 0 (fun c => { c with watches := [⟨0xFFFF8, 8#64, 63⟩] })))) (fun t => !(t.dev.core 0).f 63) = true := by
  decide +kernel

/-- Each data atomic may issue. -/
theorem test_atomics_issue : free sX 0 [1, 3, 5] = true ∧ (sX.dev.core 0).nAtomics < 16 ∧
    nx (exec (.take site (xf 5 1 0 0 0 0)) sX) (fun t => (t.dev.core 0).atomics.length == 1) = true ∧
    nx (exec (.ald site (xf 5 1 0 0 0 0)) sX) (fun t => (t.dev.core 0).atomics.length == 1) = true ∧
    nx (exec (.ast site (xf 0 1 3 0 0 0)) sX) (fun t => (t.dev.core 0).atomics.length == 1) = true ∧
    nx (exec (.acas site (xf 5 1 3 0 0 0)) sX) (fun t => (t.dev.core 0).atomics.length == 1) = true := by decide +kernel

def cf (sd sa sb flag : BitVec 6) (clr : Bool) (pl : BitVec 4) (op tg : BitVec 12) : CFields := ⟨sd, sa, sb, flag, clr, pl, 0, op, tg⟩
def sJ : State := run { sregs := [(1, 4095#64), (2, 4096#64)], pc := 7, flags := 1#64 <<< 63 }

/-- R113, R114: branches taken and not, a link, JR to the last bundle and beyond it. -/
theorem test_branches : rdy sJ 0 = true ∧ (sJ.dev.core 0).delay = none ∧
    nx (exec (.jmp site (cf 0 0 0 0 false 0 0 4095)) sJ) (fun t => (t.dev.core 0).pc == 8 && (t.dev.core 0).delay == some 4095) = true ∧
    nx (exec (.jal site (cf 31 0 0 0 false 0 0 3)) sJ) (fun t => (t.dev.core 0).s 31 == 9#64) = true ∧
    nx (exec (.jr site (cf 0 1 0 0 false 0 0 0)) sJ) (fun t => (t.dev.core 0).delay == some 4095) = true ∧
    nx (exec (.jr site (cf 0 2 0 0 false 0 0 0)) sJ) (fun t => t.dev.fld .coreExc [0] 7 0 == Cause.pcRange.code) = true ∧
    nx (exec (.blt site (cf 0 1 2 0 false 0 0 3)) sJ) (fun t => (t.dev.core 0).delay == some 3) = true ∧
    nx (exec (.beq site (cf 0 1 2 0 false 0 0 3)) sJ) (fun t => (t.dev.core 0).delay == some 9) = true := by decide +kernel

/-- R115, R122: WAITF on a set flag with CLR and on a clear one; WAITA on ready planes and on a busy one; TRAP 255. -/
def sWt : State := run { arrA := { queue := [.epi eOp] } }
theorem test_waits :
    nx (exec (.waitf site (cf 0 0 0 63 true 0 0 0)) sJ) (fun t => (t.dev.core 0).pc == 8 && !(t.dev.core 0).f 63) = true ∧
    nx (exec (.waitf site (cf 0 0 0 62 true 0 0 0)) sJ) (fun t => (t.dev.core 0).pc == 7 && t.dev.fld .coreStallWait [0] 31 0 == 1) = true ∧
    (∀ k : Fin 4, planeReady (sJ.dev.core 0) k.val = true) ∧ planeReady (sWt.dev.core 0) 0 = false ∧
    nx (exec (.waita site (cf 0 0 0 0 false 15 0 0)) sJ) (fun t => (t.dev.core 0).pc == 8) = true ∧
    nx (exec (.waita site (cf 0 0 0 0 false 1 0 0)) sWt) (fun t => (t.dev.core 0).pc == 0) = true ∧
    nx (exec (.trap site (cf 0 0 0 0 false 0 255 0)) sJ) (fun t =>
      t.dev.rg .coreExc [0] == BitVec.ofNat 32 (7 * 2 ^ 20 + 255 * 2 ^ 11 + 7 * 2 ^ 8 + 10)) = true := by decide +kernel

/-- R83, R84, R89: TILE and END of a quiet core, and of one with an atomic outstanding. -/
def sTi : State := run { wk2 := [xf0], vregs := [(1, 1#1024)], sregs := [(1, 5#64)], pc := 9 }
theorem test_tile : rdy sTi 0 = true ∧ (sTi.dev.core 0).quiet = true ∧ (sTi.dev.core 0).delay = none ∧
    nx (exec (.tile site (cf 0 0 0 0 false 0 0 0)) sTi) (fun t => (t.dev.core 0).vregs == [] && (t.dev.core 0).ckpt.pc == 10 &&
      (t.dev.core 0).wk2.all (·.released) && (t.dev.core 0).ckpt.sregs == [(1, 5#64)]) = true ∧
    nx (exec (.end_ site (cf 0 0 0 0 false 0 0 0)) sTi) (fun t => (t.dev.core 0).ended && (t.dev.core 0).wk2.all (·.released)) = true ∧
    (sY.dev.core 0).quiet = false ∧ nx (exec (.tile site (cf 0 0 0 0 false 0 0 0)) sY) (fun t => (t.dev.core 0).pc == 1) = true := by
  decide +kernel

/-- R252-R255: slot 0 arrives at device barrier 1023; alone in the mask it is let pass; a staged mask is applied once nothing is pending. -/
def bF : CFields := cf 0 0 0 0 false 0 (BitVec.ofNat 12 2047) 0
def sBa : State := mk ((run {}).dev.setFld .ttBarDev [] 5 0 1)
def sBb : State := aft (.barrier site bF) sBa
def sBc : State := aft (.barrierRelease 1 1023 0) sBb
theorem test_barrier : rdy sBa 0 = true ∧ sBa.dev.logicalOf 0 < 6 ∧ bit sBa.dev.barMask (sBa.dev.logicalOf 0) = true ∧
    sBb.dev.bar.arr = [⟨1, 1023, 0, 0, false, false⟩] ∧ (sBb.dev.core 0).pc = 0 ∧ sBb.dev.arrivedAt 1 1023 (sBb.dev.slotOf 0) = true ∧
    sBc.dev.bar.arr.map (·.released) = [true] ∧
    nx (exec (.barrier site bF) sBc) (fun t => (t.dev.core 0).pc == 1 && t.dev.bar.arr == [] && (t.dev.core 0).barIdx == 1) = true ∧
    nx (exec .dismissHoldExpire (mk { sBa.dev with bar := { hold := [5] } })) (fun t => t.dev.bar.hold == []) = true ∧
    (mk { sBa.dev with bar := { stage := some 3 } }).dev.barPending = false ∧
    nx (exec .barrierMaskApply (mk { sBa.dev with bar := { stage := some 3 } })) (fun t => t.dev.barMask == 3 && t.dev.bar.stage == none) = true := by
  decide +kernel

/-- R85, R88: the watchdog at its limit and one cycle before it; a re-run goes on. -/
theorem test_watchdog : nx (exec (.tileWatchdog 0) (run { tileCyc := 19200 })) (fun t => (t.dev.core 0).abort == some 0x20#8) = true ∧
    nx (exec (.tileWatchdog 0) (run { tileCyc := 19199 })) (fun t => (t.dev.core 0).abort == none) = true ∧
    nx (exec (.tileRerunResume 0) (mk (Dev.reset.setCore 0 { mode := .rerun, reloading := true, ckpt := { next := [⟨0, { xf0 with flag := some 63 }⟩] } }))) (fun t =>
      !(t.dev.core 0).reloading && (t.dev.core 0).f 63) = true := by decide +kernel

/-- R196, R199, R200: an empty transfer completes; a transfer of no words faults; a silent remote one runs out of time. -/
theorem test_walker : nx (exec (.walkerTransferComplete 0 2) (run { wk2 := [{ xf0 with started := true, empty := true, flag := some 63 }] })) (fun t =>
      (t.dev.core 0).f 63 && (t.dev.core 0).wk2 == []) = true ∧
    nx (exec (.walkerTransferStart 0 1) (run { wk1 := [{ xf0 with released := true, cls := 2 }] })) (fun t => (t.dev.core 0).abort == some 0x10#8 &&
      t.dev.fld .coreWlkFault [0] 31 24 == 4) = true ∧
    nx (exec (.remoteTimeout 0 0) (run { wk0 := [{ xf0 with started := true, remote := true, sent := [(1, 1)] }] })) (fun t =>
      (t.dev.core 0).abort == some 0x10#8 && t.dev.fld .coreWlkFault [0] 31 24 == 0x0B) = true := by decide +kernel

/-- R188, R196: a read of 16 bytes: MODE 0, local, from Commons to the Satchel. -/
def dWords : List W32 := [0#32, 8#32, 0x100#32, 0#32, 0x00100010#32, 0x00010001#32, 0x00010001#32, 0x00010001#32, 0x00010001#32,
  0#32, 0#32, 0#32, 0#32, 0#32, 0#32, 0#32]
def sRd : State := mk { (run { wk0 := [{ xf0 with words := dWords, released := true, flag := some 9 }] }).dev with mem := { cells := [(0x80000000F, 7#8)] } }
def sRs : State := aft (.walkerTransferStart 0 0) sRd
theorem test_walker_read : (sRs.dev.core 0).wk0.map (fun x => (x.started, x.remote, x.empty, x.sent.length)) = [(true, false, false, 0)] ∧
    sRs.dev.poison = [] ∧ nx (exec (.walkerTransferComplete 0 0) sRs) (fun t => t.dev.mem.rd (satBase 0 + 0x10F) == 7#8 && (t.dev.core 0).f 9 &&
      t.dev.fld .coreWlkRdblk [0] 31 0 == 1) = true := by decide +kernel

/-! ## Registers, windows, rings, tasks -/

/-- R13, R16, R17, R40: PWR_DROOP's RWL bits before and after SYS_LOCK; an RO and a W1C bit of CHN_STAT; the last offset of the space. -/
theorem test_register_write : Reg.pwrDroop ∉ effectRegs ∧ regAt (regOff .pwrDroop []) = some (.pwrDroop, []) ∧ Dev.reset.stop = none ∧
    wrote (.registerWrite (regOff .pwrDroop []) 0xFFFFFFFA#32) Dev.reset .pwrDroop [] = 10 ∧
    wrote (.registerWrite (regOff .pwrDroop []) 0xA#32) (Dev.reset.setFld .sysLock [] 0 0 1) .pwrDroop [] = 5 ∧
    wrote (.registerWrite (regOff .chnStat []) 0x04000000#32) (Dev.reset.setRg .chnStat [] 0x07800000#32) .chnStat [] = 0x03800000 ∧
    regAt 0xFFFFFFC = none ∧ nx (exec (.registerWrite 0xFFFFFFC 1#32) State.reset) (fun t => t.dev.regs == []) = true ∧
    nx (exec .sysLockSet State.reset) (fun t => t.dev.locked) = true := by decide +kernel

/-- R13, R17, R18, R128, R293: a read of SYS_ID's block, of a hole, two words, a part of a word written, the latched counts. -/
theorem test_register_read : dSv.pci.d3hot = false ∧ 2 ≤ dSv.stage ∧ Reg.pwrDroop ∉ liveRegs ∧ regOff .pwrDroop [] % 4 = 0 ∧
    (aft (.hostRead 0 (regOff .pwrDroop []) 4) (mk dSv)).dev.rd.data = [5#8, 0#8, 0#8, 0#8] ∧
    (aft (.hostRead 0 0xFFFFFFC 4) (mk dSv)).dev.rd.data = [0#8, 0#8, 0#8, 0#8] ∧
    (aft (.hostRead 0 (regOff .pwrDroop [] + 1) 3) (mk dSv)).dev.rd.data = [0#8, 0#8, 0#8] ∧
    wrote (.hostWrite 0 (regOff .pwrDroop []) [7#8, 0#8, 0#8, 0#8] false) dSv .pwrDroop [] = 7 ∧
    wrote (.hostWrite 0 (regOff .pwrDroop []) [7#8, 0#8, 0#8] false) dSv .pwrDroop [] = 5 ∧
    nx (exec (.cyclesLatchRead 6) (mk (dSv.modCore 6 (fun c => { c with totCyc := 2 ^ 32 + 7 })))) (fun t =>
      t.dev.rd.data == [7#8, 0#8, 0#8, 0#8] && t.dev.rg .coreCyclesHi [6] == 1#32) = true ∧
    nx (exec .timebaseLatchRead (mk { dSv with tb := 3 * 2 ^ 32 + 1 })) (fun t => t.dev.rd.data == [1#8, 0#8, 0#8, 0#8] &&
      t.dev.rg .capTbNowHi [] == 3#32) = true := by decide +kernel

/-- R43, R425, R428, R430: the last bytes of Commons through BAR4; EP; D3hot. -/
theorem test_windows : dSv.stage = 5 ∧ dSv.poison = [] ∧
    nx (exec (.hostWrite 4 0xFFFFFA [1#8, 2#8, 3#8, 4#8, 5#8, 6#8] false) (mk dSv)) (fun t =>
      t.dev.mem.rdN 0x800FFFFF9 7 == [0#8, 1#8, 2#8, 3#8, 4#8, 5#8, 6#8] &&
      nx (exec (.hostRead 4 0xFFFFFE 2) t) (fun u => u.dev.rd.data == [5#8, 6#8] && !u.dev.rd.ep)) = true ∧
    nx (exec (.hostWrite 4 0 [1#8] true) (mk dSv)) (fun t => t.dev.fld .pciErr [] 23 16 == 1 && t.dev.mem.cells == []) = true ∧
    nx (exec (.hostRead 4 0 4) (mk { dSv with pci := { d3hot := true } })) (fun t => t.dev.fld .pciErr [] 7 0 == 1 && t.dev.rd.data == []) = true ∧
    wrote (.hostWrite 4 0 [1#8] false) ({ dSv with pci := { d3hot := true } } : Dev) .pciErr [] = 1 := by decide +kernel

/-- R426: BAR2 of 256 MiB with BASE 3, and of 16 GiB. -/
def sB2 : State := mk ((({ dSv with pci := { bar2Log := 28 }, mem := { cells := [(0x30000005, 9#8)] } } : Dev).setRg .pciBar2Base [] 3#32).setFld .memGctl [] 31 31 1)
theorem test_bar2 : nx (exec (.hostRead 2 5 1) sB2) (fun t => t.dev.rd.data == [9#8]) = true ∧
    nx (exec (.hostRead 2 0x30000005 1) (mk { sB2.dev with pci := { bar2Log := 34 } })) (fun t => t.dev.rd.data == [9#8]) = true ∧
    nx (exec (.bar2Resize 28) State.reset) (fun t => t.dev.pci.bar2Log == 28) = true := by decide +kernel

/-- R151, R401: WCH_CTL of a running core waits; of an idle one it lands. -/
def oWch : Nat := regOff .coreWchCtl [0]
theorem test_held : regAt oWch = some (.coreWchCtl, [0]) ∧ heldReg .coreWchCtl = true ∧ 0x1000000 ≤ oWch ∧ oWch < 0x1800000 ∧
    nx (exec (.registerWrite oWch 3#32) (run {})) (fun t => (t.dev.core 0).held == [(oWch, 3#32)] && t.dev.rg .coreWchCtl [0] == 7#32) = true ∧
    nx (exec (.heldWriteApply 0) (run { held := [(oWch, 3#32)] })) (fun t => (t.dev.core 0).held == [(oWch, 3#32)]) = true ∧
    nx (exec (.heldWriteApply 0) (mk (Dev.reset.setCore 0 { held := [(oWch, 3#32)] }))) (fun t => (t.dev.core 0).held == [] &&
      t.dev.rg .coreWchCtl [0] == 3#32) = true := by decide +kernel

def cfgW : W32 := 0x80440000#32
/-- R246, R268: sizes 4, 12 and 3; disabling; a counter; TT_CTL.EN. -/
theorem test_ring_control : bits cfgW.toNat 23 20 = 4 ∧ bits cfgW.toNat 19 16 = 4 ∧ bit cfgW.toNat 30 = false ∧ ringOn Dev.reset 15 = false ∧
    nx (exec (.ringEnable 15 cfgW) State.reset) (fun t => ringOn t.dev 15 && t.dev.ring 15 == { cmdPh := true, cplPh := true }) = true ∧
    nx (exec (.ringEnable 15 0x80CC0000#32) State.reset) (fun t => ringOn t.dev 15 && cplLog t.dev 15 == 12) = true ∧
    nx (exec (.ringEnable 15 0x80340000#32) State.reset) (fun t => !ringOn t.dev 15 && t.dev.flag .ttRingStat [15] 31) = true ∧
    nx (exec (.ringDisable 15) (aft (.ringEnable 15 cfgW) State.reset)) (fun t => !ringOn t.dev 15 && cmdLog t.dev 15 == 4) = true ∧
    nx (exec (.counterWrite 127 0xFFFFFF#24) State.reset) (fun t => t.dev.fld .ttCnt [127] 23 0 == 0xFFFFFF) = true ∧
    nx (exec (.ttEnable true) State.reset) (fun t => t.dev.flag .ttCtl [] 0) = true := by decide +kernel

/-- A new record at index 0 of ring 15, whose header lies at 0x1000 in host memory. -/
def dRg : Dev := ((aft (.ringEnable 15 cfgW) (mk ({ Dev.reset with pci := { busMaster := true } } : Dev))).dev.setRg .ttCmdBaseLo [15] 0x1000#32).setRg .ttCtl [] 1#32
def rTask : List Byte := bytes 64 [(0, 1#8), (1, 1#8), (4, 0xAA#8), (8, 1#8), (9, 0x10#8), (15, 0x85#8)]
/-- R241, R242: the record is taken, CMD_CONSUMED counts it; with polling off only the submitter's bytes arrive. -/
theorem test_ring_poll : rTask.length = 64 ∧ dRg.flag .ttCtl [] 0 = true ∧ dRg.flt.mario = none ∧ dRg.flt.recEn = false ∧ dRg.tt.fetched = [] ∧
    ringOn dRg 15 = true ∧ (∀ m : Fin 16, m ≠ 15 → ringOn dRg m.val = false) ∧ ringLoc dRg 15 = false ∧ dRg.master = true ∧ dRg.entriesUsed < 1024 ∧
    nx (exec (.ringPoll (hcells 0x1040 rTask)) (mk dRg)) (fun t => t.dev.tt.fetched == [(15, rTask)] && (t.dev.ring 15).cmdIdx == 1 &&
      rdCells 0#8 t.dev.hostMem 0x1000 8 == [1#8, 0#8, 0#8, 0#8, 0#8, 0#8, 0#8, 0#8]) = true ∧
    nx (exec (.ringPoll [(0x1008, 3#8)]) (mk dRg)) (fun t => t.dev.tt.fetched == [] && (t.dev.ring 15).consumed == 3) = true ∧
    nx (exec (.ringPoll (hcells 0x1040 rTask)) (mk (dRg.setRg .ttCtl [] 0#32))) (fun t => t.dev.tt.fetched == [] &&
      rdCells 0#8 t.dev.hostMem 0x1040 64 == rTask) = true := by decide +kernel

/-- R244, R245: good and broken records of each kind; TASK without a core breaks a rule, LOAD of no bytes, MARK with a core. -/
def sFe (r : List Byte) : State := mk { Dev.reset with tt := { fetched := [(15, r)] } }
def rLoad (n : Byte) : List Byte := bytes 64 [(0, 2#8), (8, 1#8), (9, 0x10#8), (33, 0x10#8), (36, 8#8), (40, n)]
def rMark (c : Byte) : List Byte := bytes 64 [(0, 3#8), (8, c), (9, 0x10#8)]
theorem test_records : recordOk Dev.reset rTask = true ∧ recordOk Dev.reset (rLoad 64) = true ∧ recordOk Dev.reset (rMark 0) = true ∧
    recordOk Dev.reset (bytes 64 [(0, 1#8)]) = false ∧ recordOk Dev.reset (rLoad 0) = false ∧ recordOk Dev.reset (rMark 1) = false ∧
    Dev.reset.entry Dev.reset.freeIndex = none ∧ (parseEntry 15 0 (rLoad 0)).cpl = true ∧ (parseEntry 15 0 (bytes 64 [(0, 1#8)])).cpl = false ∧
    nx (exec (.task 15 rTask) (sFe rTask)) (fun t => t.dev.tt.entries == [(0, parseEntry 15 0 rTask)] && t.dev.tt.fetched == []) = true ∧
    nx (exec (.load 15 (rLoad 64)) (sFe (rLoad 64))) (fun t => t.dev.tt.entries.map (fun e => e.2.arg1) == [64]) = true ∧
    nx (exec (.mark 15 (rMark 1)) (sFe (rMark 1))) (fun t => t.dev.tt.finish == [0] && t.dev.tt.entries.map (fun e => e.2.status) == [0x15#8]) = true ∧
    nx (exec (.task 15 (bytes 64 [(0, 1#8)])) (sFe (bytes 64 [(0, 1#8)]))) (fun t => t.dev.tt.entries == []) = true := by decide +kernel

/-- An entry of ring 15 for core 0 with tag 0xAA and signal to counter 5. -/
def eT : TEntry := { parseEntry 15 0 rTask with start := 4095, arg0 := 7, jobId := 9 }
def sDi : State := mk { Dev.reset.setRg .ttCtl [] 1#32 with tt := { entries := [(1023, eT)] } }
def dSpread : Dev := { sDi.dev with tt := { entries := [(0, { eT with spread := true, cores := 63 })] } }
/-- R246, R247: the task starts on core 0 at its START with its arguments; a SPREAD entry with a busy core waits. -/
theorem test_dispatch : sDi.dev.flag .ttCtl [] 0 = true ∧ sDi.dev.order = [(1023, eT)] ∧ sDi.dev.entry 1023 = some eT ∧ eT.spread = false ∧
    bit eT.cores 0 = true ∧ sDi.dev.idleCore 0 = true ∧ sDi.dev.loadBlocks eT.seq 0 = false ∧ sDi.dev.slotOf 0 = 0 ∧
    nx (exec .taskDispatch sDi) (fun t => decide ((t.dev.core 0).mode = .running) && (t.dev.core 0).pc == 4095 && (t.dev.core 0).s 1 == 7#64 &&
      (t.dev.core 0).s 5 == 1023#64 && (t.dev.core 0).jobId == 9) = true ∧
    nx (exec .taskDispatch (mk (dSpread.modCore 5 (fun c => ({ c with mode := .running } : CoreSt))))) (fun t => t.dev.tt.holding == [0] && t.dev.tt.entries.map (fun e => e.2.live) == [[]]) = true ∧
    nx (exec .taskDispatch (mk (sDi.dev.setRg .ttCtl [] 0#32))) (fun t => decide ((t.dev.core 0).mode = .idle)) = true := by decide +kernel

/-- R248, R249: a load of 64 bytes into bundle 0 of core 0; a mark that waits for counter 127. -/
def eL : TEntry := parseEntry 15 0 (rLoad 64)
def eM : TEntry := parseEntry 15 0 (rMark 0)
def sTT (e : TEntry) : State := mk { Dev.reset.setRg .ttCtl [] 1#32 with tt := { entries := [(1023, e)] }, mem := { cells := [(0x80000103F, 7#8)] } }
theorem test_loads_marks : eL.waitsOk (sTT eL).dev = true ∧ (sTT eL).dev.idleCore 0 = true ∧ eL.arg0 = 0x800001000 ∧ eL.cfg = 0 ∧ eL.cpl = true ∧
    eM.waitsOk (sTT eM).dev = true ∧ TEntry.waitsOk { eM with waits := [(127, 1)] } (sTT eM).dev = false ∧
    nx (exec .loadStart (sTT eL)) (fun t => t.dev.tt.entries.all (fun e => decide (e.2.phase = .running))) = true ∧
    nx (exec (.loadComplete 1023) (sTT { eL with phase := .running })) (fun t => t.dev.mem.rd 0x90080003F == 7#8 && t.dev.tt.finish == [1023]) = true ∧
    nx (exec .markComplete (sTT eM)) (fun t => t.dev.tt.finish == [1023]) = true ∧
    nx (exec .markComplete (sTT { eM with waits := [(127, 1)] })) (fun t => t.dev.tt.finish == []) = true := by decide +kernel

/-- R250: an instance that ended well, one that aborted, one with a transfer outstanding. -/
def sTc (c : CoreSt) : State := mk { Dev.reset.setCore 0 { c with mode := .running, ended := true, entry := 1023 } with tt := { entries := [(1023, { eT with phase := .running, live := [0], ran := 1 })] } }
theorem test_task_complete : (sTc {}).dev.logicalOf 0 = 0 ∧
    nx (exec (.taskComplete 0) (sTc {})) (fun t => decide ((t.dev.core 0).mode = .idle) && t.dev.tt.entries.map (fun e => e.2.status) == [0#8] &&
      t.dev.tt.finish == [1023]) = true ∧
    aborting 0x10#8 = true ∧
    nx (exec (.taskComplete 0) (sTc { abort := some 0x10#8, nflags := 5#8 })) (fun t => t.dev.tt.entries.map (fun e => (e.2.status, e.2.nflags)) == [(0x10#8, 5#8)]) = true ∧
    nx (exec (.taskComplete 0) (sTc { wk2 := [xf0] })) (fun t => t.dev.tt.finish == []) = true := by decide +kernel

/-- R245, R246, R251: the record of entry 1023 of ring 15, whose completion ring lies at 0x2000; the counter and the vector. -/
def dCw : Dev := ((((({ dRg with tt := { dRg.tt with entries := [(1023, { eT with phase := .finished, status := 3#8, done := 0x12345678, irq := true, signal := some 5 })], finish := [1023] } } : Dev).setRg .ttCplBaseLo [15]
  0x2000#32).setRg .ttRingIrq [15] 0x803F0000#32).setRg .ttCnt [5] 0xFFFFFF#32))
theorem test_completion : dCw.cplFull 15 = false ∧ ringLoc dCw 15 = false ∧ dCw.master = true ∧ dCw.flag .ttRingIrq [15] 31 = true ∧ dCw.pci.msixEn = false ∧
    nx (exec (.completionRecordWrite 15) (mk dCw)) (fun t => rdCells 0#8 t.dev.hostMem 0x2000 16 ==
        [3#8, 1#8, 0#8, 0#8, 0xAA#8, 0#8, 0#8, 0#8, 9#8, 0#8, 15#8, 0#8, 0x78#8, 0x56#8, 0x34#8, 0x12#8] &&
      t.dev.fld .ttCnt [5] 23 0 == 0 && t.dev.tt.entries == [] && (t.dev.ring 15).cplIdx == 1 && t.dev.pci.pba == 1#64 <<< 63) = true ∧
    nx (exec (.completionRecordWrite 15) (mk { dCw with pci := { dCw.pci with msixEn := true, msixTab := spSet 1#32 [] 255 0#32 } })) (fun t => t.dev.pci.msgs == [63]) = true ∧
    nx (exec (.completionRecordWrite 15) (mk (dCw.setRing 15 { dCw.ring 15 with written := 16 }))) (fun t => t.dev.tt.finish == [1023]) = true ∧
    nx (exec (.irqModerationTimeout 15) (mk (dCw.setRing 15 { dCw.ring 15 with timer := true, unsig := 2 }))) (fun t => (t.dev.ring 15).unsig == 0 &&
      t.dev.pci.pba == 1#64 <<< 63) = true := by decide +kernel

/-- R257, R259: signed and unsigned minimum on the last Commons word; LR, SC with and without its reservation. -/
def aW : Nat := 0x800FFFFF8
def sSc : State := mk { Dev.reset with mem := { cells := [(aW, 5#8)] } }
def amo (op : AmoOp) (v : W64) : Nat := leNat ((aft (.staffCoreAmo 8 op true aW v) sSc).dev.mem.rdN aW 8)
theorem test_staff : aW % 8 = 0 ∧ aW + 8 = 0x801000000 ∧ amo .swap 9#64 = 9 ∧ amo .add 0xFFFFFFFFFFFFFFFF#64 = 4 ∧ amo .xor 4#64 = 1 ∧ amo .and 4#64 = 4 ∧
    amo .or 2#64 = 7 ∧ amo .min 0xFFFFFFFFFFFFFFFF#64 = 0xFFFFFFFFFFFFFFFF ∧ amo .max 0xFFFFFFFFFFFFFFFF#64 = 5 ∧ amo .minu 0xFFFFFFFFFFFFFFFF#64 = 5 ∧
    amo .maxu 0xFFFFFFFFFFFFFFFF#64 = 0xFFFFFFFFFFFFFFFF ∧
    nx (exec (.staffCoreLr 8 true aW) sSc) (fun t => t.dev.com.resv == [(8, 0x800FFFFC0)] &&
      nx (exec (.staffCoreSc 8 true aW 6#64) t) (fun u => leNat (u.dev.mem.rdN aW 8) == 6 && u.dev.com.resv == []) &&
      nx (exec (.staffCoreAmo 0 .or true aW 0#64) t) (fun u => u.dev.com.resv == [])) = true ∧
    nx (exec (.staffCoreSc 8 true aW 6#64) sSc) (fun t => leNat (t.dev.mem.rdN aW 8) == 5) = true := by decide +kernel

/-- R260-R264: requests of 1 and 16 beats, a stalled port, withdrawals, a grant, a lost cycle, the bench, a revoked hall pass, the mode change. -/
def sAr (a : Arb) : State := { State.reset with arbs := State.reset.arbs.set 83 a }
def rq (q c n : Nat) : ArbReq := { req := q, cls := c, beats := n }
def arbOf (c : Instr) (a : Arb) : Arb := (aft c (sAr a)).arbs[83]
def up : ArbView := { up := true }
def dA : Dev := { Dev.reset with now := 10000 }
def sAr2 (a : Arb) : State := { sAr a with dev := dA }
theorem test_arbiters : Dev.reset.recess = true ∧ dA.recess = false ∧
    arbOf (.arbiterRequest 83 7 3 (.transfer 16 false)) { clock := 4 } = { clock := 4, stall := [{ req := 7, cls := 3, beats := 16, age := 4 }] } ∧
    arbOf (.arbiterRequest 83 7 3 (.transfer 1 true)) { stall := [rq 7 3 16] } = { stall := [rq 7 3 16] } ∧
    arbOf (.arbiterRequest 83 7 3 .withdraw) { stall := [rq 7 3 16] } = {} ∧
    arbOf (.arbiterGrant 83) { stall := [{ rq 7 3 16 with gone := some 1 }], h4 := true, clock := 2 } = { h4 := true, clock := 3, seen := up } ∧
    arbOf (.arbiterGrant 83) { stall := [rq 7 1 16] } = { holder := some (rq 7 1 16), clock := 1, seen := up } ∧
    arbOf (.arbiterGrant 83) { stall := [rq 7 1 16], h4 := true, clock := 1 } = { stall := [rq 7 1 16], h4 := true, clock := 2, seen := up } ∧
    arbOf (.arbiterGrant 83) { stall := [rq 7 1 16], h4 := true, clock := 2 } = { holder := some (rq 7 1 16), h4 := true, clock := 3, seen := up } ∧
    arbOf (.arbiterGrant 83) { holder := some (rq 7 1 1) } = { clock := 1, seen := up } ∧
    ((aft (.arbiterGrant 83) (sAr2 { stall := [rq 7 2 1, rq 6 2 1] })).arbs[83] = { holder := some (rq 6 2 1), bench := [rq 7 2 1], clock := 1 }) ∧
    ((aft (.arbiterGrant 83) (sAr2 { holder := some (rq 7 1 3), stall := [rq 6 2 1] })).arbs[83] =
      { holder := some (rq 6 2 1), bench := [{ rq 7 1 3 with moved := 1 }], clock := 1 }) ∧
    arbOf (.arbiterGrant 83) { holder := some (rq 7 1 3) } = { holder := some { rq 7 1 3 with moved := 1 }, clock := 1, seen := up } ∧
    arbOf (.arbiterGrant 83) { holder := some (rq 7 1 3), stall := [{ rq 6 3 1 with gone := some 1 }], h4 := true, clock := 2, seen := up } =
      { bench := [{ rq 7 1 3 with moved := 1 }], h4 := true, clock := 3, seen := up } ∧
    arbGroup 83 = 2 ∧
    nx (exec (.arbModeChange 2) { sAr {} with dev := Dev.reset.setRg .ttArbCtl [] 4#32 }) (fun t => t.arbs[83].h4 && !t.arbs[0].h4) = true ∧
    nx (exec (.arbModeChange 2) { sAr { holder := some (rq 7 1 3) } with dev := Dev.reset.setRg .ttArbCtl [] 4#32 }) (fun t => !t.arbs[83].h4) = true := by
  decide +kernel

/-- The invariant holds where a bench is full, and its premise is met there. -/
theorem test_bounded : arbOk { holder := some (rq 0 0 16), bench := [rq 1 0 1, rq 1 0 1, rq 2 0 1, rq 2 0 1] } = true ∧
    arbOk { bench := [rq 1 0 1, rq 1 0 1, rq 1 0 1] } = false ∧ (∀ i : Fin 84, arbOk State.reset.arbs[i] = true) := by decide +kernel

/-- R322, R323: a holder whose write queue is full parks; the beat its port has accepted in this cycle has moved. -/
def sFull (took : Option Nat) : State :=
  { State.reset with
    arbs := State.reset.arbs.set 64 { holder := some { req := 9, cls := 1, beats := 2, write := true } }
    dev := Dev.reset.setChan 0 { wq := (upto 64).map (fun i => { blk := 64 * i, mask := 1, req := 9, cls := 1, at_ := 0 }), took := took } }
theorem test_arbiter_full : ((aft (.arbiterGrant 64) (sFull none)).arbs[64].bench.map (·.moved)) = [0] ∧
    ((aft (.arbiterGrant 64) (sFull (some 0))).arbs[64].bench.map (·.moved)) = [1] := by decide +kernel

/-! ## Capture, codecs, Easel, Primer -/

def xCp : StreamSt := { kind := 0, loc := true, recLog := 4, bsLog := 4, nbuf := 2, width := 4, height := 2, rate := 30000, bufBytes := 0x1000
                        pool := 0x800100000, recRing := 0x800010000, bsRing := 0x800020000, param := 0x800030000, stats := 0x800040000 }
/-- Stream 15 on port 3, virtual channel 15, RAW8; `vc` is added to its configuration. -/
def dCp (x : StreamSt) (vc : Nat) : Dev := (({ Dev.reset with tb := 77, med := { streams := [(15, x)] } } : Dev).setFld .capPortCfg [3] 31 31 1).setRg .capVcCfg [15]
  (BitVec.ofNat 32 (2 ^ 31 + 3 * 2 ^ 29 + vc + 4 * 2 ^ 24 + 15 * 2 ^ 20 + 0x2A * 2 ^ 14))
def fCp : CapFrame := { fid := 0, ts := 77, no := 9, dt := 0x2A, port := 3, buf := 1 }
def byp : Nat := 2 ^ 27

/-- R274-R276: a frame opens in the first free buffer; without one it is dropped; a bad header; short and damaged lines; the end. -/
theorem test_capture : portOn (dCp xCp byp) 3 = true ∧ streamsAt (dCp xCp byp) 3 15 = [15] ∧ vcSync (dCp xCp byp) 15 = 4 ∧ vcByp (dCp xCp byp) 15 = true ∧
    (dCp xCp byp).freeBuf 15 xCp = some 0 ∧ (dCp { xCp with nbuf := 0 } byp).freeBuf 15 { xCp with nbuf := 0 } = none ∧
    nx (exec (.csiFrameStart 3 15 9#16 0 false) (mk (dCp xCp byp))) (fun t => (t.dev.stream 15).any (fun y => decide (y.frame = some { fCp with buf := 0 }) && y.fids == 1)) = true ∧
    wrote (.csiFrameStart 3 15 9#16 0 false) (dCp { xCp with nbuf := 0 } byp) .capVcStat [15] = 2 ^ 12 ∧
    wrote (.csiFrameStart 3 15 9#16 2 true) (dCp xCp byp) .capPortErr [3] = 2 ^ 8 ∧ vcDt (dCp xCp byp) 15 = 0x2A ∧
    nx (exec (.csiLinePacket 3 15 0x2A#6 0 false false [5#8, 6#8, 7#8, 8#8]) (mk (dCp { xCp with frame := some fCp } byp))) (fun t =>
      (t.dev.stream 15).any (fun y => y.frame.any (fun g => g.lines == [[5, 6, 7, 8]] && g.flags == 0#8))) = true ∧
    nx (exec (.csiLinePacket 3 15 0x2A#6 0 true false [5#8]) (mk (dCp { xCp with frame := some fCp } byp))) (fun t =>
      (t.dev.stream 15).any (fun y => y.frame.any (fun g => g.lines == [[5, 5, 5, 5]] && g.flags == 3#8)) && t.dev.fld .capPortErr [3] 23 16 == 1) = true ∧
    vcByp (dCp xCp 0) 15 = false ∧
    nx (exec (.csiFrameEnd 3 15 0 false) (mk (dCp { xCp with frame := some { fCp with lines := [[1, 2, 3, 4]] } } 0))) (fun t =>
      t.dev.med.pipes[0].queue.map (fun e => (e.1, e.2.lines, e.2.flags)) == [(15, [[1, 2, 3, 4], [1, 2, 3, 4]], 2#8)]) = true := by decide +kernel

/-- R273, R293: 80 and 4,500 Mb/s, 79, lane code 3; a stream with and without an open capture stream; counts cleared, CFGERR kept. -/
def vW : W32 := BitVec.ofNat 32 (2 ^ 31 + 3 * 2 ^ 29 + byp + 4 * 2 ^ 24 + 15 * 2 ^ 20 + 0x2A * 2 ^ 14)
theorem test_capture_control :
    nx (exec (.portEnable 3 0x80000050#32) State.reset) (fun t => portOn t.dev 3) = true ∧
    nx (exec (.portEnable 3 0x80021194#32) State.reset) (fun t => portOn t.dev 3) = true ∧
    nx (exec (.portEnable 3 0x8000004F#32) State.reset) (fun t => !portOn t.dev 3 && t.dev.flag .capPortErr [3] 30) = true ∧
    nx (exec (.portEnable 3 0x80031194#32) State.reset) (fun t => !portOn t.dev 3 && t.dev.flag .capPortErr [3] 30) = true ∧
    nx (exec (.streamEnable 15 vW) State.reset) (fun t => !vcOn t.dev 15 && t.dev.flag .capPortErr [3] 30) = true ∧
    nx (exec (.streamEnable 15 vW) (mk { Dev.reset with med := { streams := [(15, xCp)] } })) (fun t => vcOn t.dev 15 && vcVc t.dev 15 == 15) = true ∧
    wrote (.portErrClear 3) (Dev.reset.setRg .capPortErr [3] 0x40FFFFFF#32) .capPortErr [3] = 0x40000000 ∧
    wrote (.vcStatClear 15) (Dev.reset.setRg .capVcStat [15] 0x40FFFFFF#32) .capVcStat [15] = 0x40000000 := by decide +kernel

/-- R277, R278: 1,000,001 ns behind steps, 1 us ahead slews and locks, an early edge, a load pending and at once, holdover, TB_10M. -/
def dTb (t : Nat) : Dev := ({ Dev.reset with tb := t } : Dev).setFld .capTbCtl [] 1 0 2
theorem test_timebase : tbSrc (dTb 0) = 2 ∧ tbSrc Dev.reset < 2 ∧
    nx (exec .ppsEdge (mk (dTb 1998999999))) (fun t => t.dev.tb == 2000000000 && t.dev.fld .capTbCtl [] 15 8 == 1) = true ∧
    nx (exec .ppsEdge (mk (dTb 1999000000))) (fun t => t.dev.tb == 1999000000 && decide (t.dev.med.tbSlew = -1000000)) = true ∧
    nx (exec .ppsEdge (mk (dTb 2000001000))) (fun t => decide (t.dev.med.tbSlew = 1000) && t.dev.flag .capTbCtl [] 31) = true ∧
    nx (exec .ppsEdge (mk { dTb 2000001000 with now := 998999999, med := { lastPps := some 0 } })) (fun t => t.dev.med.tbSlew == 0) = true ∧
    nx (exec .ppsEdge (mk (((dTb 5).setFld .capTbCtl [] 2 2 1).setRg .capTbSet [] 3#32))) (fun t => t.dev.tb == 3000000000 && !t.dev.flag .capTbCtl [] 2) = true ∧
    nx (exec .ppsHoldover (mk (dTb 5))) (fun t => t.dev.flag .capTbCtl [] 30 && !t.dev.flag .capTbCtl [] 31) = true ∧
    nx (exec .timebaseLoad (mk (Dev.reset.setRg .capTbSet [] 3#32))) (fun t => t.dev.tb == 3000000000) = true ∧
    nx (exec .timebaseLoad (mk (dTb 5))) (fun t => t.dev.tb == 5 && t.dev.flag .capTbCtl [] 2) = true ∧
    nx (exec .tb10mLock (mk (Dev.reset.setFld .capTbCtl [] 1 0 1))) (fun t => t.dev.flag .capTbCtl [] 31) = true := by decide +kernel

/-- R279, R280: an edge opens output 3's window; at its end stream 15 has missed for the third time. -/
def dFs (x : StreamSt) : Dev := ({ dCp x byp with med := { streams := [(15, x)], fsync := (Vector.replicate 4 {}).set 3 { edge := some 1, window := true } } } : Dev).setFld .capVcCfg [15] 26 24 3
theorem test_fsync : nx (exec (.fsyncEdge 3) (mk (Dev.reset.setRg .capFsyncCfg [3] 0x80000400#32))) (fun t =>
      t.dev.med.fsync[3] == { edge := some 0, due := some 33333000, window := true }) = true ∧
    nx (exec (.fsyncEdge 3) State.reset) (fun t => t.dev.med.fsync[3] == {}) = true ∧
    (∀ j : Fin 16, (vcOn (dFs xCp) j.val = true ∧ vcSync (dFs xCp) j.val = 3 ↔ j.val = 15)) ∧
    nx (exec (.triggerWindowEnd 3) (mk (dFs { xCp with bad := 2 }))) (fun t => t.dev.flag .capVcStat [15] 30 && !t.dev.med.fsync[3].window) = true ∧
    nx (exec (.triggerWindowEnd 3) (mk (dFs { xCp with bad := 1 }))) (fun t => !t.dev.flag .capVcStat [15] 30 && (t.dev.stream 15).any (fun y => y.bad == 2)) = true := by
  decide +kernel

/-- R270, R282: pipeline 1 takes 16 lines of 17; a frame whose lines are all taken is recorded as the record 0. -/
def dPi (f : CapFrame) (x : StreamSt) : Dev := { dCp x 0 with med := { streams := [(15, x)], pipes := (Vector.replicate 2 {}).set 1 { queue := [(15, f)] } } }
def fDone : CapFrame := { fCp with lines := [[], []], done := 2, block := List.replicate 2176 0#8, flags := 2#8 }
theorem test_pipeline : (∀ j : Fin 16, j ≠ 15 → vcOn (dPi fCp xCp) j.val = false) ∧
    nx (exec (.ispLineGroup 1) (mk (dPi { fCp with lines := List.replicate 17 [1, 2, 3, 4] } xCp))) (fun t => t.dev.med.pipes[1].queue.map (·.2.done) == [16]) = true ∧
    (∀ a : Fin 16, (dPi fDone xCp).asmOn a.val = false) ∧ fDone.lines.length ≤ fDone.done ∧
    nx (exec (.ispFrameComplete 1) (mk (dPi { fDone with lines := [] } { xCp with width := 0, height := 0, bufs := [{ ix := 1 }] }))) (fun t =>
      t.dev.med.pipes[1].queue == [] && t.dev.loadNat 0x800010000 8 == 1 &&
      t.dev.mem.rdN 0x800010040 11 == [77#8, 0#8, 0#8, 0#8, 0#8, 0#8, 0#8, 0#8, 15#8, 2#8, 0#8] && t.dev.fld .ispPipeStat [1] 15 0 == 1 &&
      (t.dev.stream 15).any (fun y => y.recCount == 1 && y.bufs.all (fun b => !b.busy))) = true := by decide +kernel

/-- R284: a JPEG stream in slot 143; its one new entry; a header that fits, one that is too wide; EOS. -/
def xJp : StreamSt := { xCp with kind := 2, loc := false, bsRing := 0x5000, width := 4, height := 2, bufBytes := 0x1000, nbuf := 2, engine := 6 }
def eJp : List Byte := bytes 32 [(0, 1#8), (1, 1#8), (4, 9#8), (16, 5#8)]
def eEos : List Byte := bytes 32 [(0, 2#8), (1, 1#8)]
def hJp : SeqHeader := ⟨4, 2, 0, .jpegBaseline, 8, 0, []⟩
def dJp (x : StreamSt) : Dev := { Dev.reset with tb := 77, med := { streams := [(143, x)] }, pci := { busMaster := true } }
theorem test_bitstream : (dJp xJp).master = true ∧ bsEntryOk (dJp xJp) false eJp = true ∧ hdrOk xJp hJp = true ∧ hdrOk xJp { hJp with width := 5 } = false ∧ hdrOk xJp { hJp with depth := 10 } = false ∧
    nx (exec (.bitstreamPoll (hcells 0x5040 eJp)) (mk (dJp xJp))) (fun t => (t.dev.stream 143).any (fun y => decide (y.entries = [{ bytes := eJp, ts := 77 }]) && y.bsCount == 1) &&
      rdCells 0#8 t.dev.hostMem 0x5000 2 == [1#8, 0#8]) = true ∧
    nx (exec (.data 143 eJp ⟨some hJp, true⟩) (mk (dJp { xJp with entries := [{ bytes := eJp, ts := 77 }] }))) (fun t => (t.dev.stream 143).any (fun y =>
      y.queue.length == 1 && decide (y.hdr = some hJp))) = true ∧
    nx (exec (.data 143 eJp ⟨some { hJp with width := 5 }, true⟩) (mk (dJp { xJp with entries := [{ bytes := eJp, ts := 77 }] }))) (fun t =>
      (t.dev.stream 143).any (fun y => y.recCount == 1 && y.entries == [] && y.queue == [])) = true ∧
    nx (exec (.eos 143 eEos) (mk (dJp { xJp with entries := [{ bytes := eEos, ts := 77 }] }))) (fun t => (t.dev.stream 143).any (fun y => y.entries == [])) = true := by
  decide +kernel

/-- R285, R308: a picture starts in buffer 0, ends and waits, or is output with its record. -/
def pJp : PicSt := { fid := 3, ts := 77, pts := 5, buf := 1, fmt := 0, w := 4, h := 2 }
theorem test_pictures : (dJp xJp).freeBuf 143 xJp = some 0 ∧ (∀ a : Fin 16, (dJp xJp).asmOn a.val = false) ∧
    nx (exec (.pictureDecodeStart 143 ⟨0, []⟩) (mk (dJp { xJp with queue := [{ bytes := eJp, ts := 77, hdr := some hJp }] }))) (fun t => (t.dev.stream 143).any (fun y =>
      decide (y.cur = some { pJp with fid := 0, buf := 0 }) && y.queue == [])) = true ∧
    nx (exec (.pictureDecodeComplete 143 1000 ⟨[⟨.incomplete, []⟩], 0, []⟩ [] 2 0 []) (mk (dJp { xJp with cur := some pJp }))) (fun t => (t.dev.stream 143).any (fun y =>
      decide (y.pics = [{ pJp with ns := 1000, conceal := true, order := 2 }])) && t.dev.fld .vidEngStat [6] 15 0 == 1) = true ∧
    nx (exec (.pictureDecodeComplete 143 1000 {} [9#8] 0 1 []) (mk (dJp { xJp with cur := some pJp, bufs := [{ ix := 1 }] }))) (fun t =>
      t.dev.loadNat 0x800010000 8 == 1 && t.dev.mem.rdN 0x800010048 3 == [143#8, 0#8, 0#8] && t.dev.mem.rdN 0x800010052 8 == [3#8, 0#8, 0xE8#8, 3#8, 0#8, 0#8, 0#8, 0x10#8] &&
      t.dev.mem.rd 0x800101000 == 9#8) = true := by decide +kernel

/-- R290, R437: an encoder takes an entry; a unit of 2 bytes ends the area. -/
def xEn : EncSt := { format := 0, profile := 0, rc := 0, width := 64, height := 64, rate := 30000, kbps := 0, gop := 1, qp := 20, inLog := 4, outLog := 4, outLen := 0x100
                     out := 0x800060000, palette := 0, inRing := 0x800050000, entryRing := 0x800070000, engine := 5 }
def eEn : List Byte := bytes 32 [(0, 1#8), (1, 1#8), (12, 8#8), (16, 64#8)]
def dEn (x : EncSt) : Dev := { (Dev.reset.store 0x800050040 eEn) with med := { encs := [(31, x)] } }
theorem test_encoder : (dEn xEn).mem.rdN 0x800050040 32 = eEn ∧ encEntryOk (dEn xEn) xEn eEn = true ∧
    nx (exec (.encodeInput 31) (mk (dEn xEn))) (fun t => (t.dev.enc 31).any (fun y => y.jobs == [{ entry := eEn }] && y.inCount == 1) && t.dev.loadNat 0x800050000 8 == 1) = true ∧
    nx (exec (.encodeInput 31) (mk (dEn { xEn with inIdx := 1 }))) (fun t => (t.dev.enc 31).any (fun y => y.jobs == [])) = true ∧
    nx (exec (.accessUnitComplete 31 [1#8, 2#8]) (mk (dEn { xEn with jobs := [{ entry := eEn }], outPos := 0xFE }))) (fun t => 
      (t.dev.enc 31).any (fun y => y.jobs == [] && y.outPos == 0x100 && y.entCount == 1) && t.dev.fld .vidEngStat [5] 15 0 == 1) = true := by decide +kernel

/-- A block: batches of 2 UINT8 pixels in two buffers at 0x800020000, records at 0x800030000, counter 5 as signal. -/
def bAs : List Byte := bytes 128 [(0, 2#8), (2, 1#8), (3, 2#8), (4, 1#8), (6, 1#8), (8, 2#8), (10, 0x85#8), (12, 100#8), (18, 2#8), (20, 8#8), (24, 128#8), (28, 16#8),
  (66, 3#8), (68, 8#8), (72, 4#8)]
/-- The block of assembler 15 lies at 0x800010000. -/
def dAs (b : List Byte) : Dev := ((Dev.reset.store 0x800010000 b).setRg .easelAsmBaseHi [15] 8#32).setRg .easelAsmBaseLo [15] 0x00010000#32

/-- R295, R296, R310, R316: a good block, one of batch 0, an enabled assembler; disabling; clearing; a group's configuration. -/
theorem test_assembler : hiLo ((dAs bAs).rg .easelAsmBaseHi [15]) ((dAs bAs).rg .easelAsmBaseLo [15]) = 0x800010000 ∧
    (dAs bAs).reach 0x800010000 128 = true ∧ asmBlockOk (dAs bAs) bAs = true ∧ asmBlockOk (dAs bAs) (0#8 :: bAs.drop 1) = false ∧
    nx (exec (.assemblerEnable 15) (mk (dAs bAs))) (fun t => t.dev.asmOn 15 && (t.dev.asm 15).blk == bAs) = true ∧
    nx (exec (.assemblerEnable 15) (mk (dAs (0#8 :: bAs.drop 1)))) (fun t => !t.dev.asmOn 15 && t.dev.flag .easelAsmCtl [15] 30) = true ∧
    nx (exec (.assemblerEnable 15) (mk (Dev.reset.setFld .easelAsmCtl [15] 31 31 1))) (fun t => (t.dev.asm 15).blk == []) = true ∧
    nx (exec (.assemblerDisable 15) (mk (Dev.reset.setFld .easelAsmCtl [15] 31 31 1))) (fun t => !t.dev.asmOn 15) = true ∧
    wrote (.asmStatClear 15) (Dev.reset.setRg .easelAsmStat [15] 0x01020003#32) .easelAsmStat [15] = 0 ∧
    wrote (.groupConfigWrite 15 0xFFFFFFFF#32) Dev.reset .easelGrpCfg [15] = 0x8007FFFF := by decide +kernel

def gAs : ERegion := ⟨0, 0, 1, 1, 0, 0, 0, 0, 0x3C00, 0, 0, 0x3C00, false⟩
def smp : ESample := { id := 7, stream := 9, region := 0, fid := 4, buf := 0, ts := 50, reg := gAs, ready := true, addr := 0x800100000, fmt := 4, w := 1, h := 1, pitch := 128 }
def zAs : ESlot := { st := .reserved, smp := some smp }
def eb (age : Nat) : EBind := { asm := 15, group := none, member := 0, rlog := 4, maxAge := age, recipe := 0, dflt := 0 }
def dSm (a : AsmSt) (age tb : Nat) : Dev := { Dev.reset with
  tb := tb, med := { easel := { asms := (Vector.replicate 16 {}).set 15 a, binds := [(9, .bound (eb age))] } } }
def aOne (z : ESlot) : AsmSt := { blk := bAs, next := 1, batches := [{ num := 0, opened := 50, slots := [z] }] }

/-- R302, R303, R307: the one ready sample; 1,001 ns old where 1 us is allowed, and just in time; the conversion ends. -/
theorem test_convert : (dSm (aOne zAs) 0 60).converting = none ∧ workOf (dSm (aOne zAs) 0 60) (aOne zAs) = some (0, 0) ∧
    (∀ b : Fin 16, b ≠ 15 → workOf (dSm (aOne zAs) 0 60) ((dSm (aOne zAs) 0 60).asm b) = none) ∧
    nx (exec .sampleConvert (mk (dSm (aOne zAs) 0 60))) (fun t => decide ((t.dev.asm 15).slotAt 0 0 = some { zAs with st := .converting })) = true ∧
    nx (exec .sampleConvert (mk (dSm (aOne zAs) 1 1050))) (fun t => decide ((t.dev.asm 15).slotAt 0 0 = some { zAs with st := .converting })) = true ∧
    nx (exec .sampleConvert (mk (dSm (aOne zAs) 1 1051))) (fun t => decide ((t.dev.asm 15).slotAt 0 0 = some { zAs with st := .absent, stale := true }) &&
      t.dev.fld .easelAsmStat [15] 15 0 == 1 && t.dev.mem.rdN 0x800030040 5 == [2#8, 1#8, 0x30#8, 9#8, 7#8]) = true ∧
    (dSm (aOne { zAs with st := .converting }) 0 60).converting = some (15, 0, 0) ∧
    nx (exec .sampleConvertComplete (mk (dSm (aOne { zAs with st := .converting }) 0 60))) (fun t => decide ((t.dev.asm 15).slotAt 0 0 = some { zAs with st := .converted })) = true := by
  decide +kernel

def zWait : ESlot := { st := .reserved, smp := some { smp with ready := false } }
def zConv : ESlot := { zAs with st := .converted }
def aTwo (c : Bool) (z w : ESlot) : AsmSt := { aOne z with batches := [{ num := 0, opened := 50, slots := [z, w], closed := c }] }
/-- R304-R306: a budget that runs out with one slot unready and one not reserved; a full batch's record and counter. -/
theorem test_batch :
    nx (exec (.batchBudgetExpire 15) (mk (dSm (aOne zWait) 0 60))) (fun t => (t.dev.asm 15).batches.map (fun b => (b.closed, b.expired, b.slots.map (fun z => decide (z.st = .absent)))) ==
      [(true, true, [true, true])] && decide ((t.dev.asm 15).carried = [{ smp with ready := false, carried := true }])) = true ∧
    nx (exec (.batchBudgetExpire 15) (mk (dSm (aTwo true zAs zConv) 0 60))) (fun t => decide ((t.dev.asm 15).batches.map (·.slots) = [[zAs, zConv]])) = true ∧
    asmFull (dSm (aTwo true zConv zConv) 0 60) (aTwo true zConv zConv) = false ∧ bufFree (dSm (aTwo true zConv zConv) 0 60) (aTwo true zConv zConv) 0 = true ∧
    nx (exec (.batchComplete 15) (mk (dSm (aTwo true zConv zConv) 0 60))) (fun t => (t.dev.asm 15).batches.length == 0 && t.dev.fld .ttCnt [5] 23 0 == 1 &&
      t.dev.mem.rdN 0x800030040 16 == [1#8, 1#8, 0#8, 2#8, 0#8, 0#8, 0#8, 0#8, 0#8, 0#8, 2#8, 0#8, 8#8, 0#8, 0#8, 0#8]) = true ∧
    nx (exec (.batchComplete 15) (mk (dSm (aTwo false zConv zConv) 0 60))) (fun t => (t.dev.asm 15).batches.length == 1) = true := by decide +kernel

def xLt : StreamSt := { xCp with kind := 2, cur := some { fid := 4, ts := 50, pts := 0, buf := 0, fmt := 4, w := 1, h := 1 }, avgN := 8 }
def dLt (a : AsmSt) (x : StreamSt) : Dev := { Dev.reset with
  med := { streams := [(143, x)], easel := { asms := (Vector.replicate 16 {}).set 15 a } } }
def setOf (m : List Nat) : ESet := { group := 3, key := 50, trig := false, asm := 15, batch := 0, base := 0, n := 2, members := m }
def dSet (m : List Nat) (drop : Nat) : Dev := ({ dSm (aTwo true zAs zWait) 0 60 with
  med := { easel := { asms := (Vector.replicate 16 {}).set 15 (aTwo true zAs zWait), sets := [setOf m] } } } : Dev).setFld .easelGrpCfg [3] 31 31 drop
/-- R308, R309: late after 8 timed pictures, not before; a set with every member, one short of member 1, one dropped. -/
theorem test_late : nx (exec (.lateDecode 143) (mk (dLt (aOne { zAs with smp := some { smp with stream := 143 } }) xLt))) (fun t =>
      (t.dev.stream 143).any (fun y => y.cur.any (·.late)) && (t.dev.asm 15).held.all (·.late) && (t.dev.asm 15).held.length == 1) = true ∧
    nx (exec (.lateDecode 143) (mk (dLt (aOne zAs) { xLt with avgN := 7 }))) (fun t => (t.dev.stream 143).any (fun y => y.cur.any (fun p => !p.late))) = true ∧
    nx (exec (.groupSetClose 3) (mk (dSet [0, 1] 0))) (fun t => t.dev.med.easel.sets.length == 0 && decide ((t.dev.asm 15).slotAt 0 1 = some zWait)) = true ∧
    nx (exec (.groupSetClose 3) (mk (dSet [0] 0))) (fun t => ((t.dev.asm 15).slotAt 0 1).any (fun z => decide (z.st = .absent)) &&
      ((t.dev.asm 15).slotAt 0 0).any (fun z => z.smp.any (·.partial_) && decide (z.st = .reserved))) = true ∧
    nx (exec (.groupSetClose 3) (mk (dSet [0] 1))) (fun t => ((t.dev.asm 15).slotAt 0 0).any (fun z => decide (z.st = .absent))) = true := by decide +kernel

/-- Primer's block at 0x800010000: jobs at 0x800020000, completions at 0x800030000, dictionary 0 at 0x800040000. -/
def bPr : List Byte := bytes 64 [(2, 2#8), (4, 8#8), (10, 3#8), (12, 8#8), (16, 0x44#8), (26, 4#8), (28, 8#8)]
/-- A job: the text byte at 0x800050000, tokens to 0x800060000. -/
def rPr : List Byte := bytes 64 [(0, 1#8), (1, 1#8), (4, 0xAB#8), (10, 5#8), (12, 8#8), (16, 1#8), (20, 1#8), (26, 6#8), (28, 8#8)]
/-- Dictionary: two nodes at 0x800041000, one edge at 0x800042000; byte tokens from 100. -/
def hDi : List Byte := bytes 40 [(0, 0x1E#8), (1, 0x7C#8), (4, 2#8), (8, 1#8), (12, 100#8), (25, 0x10#8), (26, 4#8), (28, 8#8), (33, 0x20#8), (34, 4#8), (36, 8#8)]
def dPr (n : Byte) (p : PrimSt) : Dev := { (((((((Dev.reset.store 0x800010000 bPr).store 0x800020040 rPr).store 0x800040000 hDi).store 0x800041000
  (bytes 32 [(0, 0xFF#8), (1, 0xFF#8), (2, 0xFF#8), (3, 0xFF#8), (8, n), (16, 77#8)])).store 0x800042000 [0x41#8, 0#8, 0#8, 0#8, 1#8]).store 0x800050000 [0x41#8]).setRg
    .primBaseHi [] 8#32).setRg .primBaseLo [] 0x00010000#32 with med := { prim := p } }
def pPr : PrimSt := { blk := bPr }
def dPo (n : Byte) (p : PrimSt) : Dev := (dPr n p).setFld .primCtl [] 31 31 1
def dictOf : Dict := ⟨2, 1, 100, 0, 0, 0x800041000, 0x800042000⟩

def okIs (x : Except DictErr (Nat × Nat × Nat)) (y : Nat × Nat × Nat) : Bool := match x with
  | .ok z => z == y
  | .error _ => false
def errIs (x : Except DictErr (Nat × Nat × Nat)) (e : DictErr) : Bool := match x with
  | .ok _ => false
  | .error f => f == e
/-- R311, R312, R314, R317: enable on a good block and a bad one; a poll; a job of one byte without and with an edge; a broken one; the record. -/
theorem test_primer : primOn (dPr 0 {}) = false ∧ (dPr 0 {}).reach 0x800010000 64 = true ∧ primBlockOk (dPr 0 {}) bPr = true ∧
    nx (exec .primerEnable (mk (dPr 0 {}))) (fun t => primOn t.dev && t.dev.med.prim.blk == bPr) = true ∧
    primBlockOk Dev.reset (List.replicate 64 0#8) = false ∧
    nx (exec .primerEnable State.reset) (fun t => !primOn t.dev && t.dev.flag .primCtl [] 30) = true ∧
    nx (exec .primerPoll (mk (dPo 0 pPr))) (fun t => t.dev.med.prim.jobs == [rPr] && t.dev.med.prim.jobCount == 1 && t.dev.loadNat 0x800020000 8 == 1) = true ∧
    jobOk (dPo 0 pPr) pPr rPr = true ∧ readDict (dPo 0 pPr) 0x800040000 = some dictOf ∧ okIs (readNode (dPo 0 pPr) dictOf 0) (0xFFFFFFFF, 0, 0) = true ∧
    nx (exec (.tokenise rPr) (mk (dPo 0 { pPr with jobs := [rPr] }))) (fun t => t.dev.mem.rdN 0x800060000 4 == [0xA5#8, 0#8, 0#8, 0#8] &&
      decide (t.dev.med.prim.cur = some (rPr, ⟨0#8, false, false, 1, 1⟩))) = true ∧
    okIs (readNode (dPo 1 pPr) dictOf 0) (0xFFFFFFFF, 0, 1) = true ∧ okIs (readNode (dPo 1 pPr) dictOf 1) (77, 0, 0) = true ∧
    nx (exec (.tokenise rPr) (mk (dPo 1 { pPr with jobs := [rPr] }))) (fun t => t.dev.mem.rdN 0x800060000 4 == [77#8, 0#8, 0#8, 0#8]) = true ∧
    nx (exec (.tokenise []) (mk (dPo 0 { pPr with jobs := [[]] }))) (fun t => decide (t.dev.med.prim.cur = some ([], ⟨0x15#8, false, false, 0, 0⟩))) = true ∧
    nx (exec .tokeniseComplete (mk (dPo 0 { pPr with cur := some (rPr, ⟨0#8, true, true, 1, 2⟩) }))) (fun t =>
      t.dev.mem.rdN 0x800030000 16 == [0#8, 1#8, 3#8, 0#8, 0xAB#8, 0#8, 0#8, 0#8, 1#8, 0#8, 0#8, 0#8, 2#8, 0#8, 0#8, 0#8] &&
      t.dev.fld .primStat [] 31 16 == 1 && t.dev.fld .primStat [] 15 0 == 1) = true := by decide +kernel

/-- R36, R312, R314: a dictionary of no nodes, and one whose nodes lie in the Proctor region, end the job with DICTERR; only the second counts. -/
def dNo : Dev := (dPo 0 { pPr with jobs := [rPr] }).store 0x800040004 [0#8]
def dPc : Dev := (dPo 0 { pPr with jobs := [rPr] }).store 0x800040018 (leBytes 8 proctorBase)
def badTok : PrimSt := { pPr with cur := some (rPr, ⟨0x15#8, false, true, 0, 0⟩) }
theorem test_primer_dictionary :
    readDict dNo 0x800040000 = some { dictOf with nodes := 0 } ∧ errIs (readNode dNo { dictOf with nodes := 0 } 0) .bad = true ∧
    nx (exec (.tokenise rPr) (mk dNo)) (fun t => decide (t.dev.med.prim = badTok) && t.dev.fld .secState [] 23 16 == 0) = true ∧
    readDict dPc 0x800040000 = some { dictOf with nodeAt := proctorBase } ∧
    errIs (readNode dPc { dictOf with nodeAt := proctorBase } 0) (.denied proctorBase) = true ∧
    nx (exec (.tokenise rPr) (mk dPc)) (fun t => decide (t.dev.med.prim = badTok) && t.dev.fld .secState [] 23 16 == 1) = true := by decide +kernel

/-! ## The stack, the chain, the links -/

/-- The last block of the stack: channel 15, pseudo-channel 1, bank 15, row 16383. -/
def blkT : Nat := 0x3FFFFFFC0
def dCh (x : ChanSt) : Dev := { Dev.reset.setFld .memGctl [] 31 31 1 with stk := { chans := (Vector.replicate 16 {}).set 15 x } }
def wE (b : Nat) (m : BitVec 64) : WEnt := { blk := b, mask := m, req := 1, cls := 1, at_ := 0 }
def rE (bh iss : Bool) : REnt := { blk := blkT, req := 1, cls := 1, at_ := 0, data := List.replicate 64 9#8, behind := bh, issued := iss }
def wAcc (m : BitVec 64) : Instr := .stackWriteAccept 15 1 1 blkT m (List.replicate 64 7#8)
/-- The channel's port while requester 1 holds its hall pass for a read or a write. -/
def mkH (w : Bool) (d : Dev) : State := { mk d with arbs := (mk d).arbs.set 79 { holder := some { req := 1, cls := 1, beats := 1, write := w } } }
def mkP : Dev → State := mkH false
def mkW : Dev → State := mkH true
def full64 : List WEnt := List.replicate 64 (wE 0 0#64)

/-- R322-R325: one byte written, a merged write, a full queue; a read of the die, one forwarded, one held behind a partial write. -/
theorem test_accept : (dCh {}).mine 15 1 blkT = true ∧ Dev.reset.mine 15 1 blkT = false ∧ Dev.reset.mine 15 proctorReq blkT = true ∧ full64.length = 64 ∧ (∀ w ∈ full64, w.blk ≠ blkT) ∧
    nx (exec (wAcc (1#64 <<< 63)) (mkW (dCh {}))) (fun t => t.dev.mem.rdN 0x3FFFFFFFE 2 == [0#8, 7#8] && (t.dev.chan 15).wq == [wE blkT (1#64 <<< 63)]) = true ∧
    nx (exec (wAcc (1#64 <<< 63)) (mkW (dCh { wq := [wE blkT 1#64] }))) (fun t => (t.dev.chan 15).wq == [wE blkT 0x8000000000000001#64]) = true ∧
    nx (exec (wAcc 1#64) (mkW (dCh { wq := full64 }))) (fun t => (t.dev.chan 15).wq.length == 64 && t.dev.mem.rd blkT == 0#8) = true ∧
    nx (exec (.stackReadAccept 15 1 1 ⟨blkT, 64⟩) (mkP (dCh {}))) (fun t => (t.dev.chan 15).rq == [{ rE false false with data := List.replicate 64 0#8 }]) = true ∧
    nx (exec (.stackReadAccept 15 1 1 ⟨blkT, 64⟩) (mkP (dCh { wq := [wE blkT (BitVec.allOnes 64)] }))) (fun t => (t.dev.chan 15).rq == [] &&
      decide ((t.dev.chan 15).last = some (1, blkT, List.replicate 64 0#8, false))) = true ∧
    nx (exec (.stackReadAccept 15 1 1 ⟨blkT, 64⟩) (mkP (dCh { wq := [wE blkT 1#64] }))) (fun t => (t.dev.chan 15).rq.map (·.behind) == [true]) = true ∧
    nx (exec (.stackReadAccept 15 1 1 ⟨blkT, 64⟩) (mk (dCh {}))) (fun t => (t.dev.chan 15).rq == []) = true ∧
    nx (exec (.stackReadAccept 15 1 1 ⟨blkT + 62, 2⟩) (mkP (dCh {}))) (fun t => (t.dev.chan 15).rq.map (·.data.length) == [2]) = true ∧
    nx (exec (.stackReadAccept 15 1 1 ⟨blkT, 64⟩) (mkW (dCh {}))) (fun t => (t.dev.chan 15).rq == []) = true := by decide +kernel

/-- R326, R329, R331, R333: the bank closed, its row open, another row open; a refresh due with and without one taken early. -/
def dDr (b : BankSt) : Dev := ((dCh { rq := [rE false false], pc1 := { banks := [(15, b)] } }).setFld .memChStat [15] 31 29 2).setFld .memRdCtl [] 31 30 0
def drC : Instr := .dramCommandIssue 15 1 false
theorem test_dram : (dDr {}).fld .memChStat [15] 31 29 = 2 ∧ (dDr {}).flag .memGctl [] 0 = false ∧ (dDr {}).fld .memRdCtl [] 31 30 = 0 ∧
    pcOf (dDr {}) blkT = 1 ∧ bankOf (dDr {}) blkT = 15 ∧ rowOfAddr (dDr {}) blkT = 16383 ∧
    nx (exec drC (mk (dDr {}))) (fun t => decide (((t.dev.chan 15).pc 1).bank 15 = { open_ := some 16383, nextCol := 15, nextPre := 33, nextAct := 47 })) = true ∧
    nx (exec drC (mk (dDr { open_ := some 16383 }))) (fun t => (t.dev.chan 15).rq == [rE false true] && ((t.dev.chan 15).pc 1).bus == 5) = true ∧
    nx (exec drC (mk (dDr { open_ := some 0 }))) (fun t => (((t.dev.chan 15).pc 1).bank 15).open_.isNone && (((t.dev.chan 15).pc 1).bank 15).nextAct == 15) = true ∧
    nx (exec (.refreshDue 15 1 15) (mk (dDr { early := 1 }))) (fun t => decide (((t.dev.chan 15).pc 1).bank 15 = {})) = true ∧
    nx (exec (.refreshDue 15 1 15) (mk (dDr {}))) (fun t => (((t.dev.chan 15).pc 1).bank 15).owed == 1) = true ∧
    nx (exec .trackerWindowReset (mk (dDr { tracker := [(3, 9)] }))) (fun t => (((t.dev.chan 15).pc 1).bank 15).tracker == []) = true := by decide +kernel

/-- R335, R336, R340: 4 failed attempts retrain the channel; then 7 and 8 failed reads, 7 and 8 failed writes; the counts cleared. -/
def rT : REnt := { rE false true with tried := true }
def wT : WEnt := { wE blkT 1#64 with tried := true }
theorem test_stack_errors : poisonUnit blkT = blkT ∧
    nx (exec (.stackReadComplete 15 4) (mk (dCh { rq := [rE false true] }))) (fun t => (t.dev.chan 15).rq == [rT] && t.dev.fld .memChErr [15] 7 0 == 3 && t.dev.fld .memChStat [15] 31 29 == 3) = true ∧
    nx (exec (.writeParityError 15 4) (mk (dCh { sent := [wE blkT 1#64] }))) (fun t => (t.dev.chan 15).sent == [wT] && t.dev.fld .memChErr [15] 15 8 == 3) = true ∧
    nx (exec (.stackReadComplete 15 7) (mk (dCh { rq := [rT] }))) (fun t => decide ((t.dev.chan 15).last = some (1, blkT, List.replicate 64 9#8, false)) &&
      t.dev.fld .memChErr [15] 7 0 == 4) = true ∧
    nx (exec (.stackReadComplete 15 8) (mk (dCh { rq := [rT] }))) (fun t => decide ((t.dev.chan 15).last = some (1, blkT, List.replicate 64 9#8, true)) &&
      t.dev.fld .memChErr [15] 23 16 == 1) = true ∧
    nx (exec (.writeParityError 15 7) (mk (dCh { sent := [wT] }))) (fun t => t.dev.poison == [] && t.dev.fld .memChErr [15] 15 8 == 4) = true ∧
    nx (exec (.writeParityError 15 8) (mk (dCh { sent := [wT] }))) (fun t => t.dev.poison == [blkT] && t.dev.fld .memChErr [15] 23 16 == 1) = true ∧
    wrote (.memErrClear 15) (Dev.reset.setRg .memChErr [15] 0x00FFFFFF#32) .memChErr [15] = 0 := by decide +kernel

/-- R320, R337-R340: the reset map and one with two equal homes; retraining at once, put off by a panic, ended; soft repairs. -/
def vPp : W32 := 0x01F03FFF#32
theorem test_stack_service : mapOk Dev.reset = true ∧ mapOk (Dev.reset.setFld .memMap [0] 4 0 (mapHome Dev.reset 1)) = false ∧
    nx (exec .stackEnable State.reset) (fun t => t.dev.stackOn) = true ∧
    nx (exec .stackEnable (mk (Dev.reset.setFld .memMap [0] 4 0 (mapHome Dev.reset 1)))) (fun t => !t.dev.stackOn && t.dev.flag .memGctl [] 30) = true ∧
    (dDr {}).flag .memGctl [] 1 = true ∧ nx (exec (.channelRetrain 15) (mk (dDr {}))) (fun t => t.dev.fld .memChStat [15] 31 29 == 3) = true ∧
    nx (exec (.channelRetrain 15) (mk (((dCh { rq := [{ rE false false with cls := 3 }] }).setFld .memChStat [15] 31 29 2).setFld .memRtThr [1] 30 30 1))) (fun t =>
      t.dev.fld .memChStat [15] 31 29 == 2 && decide ((t.dev.chan 15).defer = some 0)) = true ∧
    nx (exec (.channelRetrainComplete 15) (mk ((dCh {}).setFld .memChStat [15] 31 29 3))) (fun t => t.dev.fld .memChStat [15] 31 29 == 2) = true ∧
    repaired (dCh {}) 15 1 15 = [] ∧ (repaired (dCh { soft := [(1, 15, 1), (1, 15, 2)] }) 15 1 15).length = 2 ∧
    nx (exec (.softRepairRequest 15 vPp) (mk (dCh {}))) (fun t => t.dev.flag .memChPpr [15] 31 && t.dev.fld .memChPpr [15] 13 0 == 16383) = true ∧
    nx (exec (.softRepairRequest 15 vPp) (mk (dCh { soft := [(1, 15, 1), (1, 15, 2)] }))) (fun t => t.dev.flag .memChPpr [15] 29 && !t.dev.flag .memChPpr [15] 31) = true ∧
    nx (exec (.softRepair 15) (mk ((dCh {}).setRg .memChPpr [15] 0x81F03FFF#32))) (fun t => (t.dev.chan 15).soft == [(1, 15, 16383)] && t.dev.flag .memChPpr [15] 30) = true := by
  decide +kernel

/-- A member of the chain with ID `j` in state `st`. -/
def dId (j st : Nat) : Dev := (Dev.reset.setFld .chnStat [] 7 0 j).setFld .chnStat [] 31 29 st
def frm (c : Instr) (d : Dev) : Nat := (aft c (mk d)).dev.chn.frame.toNat
/-- R342-R347: the first TOKEN; ID 191 and beyond; FULL; device 0 closes; in and out of sequence; late joiners; a damaged frame. -/
theorem test_chain_port : (dId 0 1).ownId = some 0 ∧ (dId 191 1).ownId = some 191 ∧ (∀ k : Fin 4, Dev.reset.flag .lnkCtl [k.val] 31 = false) ∧
    frm .rollCallStart { Dev.reset with chn := { head := true } } = 0xB00000A5 ∧
    frm (.token 190#8) Dev.reset = 0xB0BF001A ∧ nx (exec (.token 190#8) State.reset) (fun t => decide (t.dev.ownId = some 191)) = true ∧
    frm (.token 191#8) Dev.reset = 0xB40000A5 ∧ nx (exec (.token 191#8) State.reset) (fun t => chState t.dev == 3) = true ∧ frm .full Dev.reset = 0xB40000A5 ∧
    frm (.token 191#8) (dId 0 1) = 0xB800C065 ∧ nx (exec .full (mk (dId 0 1))) (fun t => chCount t.dev == 192 && t.dev.flag .chnStat [] 22) = true ∧
    nx (exec (.token 190#8) (mk (dId 191 1))) (fun t => !t.dev.flag .chnStat [] 26) = true ∧
    nx (exec (.token 3#8) (mk (dId 191 1))) (fun t => t.dev.flag .chnStat [] 26) = true ∧
    nx (exec (.close 190#8 192#8) (mk (dId 191 1))) (fun t => chCount t.dev == 192 && chState t.dev == 2) = true ∧
    nx (exec (.close 4#8 5#8) State.reset) (fun t => decide (t.dev.ownId = some 5) && t.dev.flag .chnStat [] 27) = true ∧
    nx (exec (.close 4#8 5#8) (mk (dId 0 2))) (fun t => chCount t.dev == 5 && t.dev.flag .chnStat [] 23) = true ∧
    nx (exec .chainFrameRepeat (mk { Dev.reset with chn := { sending := true, sent := 1 } })) (fun t => t.dev.chn.sent == 2) = true ∧
    nx (exec .rollCallTimeout (mk { dId 0 1 with chn := { started := true } })) (fun t => t.dev.flag .chnStat [] 25 && chCount t.dev == 0) = true ∧
    nx (exec .chainNoclk (mk { Dev.reset with chn := { head := true } })) (fun t => t.dev.flag .chnStat [] 24 && chCount t.dev == 1) = true ∧
    wrote (.ignoredChainFrame 0#32) (Dev.reset.setFld .chnStat [] 21 16 63) .chnStat [] = 63 * 2 ^ 16 := by decide +kernel

/-- Port 3 of a device with ID 0, enabled and in state `st`. -/
def dLk (st : Nat) (x : LinkPort) : Dev := { ((dId 0 2).setFld .lnkCtl [3] 31 31 1).setFld .lnkStat [3] 31 29 st with
  lnk := { ports := (Vector.replicate 4 {}).set 3 x } }
def lst (c : Instr) (d : Dev) : Nat × Nat := let t := (aft c (mk d)).dev; (lnkState t 3, t.fld .lnkStat [3] 28 26)
/-- R347, R352-R354: training with and without an ID, 4 and 3 good lanes, round trips of 655 and 656, no peer, a lost lane, the spare used. -/
theorem test_links : lst (.linkEnable 3) (dId 0 2) = (1, 0) ∧ lst (.linkEnable 3) Dev.reset = (0, 4) ∧ lst (.linkEnable 3) (dLk 2 {}) = (2, 0) ∧
    lst (.linkRetrain 3) (dLk 2 {}) = (1, 0) ∧ goodCount 0x1E#5 = 4 ∧ spareFor ⟨0x1F#5, [0, 2, 0, 0, 1]⟩ = some 1 ∧ goodCount 7#5 = 3 ∧
    lst (.linkTrainingComplete 3 ⟨0x1E#5, []⟩ 9#8 2#2 655) (dLk 1 {}) = (2, 0) ∧ lst (.linkTrainingComplete 3 ⟨7#5, []⟩ 9#8 2#2 655) (dLk 1 {}) = (4, 2) ∧
    lst (.linkTrainingComplete 3 ⟨0x1E#5, []⟩ 9#8 2#2 656) (dLk 1 {}) = (4, 3) ∧ lst (.linkNoPeer 3) (dLk 1 {}) = (4, 1) ∧
    nx (exec (.laneLockLoss 3 2) (mk (dLk 2 {}))) (fun t => (t.dev.port 3).spareUsed && t.dev.fld .lnkStat [3] 25 23 == 2) = true ∧
    lst (.laneLockLoss 3 2) (dLk 2 { spareUsed := true }) = (4, 2) ∧
    nx (exec (.laneErrorThreshold 3 2) (mk ((dLk 2 { window := [0, 0, 16, 0] }).setFld .lnkCtl [3] 23 16 16))) (fun t => (t.dev.port 3).spareUsed) = true ∧
    nx (exec (.laneErrorThreshold 3 2) (mk (dLk 2 { spareUsed := true }))) (fun t => t.dev.lnk == (dLk 2 { spareUsed := true }).lnk) = true ∧
    wrote (.linkErrClear 3) (Dev.reset.setRg .lnkErr [3] 0x00FF0001#32) .lnkErr [3] = 0 := by decide +kernel

/-- R349-R351, R365: header flits whose parity and sideband hold, with a wrong sideband bit, a replay mark; NAK, acknowledgement, routing. -/
def flt0 : Flit := ⟨5#256, 0#8, 0x60#8⟩
def fl1 : Flit := ⟨0#256, 0#8, 0x60#8⟩
theorem test_flits : badWords flt0 = [] ∧ sideOk flt0 = true ∧ sideOk { flt0 with side := 0x61#8 } = false ∧ bits flt0.side.toNat 7 6 = 1 ∧ bits flt0.side.toNat 5 3 = 4 ∧
    bit flt0.side.toNat 2 = false ∧ sideOk ⟨0#256, 0#8, 0xC0#8⟩ = true ∧
    nx (exec (.flitReceive 3 flt0) (mk (dLk 2 { awaitReplay := true }))) (fun t => (t.dev.port 3).rxOpen == []) = true ∧
    nx (exec (.flitReceive 3 { flt0 with side := 0x61#8 }) (mk (dLk 2 {}))) (fun t => (t.dev.port 3).awaitReplay && t.dev.fld .lnkErr [3] 15 0 == 1) = true ∧
    nx (exec (.flitReceive 3 ⟨0#256, 0#8, 0xC0#8⟩) (mk (dLk 2 { awaitReplay := true }))) (fun t => !(t.dev.port 3).awaitReplay) = true ∧
    nx (exec (.flitReceive 3 flt0) (mk (dLk 2 {}))) (fun t => (t.dev.port 3).rxOpen.map (fun o => (o.queue, o.hdr.addr)) == [(4, 5#56)] && (t.dev.port 3).rx == 1) = true ∧
    nx (exec (.nak 3 1#16) (mk (dLk 2 { replay := [(0, 4, fl1), (1, 4, fl1), (2, 4, flt0)] }))) (fun t => (t.dev.port 3).wire == [flt0] && (t.dev.port 3).replay.length == 1) = true ∧
    nx (exec (.linkAck 3 1#16 [5, 5, 5, 5, 5]) (mk (dLk 2 { credits := [0, 255, 3, 4, 15], replay := [(1, 4, fl1)] }))) (fun t => (t.dev.port 3).credits == [5, 256, 8, 9, 16] &&
      (t.dev.port 3).replay == []) = true ∧
    nx (exec (.fabricEnable 0xC000070F#32) State.reset) (fun t => t.dev.rg .lnkFabCtl [] == 0xC000070F#32) = true := by decide +kernel

/-- Port 3 is up, this device is 0, device 191 lies behind port 3. -/
def dRt : Dev := ((dLk 2 {}).setRg .lnkFabCtl [] 0x80000000#32).setRg .lnkRoute [191] 0x80000003#32
def pkt (kind a : Nat) : Packet := { mkPacket a kind 191 0 7 with len := if kind = 1 ∨ kind = 2 then 1#8 else 0#8 }
theorem test_sending : dRt.ownId ≠ none ∧ dRt.routeOf 191 = some 3 ∧ dRt.queueOf (kindClass (pkt 1 0).kind.toNat) (dRt.vcFor 3 none) = 0 ∧
    ((dRt.sendPkt 191 (pkt 1 0)).port 3).wire = packetFlits 0 (pkt 1 0) ∧ ((dRt.sendPkt 191 (pkt 1 0)).port 3).tx = 1 := by decide +kernel

/-- R357, R358: the last Commons block read and written, a hole, an atomic and the same again. -/
def pW : Packet := { pkt 2 0x800FFFFC0 with mask := 1#64, data := 9#8 :: List.replicate 63 0#8 }
def pA : Packet := { pkt 3 0x8100FFFF8 with aux := 5#8, data := bytes 32 [(0, 3#8), (16, 0x55#8)] }
def sent (c : Instr) (d : Dev) : List Flit := ((aft c (mk d)).dev.port 3).wire
theorem test_requests : headerOk (pkt 1 0x800FFFFC0) = true ∧ headerOk pW = true ∧ headerOk pA = true ∧ dRt.ownId = some 0 ∧
    sent (.read 3 (pkt 1 0x800FFFFC0)) dRt = packetFlits 2 { mkPacket (191 * 2 ^ 48 + 0x800FFFFC0) 0x81 0 0 7 with len := 1#8, data := List.replicate 64 0#8 } ∧
    sent (.read 3 (pkt 1 0x400000000)) dRt = packetFlits 2 { mkPacket (191 * 2 ^ 48 + 0x400000000) 0x8F 0 0 7 with stat := 0x0A#8 } ∧
    nx (exec (.write 3 pW) (mk dRt)) (fun t => t.dev.mem.rdN 0x800FFFFC0 2 == [9#8, 0#8]) = true ∧
    nx (exec (.atomic 3 pA) (mk dRt)) (fun t => t.dev.loadNat 0x8000FFFF8 8 == 3 && t.dev.com.remote.map (fun e => (e.dev, e.tag, e.result)) == [(191, 0x55, 0#64)] &&
      nx (exec (.atomic 3 pA) { t with pending := [] }) (fun u => u.dev.loadNat 0x8000FFFF8 8 == 3)) = true := by decide +kernel

/-- R200, R359-R364: a response and an error for walker 2 of slot 6, the mailbox at 63 and 64, barriers, no route. -/
def xS : Xfer := { xf0 with started := true, remote := true, sent := [(7, 0x100)], cls := 1 }
def dRs : Dev := dRt.setCore 6 { mode := .running, wk2 := [xS] }
def pU (kind : Nat) : Packet := { mkPacket 0 kind 191 20 7 with stat := if kind = 0x8F then 5#8 else 0#8 }
def pB (kind : Nat) : Packet := mkPacket 0 kind 191 0 2055
def pM : Packet := { mkPacket 0 0x10 191 0 7 with len := 1#8, data := List.replicate 64 0#8 }
theorem test_responses : headerOk { pU 0x81 with len := 1#8, data := List.replicate 64 3#8 } = true ∧ headerOk (pU 0x82) = true ∧ headerOk (pU 0x8F) = true ∧ headerOk pM = true ∧
    headerOk (pU 0x83) = false ∧ headerOk { pU 0x83 with data := List.replicate 32 0#8 } = true ∧ headerOk (pB 4) = true ∧ headerOk (pB 0x84) = true ∧ headerOk (pU 4) = false ∧
    nx (exec (.rdata 3 { pU 0x81 with len := 1#8, data := List.replicate 64 3#8 }) (mk dRs)) (fun t => ((t.dev.core 6).wk2.map (fun x => (x.accepted, x.sent, x.got.length)) ==
      [(true, [], 64)])) = true ∧
    nx (exec (.wack 3 (pU 0x82)) (mk dRs)) (fun t => (t.dev.core 6).wk2.map (fun x => (x.accepted, x.sent)) == [(true, [])]) = true ∧
    nx (exec (.error 3 (pU 0x8F)) (mk dRs)) (fun t => (t.dev.core 6).abort == some 0x10#8 && t.dev.fld .coreWlkFault [6] 31 24 == 5) = true ∧
    findWait dRt { pU 0x83 with data := List.replicate 32 0#8 } = none ∧
    nx (exec (.mgmt 3 pM) (mk { dRt with lnk := { dRt.lnk with mbox := List.replicate 63 pM } })) (fun t => t.dev.lnk.mbox.length == 64) = true ∧
    nx (exec (.mgmt 3 pM) (mk { dRt with lnk := { dRt.lnk with mbox := List.replicate 64 pM } })) (fun t => t.dev.fld .lnkMboxStat [] 23 16 == 1) = true ∧
    nx (exec (.barArrive 3 (pB 4)) (mk dRt)) (fun t => t.dev.bar.child.contains (7, 3)) = true ∧ dRt.childPorts = [] ∧
    nx (exec (.barRelease 3 (pB 0x84)) (mk { dRt.setFld .ttBarDev [] 31 31 0 with bar := { arr := [{ level := 2, id := 7, slot := 1, entry := 0 }] } })) (fun t => t.dev.bar.arr.all (·.released)) = true ∧
    nx (exec (.barRelease 3 (pB 0x84 |> fun p => { p with addr := BitVec.ofNat 56 (5 * 2 ^ 48) })) (mk { dId 5 2 with
      regs := ((dId 5 2).setFld .lnkStat [3] 31 29 2).regs })) (fun t => t.dev.bar.hold == [7]) = true ∧
    wrote (.read 3 { pkt 1 0 with addr := BitVec.ofNat 56 (2 ^ 48) }) (dLk 2 {}) .lnkErr [3] = 2 ^ 16 ∧
    wrote (.wack 3 { pU 0x82 with addr := BitVec.ofNat 56 (2 ^ 48) }) (dLk 2 {}) .lnkErr [3] = 2 ^ 16 := by decide +kernel

/-! ## Power, faults -/

/-- A settings header of generation 7, loader at 0x1400000, slots at 0x100000 and 0xA00000, log at 0x30000, slot 0 preferred, with its SHA-256 digest (worked out with another program). -/
def hdrB : List Byte := leBytes 64 0xA37FDE6B6474731F1BAF8600CD24622F38F054E763DE783092DF8A62683A81B400000000000000070003000000A0000000100000014000000000000148365353
def dHd (d : Dev) : Dev := { d with flash := hdrB.zipIdx.map (fun e => (e.2, e.1)) }
theorem test_header : Dev.reset.flashRd 0 1 = [0xFF#8] ∧ (dHd Dev.reset).curHdr = some (0, hdrB) := by decide +kernel

def dDv (st : DvfsSt) (k : Nat) : Dev := { (Dev.reset.setFld .pwrDvfs [] 27 26 k) with pwr := { step := some st } }
/-- R371-R373, R376, R377: up from point 3, down from 0 with the setpoint kept, the same point, busy; the slew's end, the window, 15 and 16 deferrals, the relock, a forced one with an array streaming. -/
theorem test_points : Dev.reset.fld .pwrDvfs [] 27 26 = 3 ∧ Dev.reset.flag .pwrDvfs [] 30 = false ∧
    nx (exec (.dvfsStep 0#2) State.reset) (fun t => t.dev.pwr.step == some { target := 0, phase := 1 } && t.dev.pwr.setpoint == 800 && t.dev.fld .pwrDvfs [] 31 26 == 51) = true ∧
    nx (exec (.dvfsStep 3#2) State.reset) (fun t => t.dev.pwr.step == none) = true ∧
    nx (exec (.dvfsStep 3#2) (mk (Dev.reset.setFld .pwrDvfs [] 27 26 0))) (fun t => t.dev.pwr.step == some { target := 3, phase := 2 } && t.dev.pwr.setpoint == 700) = true ∧
    nx (exec (.dvfsStep 0#2) (mk (Dev.reset.setFld .pwrDvfs [] 30 30 1))) (fun t => t.dev.pwr.step == none) = true ∧
    nx (exec .setpointSlewDone (mk (dDv { target := 0, phase := 1 } 3))) (fun t => t.dev.pwr.step == some { target := 0, phase := 2 } && decide (t.dev.pwr.rail = 70000)) = true ∧
    nx (exec (.dvfsStep 0#2) (mk { Dev.reset with pwr := { mute := true } })) (fun t => t.dev.pwr.step == some { target := 0, phase := 1 } && t.dev.pwr.setpoint == 700) = true ∧
    nx (exec .relockComplete (mk { dDv { target := 0, phase := 3 } 3 with pwr := { step := some { target := 0, phase := 3 }, toOne := true } })) (fun t =>
      t.dev.pwr.step == some { target := 1, phase := 2 } && t.dev.fld .pwrDvfs [] 31 26 == 52) = true ∧
    nx (exec .relockWindow (mk (dDv { target := 0, phase := 2 } 3))) (fun t => t.dev.pwr.step == some { target := 0, phase := 3 } && (t.dev.core 6).stopped) = true ∧
    nx (exec .relockWindow (mk ((dDv { target := 0, phase := 2, forced := true } 3).setCore 6 { arrA := { runs := [⟨⟨0, 0, 0, 0, 0, false, 0, false, none, 0, 0, 0, 0, false, 0⟩, {}, [], 0, 0, 0, 1, []⟩] } }))) (fun t =>
      t.dev.pwr.step == some { target := 0, phase := 3, forced := true }) = true ∧
    nx (exec .relockComplete (mk (dDv { target := 0, phase := 3 } 3))) (fun t => t.dev.fld .pwrDvfs [] 27 26 == 0 && t.dev.pwr.setpoint == 800 && !(t.dev.core 6).stopped) = true ∧
    nx (exec (.droopTrip ⟨6, [0]⟩) (mk ((dDv { target := 0, phase := 2 } 3).setFld .pwrDvfs [] 4 0 16))) (fun t => t.dev.pwr.step == some { target := 0, phase := 2, forced := true } &&
      t.dev.fld .pwrDvfs [] 15 8 == 1) = true ∧
    nx (exec (.droopTrip ⟨6, [0]⟩) (mk ((dDv { target := 0, phase := 2 } 3).setFld .pwrDvfs [] 4 0 15))) (fun t => t.dev.pwr.step == some { target := 0, phase := 2 }) = true ∧
    nx (exec (.droopTrip ⟨6, [0]⟩) State.reset) (fun t => (t.dev.core 6).stretch == 1 && (t.dev.core 6).droop) = true ∧
    nx (exec (.droopTrip ⟨6, [1000]⟩) (mk (Dev.reset.modCore 6 (fun c => { c with droop := true })))) (fun t => !(t.dev.core 6).droop) = true ∧
    nx (exec .relockWindow (mk ((dDv { target := 0, phase := 2 } 3).modCore 6 (fun c => { c with droop := true })))) (fun t => t.dev.pwr.step == some { target := 0, phase := 2 }) = true ∧
    nx (exec (.skipFrameBoundary 6) (mk ((Dev.reset.setRg .pwrSkip [] 0x00105432#32).setRg .pwrSlotFloor [] 0x07000000#32))) (fun t => (t.dev.core 6).skip == 7) = true := by decide +kernel

def sup (n : Nat) (k : Nat) : Dev := (Dev.reset.setFld .pwrSupply [] 31 30 n).setFld .pwrSkip [] 15 12 k
/-- R378, R380, R381: entry below 651 mV, none at 651 mV; recovery in and out of place; the hold's end; ramp steps from 2 and from 1. -/
theorem test_brace : nx (exec .braceEntry (mk { (sup 0 0).modCore 6 (fun c => { c with skipOther := 9 }) with pwr := { rail := 65099 } })) (fun t => t.dev.fld .pwrSupply [] 31 30 == 1 &&
      t.dev.fld .pwrSupply [] 15 0 == 1 && t.dev.fld .pwrSkip [] 15 12 == 8 && (t.dev.core 6).skip == 9 && (t.dev.core 0).skip == 8) = true ∧
    nx (exec .braceEntry (mk { sup 0 0 with pwr := { rail := 65100 } })) (fun t => t.dev.fld .pwrSupply [] 31 30 == 0) = true ∧
    nx (exec .braceRecovery (mk { sup 1 8 with pwr := { rail := 65100 } })) (fun t => t.dev.fld .pwrSupply [] 31 30 == 1) = true ∧
    nx (exec .braceRecovery (mk (sup 1 8))) (fun t => t.dev.fld .pwrSupply [] 31 30 == 2) = true ∧
    nx (exec .braceRecovery (mk (sup 3 8))) (fun t => t.dev.fld .pwrSupply [] 31 30 == 3) = true ∧
    nx (exec .braceHoldEnd (mk (sup 2 8))) (fun t => t.dev.fld .pwrSupply [] 31 30 == 3 && t.dev.fld .pwrSkip [] 15 12 == 7) = true ∧
    nx (exec .braceRampStep (mk (sup 3 2))) (fun t => t.dev.fld .pwrSupply [] 31 30 == 3 && t.dev.fld .pwrSkip [] 15 12 == 1) = true ∧
    nx (exec .braceRampStep (mk (sup 3 1))) (fun t => t.dev.fld .pwrSupply [] 31 30 == 0 && t.dev.fld .pwrSkip [] 15 12 == 0) = true := by decide +kernel

def plG : List Byte := bytes 64 [(0, 1#8), (4, 33#8)]
/-- R383-R385, R438: 1/16 W over, at and 17 under the target of 1,200; a grant of 255 W; FALLBACK 19 and 20; a drop; an expiry; a GRANT. -/
theorem test_cap : nx (exec (.capTick 1201 1000) (mk (Dev.reset.setFld .pwrSkip [] 7 4 15))) (fun t => t.dev.fld .pwrCap [] 31 24 == 75 && t.dev.fld .pwrSkip [] 7 4 == 15 &&
      t.dev.rg .telEnergy [] == 75#32 && t.dev.pwr.mjFrac == 1) = true ∧
    nx (exec (.capTick 1201 1000) State.reset) (fun t => t.dev.fld .pwrSkip [] 7 4 == 1) = true ∧
    nx (exec (.capTick 1200 1000) (mk (Dev.reset.setFld .pwrSkip [] 7 4 5))) (fun t => t.dev.fld .pwrSkip [] 7 4 == 5) = true ∧
    nx (exec (.capTick 1183 1000) (mk (Dev.reset.setFld .pwrSkip [] 7 4 5))) (fun t => t.dev.fld .pwrSkip [] 7 4 == 4) = true ∧
    nx (exec (.capTick 0 0) (mk (Dev.reset.setRg .pwrLease [] 0xC0001419#32))) (fun t => t.dev.fld .pwrCap [] 31 24 == 25) = true ∧
    wrote (.grantWrite 0x000014FF#32) Dev.reset .pwrLease [] = 0xC00014FF ∧ wrote (.grantWrite 0x000013FF#32) Dev.reset .pwrLease [] = 0xC00014FF ∧
    wrote .leaseDrop (Dev.reset.setRg .pwrLease [] 0xC0001921#32) .pwrLease [] = 0x1921 ∧
    wrote .leaseExpire (Dev.reset.setRg .pwrLease [] 0xC0001921#32) .pwrLease [] = 0xA0001921 ∧
    wrote .leaseExpire (Dev.reset.setRg .pwrLease [] 0x80001921#32) .pwrLease [] = 0x80001921 ∧
    wrote .leaseExpire ({ Dev.reset with pwr := { capWas := some (0, 33) } }.setRg .pwrLease [] 0xC0001921#32) .pwrCap [] / 2 ^ 24 = 33 ∧
    wrote (.registerWrite (regOff .pwrCap []) 30#32) { Dev.reset with pwr := { lapse := true } } .pwrCap [] / 2 ^ 24 = Dev.reset.fld .pwrCap [] 31 24 ∧
    plG.length = 64 ∧ recNat plG 0 1 = 1 ∧ recNat plG 15 1 = 0 ∧
    nx (exec (.grant plG) State.reset) (fun t => t.dev.rg .pwrLease [] == 0xC0001421#32 && t.dev.lnk.mbox.length == 1) = true ∧
    nx (exec (.grant [2#8]) State.reset) (fun t => t.dev.lnk.mbox.length == 0) = true := by decide +kernel

def temps (x : Int) : List Int := x :: List.replicate 15 40000
def dHot (x : Nat) : Dev := Dev.reset.setFld .telTs [0] 15 0 x
/-- R388-R390: 114.875 and 114.874 degrees after 115; a first hot sample; ticks at 100, between and at 98; energy of job 65535; the table cleared. -/
theorem test_heat : (temps 114875).length = 16 ∧
    nx (exec (.thermalSample (temps 114875)) (mk (dHot 460))) (fun t => decide (t.dev.stop = some .tripped) && decide (sensor t.dev 0 = 460) && decide (sensor t.dev 15 = 160)) = true ∧
    nx (exec (.thermalSample (temps 114874)) (mk (dHot 460))) (fun t => t.dev.stop.isNone && decide (sensor t.dev 0 = 459)) = true ∧
    nx (exec (.thermalSample (temps 150000)) (mk (dHot 459))) (fun t => t.dev.stop.isNone) = true ∧
    nx (exec (.thermalSample (temps (-40000))) State.reset) (fun t => decide (sensor t.dev 0 = -160)) = true ∧
    nx (exec .thermalTick (mk (dHot 400))) (fun t => t.dev.fld .pwrSkip [] 11 8 == 1 && t.dev.flag .telTherm [] 31) = true ∧
    nx (exec .thermalTick (mk ((dHot 392).setFld .pwrSkip [] 11 8 1))) (fun t => t.dev.fld .pwrSkip [] 11 8 == 0 && !t.dev.flag .telTherm [] 31) = true ∧
    nx (exec (.energyTick [.other 300, .task 6 1 5]) (mk ((Dev.reset.setRg .telEjob [] 0x80007FFF#32).modCore 6 (fun c => { c with jobs := [1, 2] })))) (fun t =>
      t.dev.mem.rdN 0x3FFFFFFF8 3 == [0x2C#8, 1#8, 0#8] && t.dev.mem.rd 0x3FFF80010 == 5#8 && (t.dev.core 6).jobs == []) = true ∧
    nx (exec (.energyTick [.other 300]) State.reset) (fun t => t.dev.mem.rd 0x7FFF8 == 0#8) = true ∧
    nx (exec (.energyTableEnable 0x7FFF#29) (mk { Dev.reset with mem := { cells := [(0x3FFF7FFFF, 1#8), (0x3FFF80000, 2#8), (0x3FFFFFFFF, 3#8)] } })) (fun t =>
      t.dev.mem.rd 0x3FFF7FFFF == 1#8 && t.dev.mem.rd 0x3FFF80000 == 0#8 && t.dev.mem.rd 0x3FFFFFFFF == 0#8 && t.dev.flag .telEjob [] 31) = true := by decide +kernel

/-- R392-R394, R464: slacks of 79 at margins 9 and 10, of 80 and 140, at another point; the card due and not; telemetry and its alert. -/
theorem test_card : nx (exec (.marginMeasure 3 79) (mk (dSv.setFld .telRcard [] 15 12 9))) (fun t => t.dev.fld .telRcard [] 15 12 == 10 && !t.dev.flag .telRcard [] 31) = true ∧
    nx (exec (.marginMeasure 3 79) (mk (dSv.setFld .telRcard [] 15 12 10))) (fun t => t.dev.fld .telRcard [] 15 12 == 10 && t.dev.flag .telRcard [] 31) = true ∧
    dSv.fld .secBoot [] 31 29 = 5 ∧ dSv.fld .pwrDvfs [] 27 26 = 3 ∧ nx (exec (.marginMeasure 3 80) (mk dSv)) (fun t => t.dev.regs == dSv.regs) = true ∧
    nx (exec (.marginMeasure 3 140) (mk dSv)) (fun t => t.dev.regs == dSv.regs) = true ∧ nx (exec (.marginMeasure 0 79) (mk dSv)) (fun t => t.dev.regs == dSv.regs) = true ∧
    nx (exec .reportCardWrite State.reset) (fun t => t.dev.pwr.rcAt == none) = true ∧
    nx (exec .reportCardWrite (mk (dHd (Dev.reset.setRg .telRcard [] 0x1#32)))) (fun t => t.dev.pwr.rcAt == some 0 && t.dev.pwr.rcStored == 1#32) = true ∧
    nx (exec (.pmbusTelemetry 800 5000) State.reset) (fun t => t.dev.pwr.vout == 800 && t.dev.pwr.iout == 5000) = true ∧
    nx (exec (.pmbusTelemetry 800 5000) (mk { Dev.reset with pwr := { mute := true } })) (fun t => t.dev.pwr.vout == 0) = true ∧
    nx (exec .pmAlert State.reset) (fun t => t.dev.flt.held == [⟨0, 7, 0, 1, 0, 0, 0⟩]) = true := by decide +kernel

def cEr : CoreSt := { mode := .running, pc := 9, sregs := [(1, 2#64)], ckpt := { pc := 4, sregs := [(1, 7#64)], tiles := 3 } }
def dEr : Dev := Dev.reset.setCore 5 cEr
/-- R85, R398-R401, R403: a transient and a permanent Satchel error, a mirror word, Commons' last word, the clocks. -/
theorem test_errors : (dEr.core 5).active = true ∧ dEr.logicalOf 5 = 5 ∧ dEr.spare = 6 ∧
    nx (exec (.errorDetect (.satchel 5 8 false) false) (mk dEr)) (fun t => decide ((t.dev.core 5).mode = .rerun) && (t.dev.core 5).pc == 4 && (t.dev.core 5).s 1 == 7#64 &&
      (t.dev.core 5).replayed) = true ∧
    nx (exec (.errorDetect (.satchel 5 8 false) true) (mk dEr)) (fun t => (t.dev.core 5).frozen && t.dev.flt.takeover == some { bad := 5, good := 6, lc := 5, words := [8] }) = true ∧
    nx (exec (.errorDetect (.imem 5 0x3FFFF false) false) (mk { dEr with imMirror := [(0x17FFFF, 9#8)] })) (fun t => t.dev.mem.rdN 0x90583FFFC 4 == [0#8, 0#8, 0#8, 9#8] &&
      (t.dev.core 5).parity) = true ∧
    nx (exec (.errorDetect (.commons 0x800FFFFFF) false) (mk dEr)) (fun t => t.dev.poison == []) = true ∧
    nx (exec (.errorDetect (.commons 0x800FFFFFF) true) (mk dEr)) (fun t => t.dev.poisoned 0x800FFFFFF && !t.dev.poisoned 0x800FFFFFB) = true ∧
    nx (exec (.pllLockLoss false) (mk dEr)) (fun t => (t.dev.core 5).stopped && (t.dev.core 5).s 1 == 2#64) = true ∧
    nx (exec (.pllLockLoss true) (mk dEr)) (fun t => !(t.dev.core 5).stopped) = true ∧
    nx (exec (.pllSwitchComplete false) (mk (dEr.modCore 5 (fun c => { c with stopped := true, pos := 3 })))) (fun t => !(t.dev.core 5).stopped && (t.dev.core 5).pos == 0) = true ∧
    nx (exec (.pllSwitchComplete true) (mk (dEr.modCore 5 (fun c => { c with stopped := true })))) (fun t => (t.dev.core 5).stopped) = true := by decide +kernel

def dTk (c : CoreSt) (r : Bool) : Dev := { Dev.reset.setCore 5 { c with frozen := true } with flt := { takeover := some { bad := 5, good := 6, lc := 5, remapped := r, words := [8] } } }
/-- R41, R403-R405: a busy core's task moves, an idle one's core is ready; the reload is done, or not while a write is pending. -/
theorem test_takeover :
    nx (exec .takeoverRemap (mk (dTk cEr false))) (fun t => t.dev.slotOf 5 == 6 && t.dev.spare == 7 && decide ((t.dev.core 5).mode = .fusedOff) && decide ((t.dev.core 6).mode = .rerun) &&
      (t.dev.core 6).pc == 4 && (t.dev.core 6).taken && t.dev.flt.takeover == some { bad := 5, good := 6, lc := 5, remapped := true, words := [8] }) = true ∧
    nx (exec .takeoverRemap (mk (dTk {} false))) (fun t => decide ((t.dev.core 6).mode = .idle) && t.dev.flt.takeover == none) = true ∧
    nx (exec .takeoverReloadDone (mk ((dTk cEr true).setCore 6 { cEr with mode := .rerun, reloading := true, tileCyc := 5 }))) (fun t => t.dev.flt.takeover == none &&
      !(t.dev.core 6).reloading && (t.dev.core 6).tileCyc == 0) = true ∧
    nx (exec .takeoverReloadDone (mk ((dTk cEr true).setCore 6 { cEr with mode := .rerun, reloading := true, wk2 := [xf0] }))) (fun t => (t.dev.core 6).reloading) = true := by decide +kernel

def dRo (c : CoreMode) : Dev := { Dev.reset.setCore 5 { mode := c } with flt := { rotDue := true, rotNext := 5, rotReady := some 5 } }
def tRo : TestReq := { tag := 0, kind := 1, arg := 5, passed := false }
def dRq (ready : Option Nat) : Dev := { dRo .idle with flt := { rotDue := true, rotNext := 0, rotReady := ready, tests := [tRo] } }
/-- R409-R414: a due step on an idle and on a running core, a skip; tests passed and failed; Recess; the device test. -/
theorem test_rotation : Dev.reset.rotates = true ∧ ({ Dev.reset with flt := { rotOff := true } } : Dev).rotates = false ∧
    nx (exec .rotationDue State.reset) (fun t => t.dev.flt.rotDue) = true ∧
    nx (exec .rotationDue (mk { Dev.reset with flt := { rotOff := true } })) (fun t => !t.dev.flt.rotDue) = true ∧
    nx (exec .rotationStep (mk (dRo .idle))) (fun t => t.dev.slotOf 5 == 6 && t.dev.spare == 5 && decide ((t.dev.core 5).mode = .selfTest) && decide ((t.dev.core 6).mode = .idle) &&
      t.dev.flt.rotNext == 0 && t.dev.slotOf 4 == 4) = true ∧
    nx (exec .rotationStep (mk (dRo .running))) (fun t => t.dev.slotOf 5 == 5) = true ∧
    nx (exec .rotationStep (mk { dRo .idle with flt := { rotDue := true, rotNext := 5 } })) (fun t => t.dev.slotOf 5 == 5) = true ∧
    nx (exec .rotationSkip (mk (dRo .idle))) (fun t => t.dev.flt.rotNext == 5) = true ∧
    (dRq (some 5)).logicalOf 5 = 5 ∧ (dRq (some 5)).rotCore = 5 ∧
    nx (exec .rotationStep (mk (dRq (some 5)))) (fun t => t.dev.slotOf 5 == 6 && decide ((t.dev.core 5).mode = .selfTest) && t.dev.flt.rotNext == 0 && t.dev.flt.tests == [tRo]) = true ∧
    nx (exec .rotationSkip (mk (dRq none))) (fun t => t.dev.flt.rotNext == 0 && t.dev.flt.tests == [{ tRo with passed := true }]) = true ∧
    nx (exec (.selfTestComplete 6 .pass) (mk { Dev.reset.setCore 6 { mode := .fusedOff } with flt := { scrapped := [6] } })) (fun t => decide ((t.dev.core 6).mode = .fusedOff)) = true ∧
    nx (exec .rotationSkip (mk { dRo .running with flt := { rotDue := true, rotNext := 5 } })) (fun t => t.dev.flt.rotNext == 0 && t.dev.flt.rotDue) = true ∧
    6 ≤ Dev.reset.logicalOf 6 ∧
    nx (exec (.selfTestComplete 6 .pass) (mk (Dev.reset.setCore 6 { mode := .selfTest }))) (fun t => decide ((t.dev.core 6).mode = .standby) && t.dev.spare == 6) = true ∧
    nx (exec (.selfTestComplete 6 .failed) (mk (Dev.reset.setCore 6 { mode := .selfTest }))) (fun t => decide ((t.dev.core 6).mode = .fusedOff) && t.dev.spare == 7 && t.dev.flt.rotOff) = true ∧
    wrote (.recessWindow ⟨[⟨15, 1, 15, 16383, 9⟩], 0, 0, []⟩) (Dev.reset.setRg .memChOdecc [15] 0xFFFFFFFA#32) .memChOdecc [15] = 0xFFFFFFFF ∧
    nx (exec (.recessWindow ⟨[], 599000, 0, [(0x800000000, true), (0x800000400, true)]⟩) State.reset) (fun t => t.dev.flt.scrubCommons == 1000 &&
      t.dev.poisoned 0x800000000 && !t.dev.poisoned 0x800000400) = true ∧
    nx (exec (.deviceTestComplete true) (mk { Dev.reset with flt := { forced := true } })) (fun t => !t.dev.flt.forced && t.dev.mem.rd 0x7FFFFFFFF == 0#8 &&
      (undefAt t.dev.mem.undef 0x800000000).isSome && (undefAt t.dev.mem.undef 0x800FFFFFF).isSome) = true ∧
    nx (exec .forcedTestTimeout (mk { dEr with flt := { forced := true } })) (fun t => (t.dev.core 5).abort == some 0x61#8) = true ∧
    nx (exec .forcedTestTimeout (mk dEr)) (fun t => (t.dev.core 5).abort == none) = true := by decide +kernel

/-! ## Service requests -/

/-- A request: its OP, TAG 0x0A0B0C0D, its arguments as (offset, size, value), every other byte 0. -/
def rqB (op : Nat) (l : List (Nat × Nat × Nat)) : List Byte :=
  l.foldl (fun r a => r.take a.1 ++ leBytes a.2.1 a.2.2 ++ r.drop (a.1 + a.2.1)) (leBytes 4 op ++ leBytes 4 0x0A0B0C0D ++ List.replicate 56 0#8)
/-- The conditions of wellLaid as one Boolean. -/
def laid (op : Nat) (args : List (Nat × Nat)) (r : List Byte) : Bool :=
  decide (r.length = 64 ∧ recNat r 0 1 = op ∧ recNat r 1 1 < 2) && r.getD 2 0#8 == 0#8 && r.getD 3 0#8 == 0#8 &&
    ((upto 64).drop 8).all (fun i => args.any (fun a => decide (a.1 ≤ i ∧ i ≤ a.2)) || r.getD i 0#8 == 0#8)
theorem laid_wellLaid {op : Nat} {args : List (Nat × Nat)} {r : List Byte} (h : laid op args r = true) : wellLaid op args r := by
  simp only [laid, Bool.and_eq_true, decide_eq_true_eq, beq_iff_eq, List.all_eq_true, Bool.or_eq_true, List.any_eq_true] at h
  obtain ⟨⟨⟨⟨h1, h2, h3⟩, h4⟩, h5⟩, h6⟩ := h
  refine ⟨h1, h2, h3, h4, h5, fun i h8 h64 hn => ?_⟩
  rcases h6 i (by simp [upto, List.range_eq_range']; omega) with ⟨a, ha, hi⟩ | h
  · have := hn a ha; omega
  · exact h

/-- A device that has taken the request, and the request's command there. -/
def taking (r : List Byte) (d : Dev) : Dev := { d with svc := { d.svc with taken := [r] } }
def rqx (c : List Byte → Instr) (r : List Byte) (d : Dev) : Host.Outcome State Fault Refusal := exec (c r) (mk (taking r d))
def dOn : Dev := Dev.reset.setFld .memGctl [] 31 31 1
/-- The service ring on in the host's memory (command ring at 0x1000) or in the stack (response ring at 0x2000); both of 16 places. -/
def dSvR (loc : Nat) : Dev :=
  { (((dOn.setFld .secBoot [] 31 29 5).setRg .pciSvcCfg [] (BitVec.ofNat 32 (0x80000440 + loc * 2 ^ 30))).setRg .pciSvcCmdLo [] 0x1000#32).setRg .pciSvcRspLo [] 0x2000#32 with
    pci := { busMaster := true }, svc := { cmdPh := true, rspPh := true } }
def polls (d : Dev) (h : List Host.Cell) : Bool := d.fld .secBoot [] 31 29 == 5 && d.pci.busMaster && !d.pci.d3hot && d.svc.out == [] && d.svc.notices == [] &&
  d.svc.taken == [] && d.svc.written == leNat (rdCells 0#8 (d.hostPut h).hostMem 0x1008 8) && svcCmd d == 0x1000 && d.fld .pciSvcCfg [] 31 30 == 2
/-- R433: the ring off, or the stage not 5; a good request, one with an unknown OP, at the ring's last place; no new one. -/
theorem test_poll :
    nx (exec (.servicePoll [(5, 1#8)]) State.reset) (fun t => t.dev.hostMem == [(5, 1#8)]) = true ∧
    nx (exec (.servicePoll (hcells 0x1040 (rqB 0x113 []))) (mk ((dSvR 0).setFld .secBoot [] 31 29 4))) (fun t => t.dev.svc.taken == []) = true ∧
    polls (dSvR 0) (hcells 0x1040 (rqB 0x113 [(8, 1, 7)])) = true ∧ reqHead (rqB 0x113 [(8, 1, 7)]) = true ∧ reqHead (rqB 0x155 []) = false ∧
    nx (exec (.servicePoll (hcells 0x1040 (rqB 0x113 [(8, 1, 7)]))) (mk (dSvR 0))) (fun t => t.dev.svc.taken == [rqB 0x113 [(8, 1, 7)]] && t.dev.svc.cmdIdx == 1 &&
      rdCells 0#8 t.dev.hostMem 0x1000 8 == leBytes 8 1) = true ∧
    nx (exec (.servicePoll (hcells 0x1400 (rqB 0x113 []) ++ hcells 0x1040 (rqB 0x113 []))) (mk { dSvR 0 with svc := { cmdPh := true, rspPh := true, cmdIdx := 15 } })) (fun t => t.dev.svc.cmdIdx == 0 &&
      !t.dev.svc.cmdPh && t.dev.svc.taken == [rqB 0x113 []]) = true ∧
    nx (exec (.servicePoll (hcells 0x1040 (rqB 0x155 []))) (mk (dSvR 0))) (fun t => t.dev.svc.taken == [] && rdCells 0#8 t.dev.hostMem 0x2000 8 == [0x15#8, 1#8, 0x55#8, 0#8, 0x0D#8, 0x0C#8, 0x0B#8, 0x0A#8]) = true ∧
    nx (exec (.servicePoll (hcells 0x1040 (rqB 0x13 []))) (mk (dSvR 0))) (fun t => t.dev.svc.taken == [] && t.dev.svc.fetched == 0) = true := by decide +kernel

/-- R435: a request with a byte set that must be 0 for each of its operations (LEASE: byte 9) has no effect but its answer;
R433: one not taken, or not the first, has none. -/
theorem test_turned_away :
    nx (exec (.lease (rqB 0x13 [(8, 1, 1)])) State.reset) (fun t => t.dev.svc.out == [] && t.dev.regs == []) = true ∧
    nx (exec (.lease (rqB 0x13 [(8, 1, 1)])) (mk (taking (rqB 0x22 []) Dev.reset))) (fun t => t.dev.svc.taken == [rqB 0x22 []] && t.dev.regs == []) = true ∧
    nx (rqx .lease (rqB 0x13 [(8, 2, 0x0101)]) Dev.reset) (fun t => t.dev.svc.out.map (·.take 8) == [[0x15#8, 0#8, 0x13#8, 0#8, 0x0D#8, 0x0C#8, 0x0B#8, 0x0A#8]] &&
      t.dev.regs == []) = true ∧
    nx (rqx .lease (rqB 0x13 [(8, 1, 0x01)]) Dev.reset) (fun t => t.dev.svc.out.map (·.take 1) == [[0#8]] && t.dev.fld .pwrLease [] 7 0 == 1) = true := by decide +kernel
theorem test_not_laid (op : Nat) (args : List (Nat × Nat)) : ¬ wellLaid op args [] := fun h => absurd h.1 (by decide)

/-- R433, R434, R452: SVN_COMMIT with the ring off, and with it on in the stack, at the first place and at the last. -/
theorem test_answers : laid 0x22 [] (rqB 0x22 []) = true ∧
    nx (rqx .svnCommit (rqB 0x22 []) { Dev.reset.setFld .secBoot [] 7 0 5 with fuses := { rollback := 4 } }) (fun t => t.dev.fuses.rollback == 5 && t.dev.fld .secState [] 6 0 == 5 &&
      t.dev.svc.out.length == 1) = true ∧
    (dSvR 1).fld .pciSvcCfg [] 31 30 = 3 ∧ (dSvR 1).reach 0x2000 32 = true ∧ svcRsp (dSvR 1) = 0x2000 ∧ (dSvR 1).flag .pciSvcCfg [] 29 = false ∧
    nx (rqx .svnCommit (rqB 0x22 []) (dSvR 1)) (fun t => t.dev.mem.rdN 0x2000 5 == [0#8, 1#8, 0x22#8, 0#8, 0x0D#8] && t.dev.svc.rspIdx == 1 && t.dev.svc.rspPh) = true ∧
    nx (rqx .svnCommit (rqB 0x22 []) { dSvR 1 with svc := { cmdPh := true, rspPh := true, rspIdx := 15, written := 15 } }) (fun t => t.dev.svc.rspIdx == 0 && !t.dev.svc.rspPh &&
      t.dev.mem.rdN 0x21E0 3 == [0#8, 1#8, 0x22#8]) = true ∧
    nx (rqx .svnCommit (rqB 0x22 []) { dSvR 1 with svc := { cmdPh := true, rspPh := true, written := 16 } }) (fun t => t.dev.svc.out.length == 1) = true := by decide +kernel

/-- A stream request: number, kind, ring sizes, two buffers of 128 bytes at 0x4000, records at 0x5000, entries at 0x6000 (decode), size and rate. -/
def rqS (n kind w h rate : Nat) : List Byte :=
  rqB 1 [(8, 1, n), (9, 1, kind), (10, 1, if n < 16 then 4 else 0x44), (11, 1, 2), (12, 2, w), (14, 2, h), (16, 4, rate), (20, 4, 128), (24, 8, 0x4000), (32, 8, 0x5000)]
def stX (e : Nat) : StreamSt := { kind := 1, loc := false, recLog := 4, bsLog := 4, nbuf := 2, width := 16, height := 16, rate := 1, bufBytes := 128, pool := 0x4000,
                                  recRing := 0x5000, bsRing := 0, param := 0, stats := 0, engine := e }
/-- R287, R435, R436: a capture stream, a video and a JPEG decode stream at the capacity of an engine, one above it, refused ones, a close. -/
theorem test_streams : laid 1 [(8, 63)] (rqS 15 0 16 16 1) = true ∧ laid 2 [(8, 8)] (rqB 2 [(8, 1, 16)]) = true ∧
    streamOk dOn (rqS 15 0 16 16 1) = true ∧ streamOk dOn (rqS 16 1 16 16 1) = true ∧ streamOk dOn (rqS 143 2 8192 8192 29802) = true ∧ streamOk dOn (rqS 144 1 16 16 1) = false ∧
    nx (rqx .streamOpen (rqS 15 0 16 16 1) dOn) (fun t => (t.dev.stream 15).any (fun x => x.engine == 255 && x.nbuf == 2)) = true ∧
    nx (rqx .streamOpen (rqS 16 1 16 16 1) dOn) (fun t => (t.dev.stream 16).any (fun x => x.engine == 0)) = true ∧
    nx (rqx .streamOpen (rqS 143 2 8000 8000 31250) dOn) (fun t => (t.dev.stream 143).any (fun x => x.engine == 6)) = true ∧
    nx (rqx .streamOpen (rqS 143 2 8000 8000 31251) dOn) (fun t => (t.dev.stream 143).isNone && t.dev.svc.out.map (·.take 1) == [[0x60#8]]) = true ∧
    nx (rqx .streamOpen (rqS 144 1 16 16 1) dOn) (fun t => t.dev.svc.out.map (·.take 1) == [[0x15#8]]) = true ∧
    nx (rqx .streamClose (rqB 2 [(8, 1, 16)]) (dOn.setStream 16 (stX 0))) (fun t => (t.dev.stream 16).isNone) = true ∧
    nx (rqx .streamClose (rqB 2 [(8, 1, 16)]) dOn) (fun t => t.dev.svc.out.map (·.take 1) == [[0x15#8]]) = true := by decide +kernel

/-- An encode request: stream 31, format, size and rate; output of 128 bytes at 0x4000, palette, rings. -/
def rqE (n f w h rate : Nat) : List Byte :=
  rqB 3 [(8, 1, n), (9, 1, f), (12, 2, w), (14, 2, h), (16, 4, rate), (20, 4, if f = 2 then 0 else 1), (24, 2, 1), (27, 1, 0x44), (28, 4, 128), (32, 8, 0x4000), (40, 8, 0x5000),
        (48, 8, 0x6000), (56, 8, 0x7000)]
def enX : EncSt := { format := 0, profile := 0, rc := 0, width := 64, height := 64, rate := 1, kbps := 1, gop := 1, qp := 0, inLog := 4, outLog := 4, outLen := 128, out := 0x4000,
                     palette := 0x5000, inRing := 0x6000, entryRing := 0x7000, engine := 4 }
/-- R435, R437: video and JPEG encoders, one whose number is out of range, a close. -/
theorem test_encoders : laid 3 [(8, 63)] (rqE 31 0 64 64 1) = true ∧ laid 4 [(8, 8)] (rqB 4 [(8, 1, 31)]) = true ∧
    encodeOk dOn (rqE 31 0 4096 2304 1) = true ∧ encodeOk dOn (rqE 0 2 8192 8192 1) = true ∧ encodeOk dOn (rqE 32 0 64 64 1) = false ∧
    nx (rqx .encodeOpen (rqE 31 0 64 64 1) dOn) (fun t => (t.dev.enc 31).any (fun x => x.engine == 4)) = true ∧
    nx (rqx .encodeOpen (rqE 0 2 8192 8192 1) dOn) (fun t => (t.dev.enc 0).any (fun x => x.engine == 6)) = true ∧
    nx (rqx .encodeOpen (rqE 32 0 64 64 1) dOn) (fun t => t.dev.med.encs == [] && t.dev.svc.out.map (·.take 1) == [[0x15#8]]) = true ∧
    nx (rqx .encodeClose (rqB 4 [(8, 1, 31)]) (dOn.setEnc 31 enX)) (fun t => (t.dev.enc 31).isNone) = true := by decide +kernel

/-- A fault block at 0x9000: period 60 s, event ring at 0xA000 of 16 places, one backed range of the first 256 bytes of Commons. -/
def fbB (rot : Nat) : List Byte :=
  leBytes 4 rot ++ [4#8, 0#8, 0#8, 0#8] ++ leBytes 8 0xA000 ++ leBytes 8 0x100000 ++ leBytes 8 (2 ^ 20) ++ List.replicate 32 0#8 ++ (leBytes 4 0 ++ leBytes 4 256 ++ leBytes 8 0xB000) ++ List.replicate 240 0#8
def dFb (rot : Nat) : Dev := dOn.store 0x9000 (fbB rot)
/-- R415, R416: the shortest period, one below it, a recorder's ring too short, the block's range. -/
theorem test_fault_block : laid 0x10 [(8, 15)] (rqB 0x10 [(8, 8, 0x9000)]) = true ∧ (dFb 60).inStack 0x9000 320 = true ∧
    faultBlockOk (dFb 60) ((dFb 60).load 0x9000 320) = true ∧ faultBlockOk (dFb 59) ((dFb 59).load 0x9000 320) = false ∧ faultBlockOk (dFb 60) (((dFb 60).load 0x9000 320).set 26 0#8) = false ∧
    nx (rqx .faultConfig (rqB 0x10 [(8, 8, 0x9000)]) (dFb 60)) (fun t => t.dev.flt.rotS == 60 && t.dev.flt.evRing == some (0xA000, 4) && t.dev.flt.backing == [(0, 256, 0xB000)]) = true ∧
    nx (rqx .faultConfig (rqB 0x10 [(8, 8, 0x9000)]) (dFb 59)) (fun t => t.dev.flt.evRing == none && t.dev.svc.out.map (·.take 1) == [[0x15#8]]) = true := by decide +kernel

def rqT (kind k : Nat) : List Byte := rqB 0x11 [(8, 1, kind), (9, 1, k)]
/-- R413, R414: a test of each kind, a slot test without an understudy, an unknown kind. -/
theorem test_tests : laid 0x11 [(8, 10)] (rqT 3 15) = true ∧ Dev.reset.spare = 6 ∧ (Dev.reset.setFld .sysCoreMap [] 20 18 7).spare = 7 ∧
    nx (rqx .test (rqT 2 5) Dev.reset) (fun t => t.dev.flt.tests == [{ kind := 2, arg := 5, tag := 0x0A0B0C0D }] && t.dev.svc.out == []) = true ∧
    nx (rqx .test (rqT 3 15) Dev.reset) (fun t => t.dev.flt.tests == [{ kind := 3, arg := 15, tag := 0x0A0B0C0D }]) = true ∧
    nx (rqx .test (rqT 1 5) Dev.reset) (fun t => t.dev.flt.tests == [{ kind := 1, arg := 5, tag := 0x0A0B0C0D }] && t.dev.flt.rotDue && t.dev.rotCore == 5) = true ∧
    nx (rqx .test (rqT 1 5) (Dev.reset.setFld .sysCoreMap [] 20 18 7)) (fun t => t.dev.svc.out.map (·.take 1) == [[0x60#8]]) = true ∧
    nx (rqx .test (rqT 4 5) Dev.reset) (fun t => t.dev.flt.forced && t.dev.flt.devTest == some { kind := 4, arg := 5, tag := 0x0A0B0C0D }) = true ∧
    nx (rqx .test (rqT 5 5) Dev.reset) (fun t => t.dev.svc.out.map (·.take 1) == [[0x15#8]]) = true := by decide +kernel

def rqM (e : Nat) : List Byte := rqB 0x12 [(8, 1, e), (16, 8, 0x100000), (24, 8, 2 ^ 20)]
def dMa : Dev := { Dev.reset with flt := { mario := some { tag := 3, left := [], recipes := [] } } }
/-- R385, R422: leaving marionette mode and entering it (what a state must be to enter), a lease. -/
theorem test_marionette : laid 0x12 [(8, 8), (16, 35)] (rqM 1) = true ∧ laid 0x13 [(8, 8)] (rqB 0x13 [(8, 1, 255)]) = true ∧
    nx (rqx .marionette (rqM 0) dMa) (fun t => t.dev.flt.mario.isNone) = true ∧
    nx (rqx .marionette (rqM 0) Dev.reset) (fun t => t.dev.svc.out.map (·.take 1) == [[0x15#8]]) = true ∧
    nx (rqx .marionette (rqM 1) (dOn.setFld .ttCtl [] 0 0 1)) (fun t => t.dev.flt.mario.isNone && t.dev.svc.out.map (·.take 1) == [[0x15#8]]) = true ∧
    dOn.flag .ttCtl [] 0 = false ∧ (∀ n, n < 16 → dOn.flag .capVcCfg [n] 31 = false) ∧ dOn.flt.mario = none ∧ recNat (rqM 1) 24 8 = 2 ^ 20 ∧
    recNat (rqM 1) 16 8 % 64 = 0 ∧ dOn.flag .memGctl [] 31 = true ∧ recNat (rqM 1) 8 1 = 1 ∧
    nx (rqx .lease (rqB 0x13 [(8, 1, 255)]) Dev.reset) (fun t => t.dev.fld .pwrLease [] 31 30 == 3 && t.dev.fld .pwrLease [] 7 0 == 255 && t.dev.pwr.leaseAt == 0) = true := by decide +kernel

/-! ## Settings and trust

The signed data was made with another program: private key 0x1234567, nonce 0x7654321. -/

/-- The public key. -/
def keyB : List Byte := leBytes 64 0x46A85BB7DEA131A3A68E755ECD870E4909D43AB902AA1ED956790616A7A92D445C4126FCA30B172DB82961CC70E3DEAA7B89BA77C66FC8741A29AB22FFB98B08
/-- The key's SHA-256 digest. -/
def keyH : List Byte := leBytes 32 0x446203FB4E554EBD953937B164A697E256F6E801AE7A54C38750084F2D218A0F
/-- A loader image with one component of 4 bytes. -/
def ldB : List Byte := leBytes 160 0x5C4126FCA30B172DB82961CC70E3DEAA7B89BA77C66FC8741A29AB22FFB98B0855B852781B9995A44C939B64E441AE2724B96F99C8F4FB9A141CFC9842C4B0E355B852781B9995A44C939B64E441AE2724B96F99C8F4FB9A141CFC9842C4B0E3EE2ECD566FB19AB4A78CDE6D7428DBCDE42FB6AA10B532BFA36C3A0FC7E1D81C0000000000000000000000000000000000000000000000040000000048364C44 ++
  leBytes 164 0x2152444C29C0838B7673C09CB452092DFBFAAC59A060DE3E50F4F191BB3A16868FD1C99BB84E24F44773B65C5F9087F1693473C497DFFC582445D3C2C2CB55395290A4100000000000000000000000000000000000000000000000000000000000000000000000000000000000000000000000000000000000000000000000000000000046A85BB7DEA131A3A68E755ECD870E4909D43AB902AA1ED956790616A7A92D44
/-- A firmware image of SVN 64 with one component of 4 bytes. -/
def fwB : List Byte := leBytes 160 0x5C4126FCA30B172DB82961CC70E3DEAA7B89BA77C66FC8741A29AB22FFB98B0855B852781B9995A44C939B64E441AE2724B96F99C8F4FB9A141CFC9842C4B0E355B852781B9995A44C939B64E441AE2724B96F99C8F4FB9A141CFC9842C4B0E38280ADC2045113C93E7EF315D4DBF7C04F7756BF51C65BA0805E5F606A67F6D90000000000000000000000000000000000000000000000040000004048364657 ++
  leBytes 164 0x21365746FB3BB7061E2C57DC28E18F88DDEAC0F9E8C39A842E023EDCFC5F8A193BE59D43B84E24F44773B65C5F9087F1693473C497DFFC582445D3C2C2CB55395290A4100000000000000000000000000000000000000000000000000000000000000000000000000000000000000000000000000000000000000000000000000000000046A85BB7DEA131A3A68E755ECD870E4909D43AB902AA1ED956790616A7A92D44
/-- The identity public key of a device whose unique secret is empty. -/
def pubB : List Byte := leBytes 64 0xB46E7804FD7427982C6780AA8DBF6819A3E893E0DE2F9EBA2E54E10F19AB995C05771EC6AC01C73AA8345808BAD8519CCC5DFD35D99EDC73AFD18DB4FF489D41
/-- A debug token of the vendor for scopes 5 and the challenge of bytes 0 to 31. -/
def tokB : List Byte := leBytes 160 0x5FFAFD51F8076EA3506F90E682F64ECF36AED60BF73BB29C902935DE6C3A67BAB84E24F44773B65C5F9087F1693473C497DFFC582445D3C2C2CB55395290A41046A85BB7DEA131A3A68E755ECD870E4909D43AB902AA1ED956790616A7A92D445C4126FCA30B172DB82961CC70E3DEAA7B89BA77C66FC8741A29AB22FFB98B080000000000000000000000000000000000000000000000000000000000000105

/-- The vendor's key in the fuses, the rollback counter at the image's SVN. -/
def fuB : Fuses := { vendorKey := keyH, rollback := 64 }
theorem sig_loader : ecdsaOk keyB (sha256 (ldB.take 256)) ((ldB.take 320).drop 256) = true := by decide +kernel
theorem sig_firmware : ecdsaOk keyB (sha256 (fwB.take 256)) ((fwB.take 320).drop 256) = true := by decide +kernel
/-- R446: an image that passes every check, its signature apart, is accepted. -/
theorem imgReason_zero {rd : Nat → Nat → List Byte} {fw : Bool} {size svn : Nat} {b : List Byte} (hr : rd 0 320 = b.take 320)
    (hs : (decide (320 ≤ size) && imgShape (b.take 320) fw size && decide (svn ≤ recNat (b.take 320) 4 4)) = true)
    (hk : ((b.take 320).drop 128).take 64 = keyB) (hh : sha256 keyB = keyH) (h2 : (b.take 320).take 256 = b.take 256)
    (he : ecdsaOk keyB (sha256 (b.take 256)) ((b.take 320).drop 256) = true)
    (hc : ((imgComps rd).zip (upto 3)).all (fun e => sha256 e.1 == ((b.take 320).drop (32 + 32 * e.2)).take 32) = true) :
    imgReason rd fw size keyH svn = 0 := by
  simp only [Bool.and_eq_true, decide_eq_true_eq] at hs
  have hc' : ((imgComps rd).zip (upto 3)).any (fun e => sha256 e.1 != ((b.take 320).drop (32 + 32 * e.2)).take 32) = false := by
    rw [Bool.eq_false_iff, ne_eq, List.any_eq_true]
    rintro ⟨e, he, hn⟩
    have := List.all_eq_true.1 hc e he
    simp_all
  unfold imgReason
  simp only [hr, hk, hh, h2, he, hc', hs.1.2, Nat.not_lt.2 hs.1.1, Nat.not_lt.2 hs.2]
  simp
theorem images : ((ldB.take 320).drop 128).take 64 = keyB ∧ ((fwB.take 320).drop 128).take 64 = keyB ∧ sha256 keyB = keyH ∧
    (ldB.take 320).take 256 = ldB.take 256 ∧ (fwB.take 320).take 256 = fwB.take 256 := by decide +kernel

/-- Bytes placed from an address up, and how they read back. -/
def cellsAt : Nat → List Byte → List Host.Cell
  | _, [] => []
  | a, b :: l => (a, b) :: cellsAt (a + 1) l
theorem spGet_skip (d : Byte) (r : List Host.Cell) : ∀ (l : List Byte) (a x : Nat), a + l.length ≤ x → spGet d (cellsAt a l ++ r) x = spGet d r x
  | [], _, _, _ => rfl
  | b :: l, a, x, h => by
    have h' : a + (l.length + 1) ≤ x := h
    simp only [cellsAt, List.cons_append, spGet, if_neg (show ¬ a = x by omega)]
    exact spGet_skip d r l (a + 1) x (by omega)
theorem rdCells_skip (d : Byte) (r : List Host.Cell) (l : List Byte) (a : Nat) : ∀ (n b : Nat), a + l.length ≤ b →
    rdCells d (cellsAt a l ++ r) b n = rdCells d r b n
  | 0, _, _ => rfl
  | n + 1, b, h => by rw [rdCells, rdCells, spGet_skip d r l a b h, rdCells_skip d r l a n (b + 1) (by omega)]
theorem rdCells_at (d : Byte) (r : List Host.Cell) : ∀ (l : List Byte) (a n : Nat), n ≤ l.length → rdCells d (cellsAt a l ++ r) a n = l.take n
  | _, _, 0, _ => by simp [rdCells]
  | b :: l, a, n + 1, h => by
    have hs := rdCells_skip d (cellsAt (a + 1) l ++ r) [b] a n (a + 1) (Nat.le_refl _)
    have h' : n + 1 ≤ l.length + 1 := h
    simp only [cellsAt, List.cons_append, List.nil_append] at hs
    rw [rdCells, List.take_succ_cons]
    simp only [cellsAt, List.cons_append, spGet, if_pos, hs, rdCells_at d r l (a + 1) n (by omega)]
theorem rdN_cells (c : List Host.Cell) : ∀ n a : Nat, ({ cells := c } : Memory).rdN a n = rdCells 0#8 c a n
  | 0, _ => rfl
  | n + 1, a => by rw [Memory.rdN, rdN_cells c n (a + 1)]; rfl
theorem lengths : hdrB.length = 64 ∧ ldB.length = 324 ∧ fwB.length = 324 := by decide +kernel

/-- Both images in Commons, as a recovery places them, with a settings header in flash; in stage 6. -/
def dRc : Dev := dHd { Dev.reset.setStage 6 with fuses := fuB, mem := { cells := cellsAt 0x800000000 ldB ++ (cellsAt 0x800000180 fwB ++ []) } }
/-- A settings store with a loader, or with an image in slot `k`. -/
def dLd : Dev := { dHd Dev.reset with flash := cellsAt 0 hdrB ++ (cellsAt 0x1400000 ldB ++ []), fuses := fuB }
def dFw (k : Nat) : Dev := { (dHd Dev.reset).setStage 1 with flash := cellsAt 0 hdrB ++ (cellsAt (0x100000 + 0x900000 * k) fwB ++ []), fuses := fuB }
theorem img_ld : imgReason (dLd.flashAt 0x1400000) false 0x900000 keyH 0 = 0 :=
  imgReason_zero ((rdCells_skip _ _ _ _ _ _ (by rw [lengths.1]; decide)).trans (rdCells_at _ _ _ _ _ (by rw [lengths.2.1]; decide)))
    (by decide +kernel) images.1 images.2.2.1 images.2.2.2.1 sig_loader (by decide +kernel)
theorem img_fw (k : Nat) (h : k < 2) : imgReason ((dFw k).flashAt (0x100000 + 0x900000 * k)) true 0x900000 keyH 64 = 0 :=
  imgReason_zero ((rdCells_skip _ _ _ _ _ _ (by rw [lengths.1]; omega)).trans (rdCells_at _ _ _ _ _ (by rw [lengths.2.2]; decide)))
    (by decide +kernel) images.2.1 images.2.2.1 images.2.2.2.2 sig_firmware (by rcases (show k = 0 ∨ k = 1 by omega) with rfl | rfl <;> decide +kernel)
theorem img_rc (n : Nat) (h : n = 324 ∨ n = 768) : imgReason (dRc.memAt 0x800000000) false n keyH 0 = 0 :=
  imgReason_zero ((rdN_cells _ _ _).trans (rdCells_at _ _ _ _ _ (by rw [lengths.2.1]; decide)))
    (by rcases h with rfl | rfl <;> decide +kernel) images.1 images.2.2.1 images.2.2.2.1 sig_loader (by decide +kernel)
theorem img_rcfw (n : Nat) (h : n = 324 ∨ n = 384) : imgReason (dRc.memAt 0x800000180) true n keyH 64 = 0 :=
  imgReason_zero ((rdN_cells _ _ _).trans ((rdCells_skip _ _ _ _ _ _ (by rw [lengths.2.1]; decide)).trans
      (rdCells_at _ _ _ _ _ (by rw [lengths.2.2]; decide))))
    (by rcases h with rfl | rfl <;> decide +kernel) images.2.1 images.2.2.1 images.2.2.2.2 sig_firmware (by decide +kernel)
/-- A power-and-thermal record of SEQ 1 and its place in Commons. -/
def dSr (w : List Nat) : Dev := { dHd Dev.reset with mem := { cells := hcells 0x800000000 (mkRec 2 1 [75#8, 20#8, 1#8, 0#8]) }, boot := { writes := w } }
/-- R435, R444: a record that checks, the 64th and the 65th of a day, one that is not a record; the three slots of FLASH_WRITE, a bad image. -/
theorem test_settings_requests : laid 0x20 [(8, 15)] (rqB 0x20 [(8, 8, 0x800000000)]) = true ∧ (dSr []).curHdr = some (0, hdrB) ∧
    settingsRec (dSr []) 0x800000000 = some (mkRec 2 1 [75#8, 20#8, 1#8, 0#8]) ∧ settingsRec (dSr []) 0x800000040 = none ∧
    nx (rqx .settingsWrite (rqB 0x20 [(8, 8, 0x800000000)]) (dSr (List.replicate 63 0))) (fun t => t.dev.boot.writes.length == 64 &&
      t.dev.flashRd 0x30000 4 == [2#8, 0#8, 4#8, 0#8] && t.dev.flashRd 0x3002C 1 == [0xFF#8]) = true ∧
    nx (rqx .settingsWrite (rqB 0x20 [(8, 8, 0x800000000)]) (dSr (List.replicate 64 0))) (fun t => t.dev.svc.out.map (·.take 1) == [[0x60#8]]) = true ∧
    nx (rqx .settingsWrite (rqB 0x20 [(8, 8, 0x800000040)]) (dSr [])) (fun t => t.dev.svc.out.map (·.take 1) == [[0x15#8]]) = true := by decide +kernel
theorem test_flash_write : laid 0x21 [(8, 9), (16, 27)] (rqB 0x21 [(8, 1, 2), (16, 8, 0x800000000), (24, 4, 324)]) = true ∧
    laid 0x21 [(8, 9), (16, 27)] (rqB 0x21 [(8, 1, 1), (16, 8, 0x800000180), (24, 4, 324)]) = true ∧ dRc.curHdr = some (0, hdrB) ∧
    dRc.reach 0x800000000 324 = true ∧ dRc.reach 0x800000180 324 = true ∧ dRc.fuses.fwKey = keyH ∧ dRc.fuses.rollback = 64 ∧
    recNat hdrB 8 4 = 0x1400000 ∧ recNat hdrB 12 4 = 0x100000 ∧ recNat hdrB 16 4 = 0xA00000 ∧
    imgReason (Dev.reset.memAt 0x800000000) true 324 [] 0 = 1 ∧
    nx (rqx .flashWrite (rqB 0x21 [(16, 8, 0x800000000), (24, 4, 324)]) (dHd Dev.reset)) (fun t => t.dev.svc.out.map (·.take 1) == [[0x15#8]]) = true := by decide +kernel

/-- R452-R456: the owner's key is provisioned, once; identity and a report where the request asks, or outside memory. -/
theorem test_owner : laid 0x23 [(8, 16)] (rqB 0x23 [(8, 8, 0x800FFFFC0), (16, 1, 1)]) = true ∧ laid 0x30 [(8, 15)] (rqB 0x30 [(8, 8, 0x800FFFFC0)]) = true ∧
    laid 0x31 [(8, 23)] (rqB 0x31 [(8, 8, 0x800FFFFE0), (16, 8, 0x800FFFF00)]) = true ∧ Dev.reset.reach 0x800FFFFC0 64 = true ∧ Dev.reset.reach 0x800FFFFC1 64 = false ∧
    Dev.reset.reach 0x800FFFFE0 32 = true ∧ Dev.reset.reach 0x800FFFF00 256 = true ∧ Dev.reset.reach 0x800FFFFE1 32 = false ∧
    nx (rqx .ownerProvision (rqB 0x23 [(8, 8, 0x800FFFFC0), (16, 1, 1)]) Dev.reset) (fun t => t.dev.fuses.owned && t.dev.fuses.vdbg && t.dev.fuses.ownerKey.length == 32 &&
      t.dev.fld .secState [] 31 30 == 3) = true ∧
    nx (rqx .ownerProvision (rqB 0x23 [(8, 8, 0x800FFFFC0)]) { Dev.reset with fuses := { owned := true } }) (fun t => t.dev.svc.out.map (·.take 1) == [[0x15#8]]) = true ∧
    nx (rqx .attest (rqB 0x31 [(8, 8, 0x800FFFFE1)]) Dev.reset) (fun t => t.dev.svc.out.map (·.take 1) == [[0x15#8]]) = true := by decide +kernel

def chal : List Byte := (upto 32).map (BitVec.ofNat 8)
theorem sig_token : ecdsaOk keyB (sha256 (chal ++ pubB ++ tokB.take 32)) (tokB.drop 96) = true := by decide +kernel
theorem sig_identity : idPub fuB = pubB := by decide +kernel
def dTo : Dev := { Dev.reset with fuses := fuB, mem := { cells := hcells 0x800000000 tokB }, boot := { challenge := some chal } }
theorem tok_parts : (dTo.load 0x800000000 160) = tokB ∧ (tokB.drop 32).take 64 = keyB ∧ sha256 keyB = keyH ∧ dTo.fuses = fuB ∧ recNat tokB 0 1 = 5 ∧ recNat tokB 1 1 = 1 ∧
    zeros tokB 2 30 = true ∧ dTo.reach 0x800000000 160 = true := by decide +kernel
/-- R458: the vendor's token for scopes 5 opens them on an unowned device. -/
theorem test_token : tokenOk dTo chal tokB = true := by
  obtain ⟨-, h2, h3, h4, h5, h6, h7, -⟩ := tok_parts
  simp only [tokenOk, h2, h3, h4, h5, h6, h7, sig_identity, sig_token]
  rfl
/-- R458: a challenge stored, one outside memory, its end; a token that does not answer, and none asked for. -/
theorem test_debug : laid 0x32 [(8, 15)] (rqB 0x32 [(8, 8, 0x800FFFFE0)]) = true ∧ laid 0x33 [(8, 15)] (rqB 0x33 [(8, 8, 0x800000000)]) = true ∧
    nx (rqx (fun r => .debugChallenge r 258#256) (rqB 0x32 [(8, 8, 0x800FFFFE0)]) Dev.reset) (fun t => t.dev.mem.rdN 0x800FFFFE0 3 == [2#8, 1#8, 0#8] &&
      t.dev.boot.challenge == some (leBytes 32 258)) = true ∧
    nx (rqx (fun r => .debugChallenge r 258#256) (rqB 0x32 [(8, 8, 0x800FFFFE1)]) Dev.reset) (fun t => t.dev.boot.challenge == none) = true ∧
    nx (exec .debugChallengeExpire (mk dTo)) (fun t => t.dev.boot.challenge == none) = true ∧
    tokenOk dTo chal (List.replicate 160 0#8) = false ∧
    nx (rqx .debugUnlock (rqB 0x33 [(8, 8, 0x800000100)]) dTo) (fun t => t.dev.boot.challenge == some chal && t.dev.fld .secState [] 26 24 == 0) = true ∧
    nx (rqx .debugUnlock (rqB 0x33 [(8, 8, 0x800000000)]) Dev.reset) (fun t => t.dev.svc.out.map (·.take 1) == [[0x15#8]]) = true := by decide +kernel

/-! ## Function, resets, boot -/

/-- R423, R430-R432, R459: the ring's smallest and largest sizes and one beyond; a write while it is on; errors; masks; power states; BAR2; a function reset. -/
theorem test_function : nx (exec (.serviceRingEnable 0xC0000C40#32) State.reset) (fun t => t.dev.fld .pciSvcCfg [] 31 0 == 0xC0000C40 && t.dev.svc.cmdPh && t.dev.svc.rspPh) = true ∧
    nx (exec (.serviceRingEnable 0xC0000D40#32) State.reset) (fun t => t.dev.fld .pciSvcCfg [] 31 28 == 5) = true ∧
    nx (exec (.serviceRingEnable 0x90000440#32) (mk (Dev.reset.setRg .pciSvcCfg [] 0x90000550#32))) (fun t => t.dev.fld .pciSvcCfg [] 31 0 == 0x90000550) = true ∧
    nx (exec (.hostRead 15 0 64) State.reset) (fun t => (t.dev.rd.data.drop 2).take 2 == [0x36#8, 0x48#8] && (t.dev.rd.data.drop 8).take 4 == [1#8, 0#8, 0#8, 0x12#8] && t.dev.rd.data.length == 64) = true ∧
    nx (exec (.hostWrite 15 0x4A [2#8] false) (mk { Dev.reset with pci := { devStat := 15#4 } })) (fun t => t.dev.pci.devStat == 13#4) = true ∧
    nx (exec .pciErrClear (mk (Dev.reset.setRg .pciErr [] 0x12345678#32))) (fun t => t.dev.fld .pciErr [] 31 0 == 0x12000000) = true ∧
    nx (exec (.msixUnmask (some 63) true false) (mk { Dev.reset with pci := { busMaster := true, pba := 0x8000000000000000#64, msixTab := [(255, 1#32)] } })) (fun t =>
      t.dev.pci.msgs == [63] && t.dev.pci.pba == 0#64) = true ∧
    nx (exec (.msixUnmask none false true) (mk { Dev.reset with pci := { busMaster := true, pba := 1#64, msixEn := true } })) (fun t => t.dev.pci.msgs == [] && !t.dev.pci.msixEn) = true ∧
    nx (exec (.powerStateChange true true) State.reset) (fun t => t.dev.pci.d3hot && t.dev.pci.busMaster) = true ∧
    nx (exec (.bar2Resize 28) State.reset) (fun t => t.dev.pci.bar2Log == 28) = true ∧ nx (exec (.bar2Resize 35) State.reset) (fun t => t.dev.pci.bar2Log == 34) = true ∧
    nx (exec .functionReset (mk ((Dev.reset.setRg .pciErr [] 0x12345678#32).setStream 16 (stX 0)))) (fun t => t.dev.fld .pciErr [] 31 0 == 0 && t.dev.med.streams == []) = true := by decide +kernel

def dSt (st : Nat) : Dev := Dev.reset.setStage st
def held : Dev := { Dev.reset.setRg .secReset [] 0x2FFFF#32 with stop := some .reset }
/-- R379, R449, R464: the rail at 616 mV and below; each cause on a running device, counted to 65535; the lowest cause while held; nothing after a trip but the supplies' removal. -/
theorem test_device_resets : laid 0x34 [] (rqB 0x34 []) = true ∧
    nx (exec .resetNAssert (mk (Dev.reset.setRg .ttCtl [] 1#32))) (fun t => t.dev.fld .secReset [] 31 0 == 0x10001 && t.dev.fld .ttCtl [] 0 0 == 0 && decide (t.dev.stop = some .reset)) = true ∧
    nx (exec .supplyReset (mk { Dev.reset.setRg .secReset [] 0x1FFFF#32 with pwr := { rail := 61599 } })) (fun t => t.dev.fld .secReset [] 31 0 == 0x3FFFF) = true ∧
    nx (exec .supplyReset (mk { Dev.reset with pwr := { rail := 61600 } })) (fun t => t.dev.stop.isNone) = true ∧
    nx (exec .perst (mk { Dev.reset with stop := some .testMode })) (fun t => t.dev.fld .secReset [] 31 0 == 0x20001) = true ∧
    nx (exec (.resetRelease {}) (mk { Dev.reset with stop := some .testMode })) (fun t => decide (t.dev.stop = some .testMode)) = true ∧
    nx (exec .perst (mk held)) (fun t => t.dev.fld .secReset [] 31 0 == 0x2FFFF) = true ∧ nx (exec .resetNAssert (mk held)) (fun t => t.dev.fld .secReset [] 31 0 == 0x1FFFF) = true ∧
    nx (exec .perst (mk { Dev.reset with stop := some .tripped })) (fun t => decide (t.dev.stop = some .tripped) && t.dev.regs == []) = true ∧
    nx (rqx .reset (rqB 0x34 []) Dev.reset) (fun t => t.dev.fld .secReset [] 19 0 == 0x40001) = true ∧
    nx (exec .supplyRemoval (mk { Dev.reset with stop := some .tripped })) (fun t => decide (t.dev.stop = some .reset) && t.dev.fld .secReset [] 31 0 == 0) = true ∧
    nx (exec .bootReady (mk { dSt 4 with stop := some .tripped })) (fun t => t.dev.stage == 4) = true ∧ Instr.bootReady ≠ .supplyRemoval := by decide +kernel

/-- R464, R467, R468: TEST_MODE high at a pin's release, ignored after a supply reset; a regulator that is mute, and one that moves to point 3. -/
theorem test_straps : nx (exec (.resetRelease { straps := { testMode := true, head := true } }) (mk held)) (fun t => decide (t.dev.stop = some .testMode) &&
      t.dev.straps == { testMode := true, head := true }) = true ∧
    nx (exec (.resetRelease { straps := { testMode := true } }) (mk (held.setFld .secReset [] 19 16 3))) (fun t => t.dev.stop.isNone && !t.dev.straps.testMode) = true ∧
    nx (exec (.resetRelease { regulator := false }) (mk held)) (fun t => t.dev.pwr.mute && t.dev.pwr.setpoint == 700) = true ∧
    held.governing 4 = none ∧ nx (exec (.resetRelease {}) (mk { held with fuses := { vfac := [900, 800, 700, 650] } })) (fun t => t.dev.pwr.setpoint == 650 && !t.dev.pwr.mute) = true := by decide +kernel
/-- R445-R447: the ROM with no header, with no loader (see img_ld for one with); the loader with no header, no image, an image refused before (see img_fw). -/
theorem test_boot_images : nx (exec (.resetRelease { straps := { head := true } }) (mk { Dev.reset with stop := some .reset })) (fun t => t.dev.fld .secBoot [] 31 0 == 0xC0000100 && t.dev.chn.head) = true ∧
    nx (exec (.resetRelease { straps := { head := true } }) (mk { dHd Dev.reset with stop := some .reset })) (fun t => t.dev.fld .secBoot [] 31 0 == 0xC0000200) = true ∧
    nx (exec (.resetRelease { straps := { head := true } }) (mk { Dev.reset with boot := { released := true } })) (fun t => !t.dev.chn.head) = true ∧
    dLd.curHdr = some (0, hdrB) ∧ (dFw 0).curHdr = some (0, hdrB) ∧ (dFw 1).curHdr = some (0, hdrB) ∧ (dFw 0).stage = 1 ∧ (dFw 0).imgErr 0 = 0 ∧
    ((dFw 1).setImgErr 0 5).imgErr 0 = 5 ∧ ((dFw 1).setImgErr 0 5).imgErr 1 = 0 ∧ ((dFw 1).setImgErr 0 5).flash = (dFw 1).flash ∧
    nx (exec .loaderImageCheck (mk (dSt 1))) (fun t => t.dev.fld .secBoot [] 31 0 == 0xC0000100) = true ∧
    nx (exec .loaderImageCheck (mk (dHd (dSt 1)))) (fun t => t.dev.fld .secBoot [] 31 0 == 0xC0110300) = true := by decide +kernel

/-- R338, R339, R446, R450: the firmware's check; a failed channel; training done without and with the regulator; READY; no other stage. -/
theorem test_boot_stages : nx (exec (.firmwareRelease true) (mk (dSt 2))) (fun t => t.dev.stage == 3 && t.dev.fld .memChStat [15] 31 29 == 1) = true ∧
    nx (exec (.firmwareRelease false) (mk (dSt 2))) (fun t => t.dev.stage == 1 && t.dev.imgErr 0 == 6) = true ∧
    nx (exec (.firmwareRelease false) (mk ((dSt 2).setFld .secBoot [] 27 27 1))) (fun t => t.dev.fld .secBoot [] 31 0 == 0xC8000300) = true ∧
    nx (exec (.stackTrainingComplete [15] {}) (mk (dSt 3))) (fun t => t.dev.fld .secBoot [] 31 0 == 0xE0001F00 && t.dev.fld .memChStat [15] 31 29 == 4 && t.dev.fld .memChStat [14] 31 29 == 2) = true ∧
    mapOk (dSt 3) = true ∧ (dSt 3).curHdr = none ∧
    nx (exec (.stackTrainingComplete [] { regulator := false }) (mk (dSt 3))) (fun t => t.dev.stage == 3 && t.dev.flag .memGctl [] 31 && t.dev.boot.uart == [.regulatorMute]) = true ∧
    nx (exec (.stackTrainingComplete [] { slack := [100, 100, 79] }) (mk (dSt 3))) (fun t => t.dev.stage == 4 && t.dev.fld .telRcard [] 11 8 == 1) = true ∧
    nx (exec (.stackTrainingComplete [] {}) (mk (dSt 3))) (fun t => t.dev.stage == 4 && t.dev.fld .pwrDvfs [] 27 26 == 0 && t.dev.flag .lnkCtl [3] 31) = true ∧
    nx (exec .bootReady (mk (dSt 4))) (fun t => t.dev.stage == 5 && t.dev.flag .ttCtl [] 0) = true ∧ nx (exec .bootReady (mk (dSt 3))) (fun t => t.dev.stage == 3) = true := by decide +kernel
theorem test_governing (k : Nat) : (dSt 3).governing k = none := by simp [Dev.governing, test_boot_stages.2.2.2.2.2.1]

/-- R368, R447: a recovery of a length that is no multiple of 64, outside stage 6; a map that agrees with the last route, and one that does not. -/
theorem test_recovery : dRc.stage = 6 ∧ ceilDiv (imgPlaces (dRc.memAt 0x800000000 0 320)).2.2.2 64 * 64 = 384 ∧ dRc.stop = none ∧
    nx (exec (.recoveryGo 1#24) (mk dRc)) (fun t => t.dev.stage == 6 && t.dev.fld .secBoot [] 15 8 == 0x20 && t.dev.fld .secRecovery [] 23 0 == 1) = true ∧
    nx (exec (.recoveryGo 64#24) State.reset) (fun t => t.dev.stage == 0 && t.dev.fld .secRecovery [] 31 0 == 64) = true ∧
    nx (exec (.fabricDiscovery true 0#8 [(191, 0x1#32)] [] 0#32) State.reset) (fun t => t.dev.flag .lnkFabCtl [] 31 && t.dev.rg .lnkRoute [191] != Dev.reset.rg .lnkRoute [191]) = true ∧
    nx (exec (.fabricDiscovery false 1#8 [(191, 0x1#32)] [] 0#32) State.reset) (fun t => !t.dev.flag .lnkFabCtl [] 31 && t.dev.rg .lnkRoute [191] == Dev.reset.rg .lnkRoute [191]) = true := by decide +kernel

/-! ## Further witnesses -/

/-- R200, R350, R351, R358: what a bad flit and the 64th good one are answered with; credits of one queue while another has none; a range refused at its FIRST request, and the next request of it. -/
def pF : Packet := { pW with flags := 1#8, lasta := 0x801000000#64 }
theorem test_link_control :
    nx (exec (.flitReceive 3 { flt0 with side := 0x61#8 }) (mk (dLk 2 { rx := 5 }))) (fun t => decide ((t.dev.port 3).ctl = some (.nak 5))) = true ∧
    nx (exec (.flitReceive 3 flt0) (mk (dLk 2 { unacked := 63 }))) (fun t => decide ((t.dev.port 3).ctl = some (.ack 1 [0, 0, 0, 0, 0])) && (t.dev.port 3).unacked == 0) = true ∧
    nx (exec (.linkAck 3 1#16 [0, 0, 0, 0, 0]) (mk (dLk 2 { credits := [0, 256, 0, 0, 0], replay := [(1, 4, fl1)], wait := [(0, pkt 1 0), (1, pkt 1 0)] }))) (fun t =>
      (t.dev.port 3).wire == packetFlits 1 (pkt 1 0) && (t.dev.port 3).wait == [(0, pkt 1 0)]) = true ∧
    headerOk pF = true ∧ dRt.routedHere 191 = false ∧
    nx (exec (.write 3 pF) (mk dRt)) (fun t => t.dev.lnk.refused == [(191, 0)] && t.dev.mem.cells == [] &&
      nx (exec (.write 3 pW) t) (fun u => u.dev.mem.cells == [] && u.dev.lnk.refused == [(191, 0)])) = true := by decide +kernel

/-- R371, R373, R376, R385, R393, R394, R400: a stretched position, a relock that ends beside a lost clock, a lapsed lease, a card written less than a day ago. -/
def dLa : Dev := { Dev.reset with pwr := { lapse := true } }
theorem test_power_waits : skipped 0 0 = false ∧
    (let d := (Dev.reset.modCore 6 (fun c => { c with stretch := 1, droop := true })).deliverPulse 6
     (d.core 6).stretch = 1 ∧ (d.core 6).pos = 1 ∧ d.fld .pwrStretch [] 31 0 = 1) ∧
    nx (exec .relockComplete (mk { (dDv { target := 0, phase := 3 } 3).modCore 6 (fun c => { c with stopped := true }) with pwr := { step := some { target := 0, phase := 3 }, pllOff := true } }))
      (fun t => t.dev.pwr.step == none && (t.dev.core 6).stopped) = true ∧
    nx (exec (.pllSwitchComplete false) (mk ((dDv { target := 0, phase := 3 } 3).modCore 6 (fun c => { c with stopped := true })))) (fun t => (t.dev.core 6).stopped) = true ∧
    nx (exec (.registerWrite (regOff .pwrCap []) 20#32) (mk dLa)) (fun t => t.dev.fld .pwrCap [] 7 0 == 20 && t.dev.fld .pwrCap [] 31 24 == Dev.reset.fld .pwrCap [] 31 24) = true ∧
    nx (exec .reportCardWrite (mk { dHd (Dev.reset.setRg .telRcard [] 0x1#32) with pwr := { rcAt := some 0 } })) (fun t => t.dev.pwr.rcStored == 0#32) = true := by decide +kernel

/-- R44, R398, R436: a dirty staff cache line, a capture line, an ISP line, a staff access out of range; a pool in the Proctor region. -/
def dCl : Dev := dCp { xCp with frame := some { fCp with lines := [[1], [2]] } } 0
theorem test_more_errors :
    nx (exec (.errorDetect (.staffCache 8 true) false) State.reset) (fun t => decide (t.dev.staff[8] = { exc := some (.machineError, 0), restarts := 1 })) = true ∧
    nx (exec (.errorDetect (.captureBuffer 15) false) (mk dCl)) (fun t => (t.dev.stream 15).any (fun y => y.frame.any (fun g => g.lines == [[1], [1]] && g.flags == 1#8))) = true ∧
    nx (exec (.errorDetect (.ispBuffer 1) false) (mk (dPi fCp xCp))) (fun t => t.dev.med.pipes[1].queue.map (·.2.flags) == [1#8]) = true ∧
    nx (exec (.staffCoreLr 8 true (2 ^ 48)) State.reset) (fun t => decide (t.dev.staff[8].exc = some (.loadAccess, 2 ^ 48))) = true ∧
    nx (exec (.staffCoreAmo 0 .add false (2 ^ 48) 1#64) State.reset) (fun t => decide (t.dev.staff[0].exc = some (.storeAccess, 2 ^ 48))) = true ∧
    nx (rqx .streamOpen ((rqS 15 0 16 16 1).set 28 0xF#8) dOn) (fun t => t.dev.fld .secState [] 23 16 == 1 && t.dev.svc.out.map (·.take 1) == [[0x15#8]]) = true := by decide +kernel

/-- R284, R287, R289: a run that an earlier header governs; a stream over its rate waits for another of its engine. -/
def xVd : StreamSt := { xJp with kind := 1, hdr := some { hJp with profile := .h264Main } }
theorem test_runs :
    nx (exec (.data 143 eJp ⟨none, false⟩) (mk (dJp { xVd with entries := [{ bytes := eJp, ts := 77 }] }))) (fun t => (t.dev.stream 143).any (fun y =>
      y.entries.length == 1 && y.queue.map (fun b => decide (b.hdr = xVd.hdr)) == [true])) = true ∧
    StreamSt.overRate { xJp with rate := 0, fids := 1 } 0 = true ∧ xJp.overRate 0 = false ∧
    nx (exec (.pictureDecodeStart 143 ⟨0, [142]⟩) (mk { dJp xJp with med := { streams := [(143, { xJp with rate := 0, fids := 1, queue := [{ bytes := eJp, ts := 77, hdr := some hJp }] }), (142, xJp)] } }))
      (fun t => (t.dev.stream 143).any (fun y => y.cur.isNone)) = true := by decide +kernel

/-! ## Witnesses of the clauses on stalls, refusals and answers -/

/-- R109, R134, R141: an MCLR of a pair; the head of a chain whose next slot takes a plane, and whose hop is taken; a stream's first element. -/
def sHd (fly : List (Nat × Plane)) : State := mk { (((sE { loading := some lOp }).dev.setFld .coreWchCtl [0] 7 0 0x81).setFld .coreWchWin [0] 25 16 1) with chainFly := fly }
def room (s : State) : Bool := hasRoom s.dev 8 0 (loadPlane s.dev 0 lOp).hopLines
theorem test_array_room :
    (let b := (drainArr 0 1 { queue := [.clr 3 true none 0], acc0 := [(0, 1#4096)], acc1 := [(0, 1#4096)] } []).1; b.acc0 = [] ∧ b.acc1 = []) ∧
    headForwards (sHd []).dev 0 lOp.addr = true ∧ room (sHd []) = true ∧ room (sHd [(1, {})]) = false ∧
    nx (exec (.mloadComplete 0 0) (sHd [])) (fun t => t.dev.chainFly.map (·.1) == [1] && ((t.dev.core 0).arr 0).loading.isNone) = true ∧
    nx (exec (.mloadComplete 0 0) (sHd [(1, {})])) (fun t => ((t.dev.core 0).arr 0).loading.isSome) = true ∧
    (let w : Plane := { fmt := some 0, lines := (upto 128).map (fun i => (i, 0#1024)) }
     let s : State := mk { (sC 0).dev with chainFly := [(1, {}), (0, w)] }
     hasRoom s.dev 8 0 w.hopLines = false ∧ nx (exec (.chainPlaneArrive 0) s) (fun t => t.dev.chainFly.length == 2) = true) ∧
    rOp.vecSpans (sE {}).dev 0 = [] ∧
    nx (exec (.mrunStreamStart 0 0) (sE { pwr := .on, queue := [.run rOp] })) (fun t => ((t.dev.core 0).arr 0).runs.map (fun j => j.xs.map (·.take 2)) == [[[3, 0]]]) = true := by
  decide +kernel

/-- R192, R193, R195: a read passes both stages at its far base; one of another device sends a READ for its block. -/
def stage2Is (s : State) (b : Nat × Option Nat) : Bool := ((s.dev.core 0).wk0.all (fun x => match stage2 s.dev (s.dev.core 0) x false with
  | .ok y => y == b
  | .error _ => false))
def stage1Ok (s : State) : Bool := (s.dev.core 0).wk0.all (fun x => (stage1 s.dev (s.dev.core 0) 0 x).isNone)
def rWords : List W32 := dWords.set 1 0x01BF0008#32
def sRr : State := mk (dRt.setCore 0 { mode := .running, wk0 := [{ xf0 with words := rWords, released := true, flag := some 9 }] })
theorem test_walker_start : stage1Ok sRd = true ∧ stage2Is sRd (0x800000000, none) = true ∧ (parseDsc dWords).mode = 0 ∧ (parseDsc dWords).remote = false ∧
    stage1Ok sRr = true ∧ stage2Is sRr (0x800000000, some 191) = true ∧ (parseDsc rWords).remote = true ∧ farDev sRr.dev true (parseDsc rWords).far = some 191 ∧
    nx (exec (.walkerTransferStart 0 0) sRr) (fun t => (t.dev.core 0).wk0.map (fun x => (x.started, x.remote, x.mdev, x.sent.map (·.2))) ==
      [(true, true, some 191, [191 * 2 ^ 48 + 0x800000000])]) = true := by decide +kernel

/-- R428: an EP write reports a nonfatal error where Device Control lets it, a request in D3hot an unsupported one. -/
theorem test_errors_reported :
    nx (exec (.hostWrite 4 0 [1#8] true) (mk { dSv with pci := { devCtl := 2#16 } })) (fun t => t.dev.pci.devStat.getLsbD 1 && t.dev.pci.errMsgs == [.nonfatal]) = true ∧
    nx (exec (.hostWrite 4 0 [1#8] true) (mk { dSv with pci := { devCtl := 0#16 } })) (fun t => t.dev.pci.devStat.getLsbD 1 && t.dev.pci.errMsgs == []) = true ∧
    nx (exec (.hostWrite 4 0 [1#8] false) (mk { dSv with pci := { d3hot := true } })) (fun t => t.dev.pci.devStat.getLsbD 3 && t.dev.mem.cells == []) = true := by decide +kernel

/-- R240-R242: a ring in the stack at 0x1000: its record is taken and CMD_CONSUMED is counted there. -/
def dRl : Dev := ((((aft (.ringEnable 15 0xC0440000#32) (mk dOn)).dev.setRg .ttCmdBaseLo [15] 0x1000#32).setRg .ttCtl [] 1#32).store 0x1040 rTask)
theorem test_local_ring : ringLoc dRl 15 = true ∧ ringOn dRl 15 = true ∧ (∀ m : Fin 16, m ≠ 15 → ringOn dRl m.val = false) ∧ cmdLog dRl 15 = 4 ∧
    nx (exec (.ringPoll []) (mk dRl)) (fun t => t.dev.tt.fetched == [(15, rTask)] && t.dev.loadNat 0x1000 8 == 1 && t.dev.hostMem == []) = true := by decide +kernel

/-- R290, R291, R399, R430: host data while the function may not read, an encoder whose engine's output half is full, a picture and a sample read from a poisoned block. -/
def dFl : Dev := { dEn { xEn with jobs := [{ entry := eEn }] } with stk := { rt := [(11, rtOut 11)] } }
theorem test_media_waits :
    nx (exec (.data 143 eJp ⟨some hJp, true⟩) (mk { dJp { xJp with entries := [{ bytes := eJp, ts := 77 }] } with pci := {} })) (fun t =>
      (t.dev.stream 143).any (fun y => y.entries.length == 1)) = true ∧
    dFl.rtFull 11 1 = true ∧ nx (exec (.encodeInput 31) (mk dFl)) (fun t => (t.dev.enc 31).any (fun y => y.jobs.length == 1 && y.inCount == 0)) = true ∧
    nx (exec (.accessUnitComplete 31 [1#8]) (mk dFl)) (fun t => (t.dev.enc 31).any (fun y => y.jobs.length == 1 && y.outPos == 0)) = true ∧
    nx (exec (.encodeInput 31) (mk { dEn xEn with poison := [0x800000000] })) (fun t => (t.dev.enc 31).any (fun y => y.jobs == [{ entry := eEn, conceal := true }])) = true ∧
    nx (exec (.pictureDecodeComplete 143 1000 ⟨[], 0, [⟨1, ⟨0, 0, 0, 1, 1⟩, ⟨0, 0, 0, 1, 1⟩⟩]⟩ [] 2 0 []) (mk { dJp { xJp with cur := some pJp } with poison := [0x800101000] }))
      (fun t => (t.dev.stream 143).any (fun y => y.pics.map (·.conceal) == [true])) = true ∧
    nx (exec .sampleConvertComplete (mk { dSm (aOne { zAs with st := .converting }) 0 60 with poison := [0x800100000] })) (fun t =>
      ((t.dev.asm 15).slotAt 0 0).any (fun z => z.smp.any (·.conceal))) = true := by decide +kernel

/-- R336: a write that fails 8 times poisons what a queued read of its block takes. R353: RETRAIN is set while the port is off. -/
theorem test_poisoned_read :
    nx (exec (.writeParityError 15 8) (mk (dCh { sent := [wT], rq := [rE false false] }))) (fun t => (t.dev.chan 15).rq.map (·.pz) == [true]) = true ∧
    nx (exec (.linkRetrain 3) State.reset) (fun t => t.dev.flag .lnkCtl [3] 30 && lnkState t.dev 3 == 0) = true := by decide +kernel

/-- R351: the flit of a packet that is being discarded frees its place at once. -/
def oDr : OpenPkt := { queue := 4, hdr := pM, data := [], drop := true }
theorem test_dropped_flit : nx (exec (.flitReceive 3 fl1) (mk (dLk 2 { rxOpen := [oDr] }))) (fun t =>
    (t.dev.port 3).rxOpen == [oDr] && decide ((t.dev.port 3).ctl = some (.ack 1 [0, 0, 0, 0, 1])) && (t.dev.port 3).unacked == 0) = true := by decide +kernel

/-- R357, R359: an ARESULT retires the request it answers; requests and responses for device 191 go out on port 3. -/
def onward (c : Packet → Instr) (kind : Nat) : Bool :=
  let p := { pU kind with addr := BitVec.ofNat 56 (191 * 2 ^ 48), len := if kind = 1 ∨ kind = 0x81 then 1#8 else 0#8, aux := if kind = 3 then 5#8 else 0#8,
                          data := if kind = 0x81 then List.replicate 64 3#8 else if kind = 3 ∨ kind = 0x83 then List.replicate 32 0#8 else [] }
  headerOk p && (sent (c p) dRt == packetFlits (dRt.queueOf (kindClass kind) (dRt.vcFor 3 (some (3, 0)))) p)
theorem test_onward :
    nx (exec (.aresult 3 { pU 0x83 with data := List.replicate 32 0#8 }) (mk dRs)) (fun t => (t.dev.core 6).wk2.map (fun x => (x.accepted, x.sent, x.got.length)) == [(true, [], 32)]) = true ∧
    onward (.read 3) 1 = true ∧ onward (.atomic 3) 3 = true ∧ onward (.rdata 3) 0x81 = true ∧ onward (.aresult 3) 0x83 = true := by decide +kernel

/-- R435: an image in Commons for each slot; the write under way ends with its bytes in slot 1. -/
def dFlw (r : List Byte) : Dev := taking r dRc
theorem test_flash_job : (dFlw (rqB 0x21 [(8, 1, 2)])).curHdr = some (0, hdrB) ∧ (dFlw (rqB 0x21 [(8, 1, 2)])).boot.flash = none ∧
    (dFlw (rqB 0x21 [(8, 1, 2)])).reach 0x800000180 324 = true ∧ (dFlw (rqB 0x21 [(8, 1, 2)])).memAt = dRc.memAt ∧
    (let d := ({ dHd Dev.reset with boot := { flash := some ⟨1, false, [1#8, 2#8, 3#8], 7⟩ } } : Dev).flashDone
     d.flashRd 0xA00000 4 = [1#8, 2#8, 3#8, 0xFF#8] ∧ d.boot.flash = none ∧ d.svc.out.map (·.take 1) = [[0#8]]) := ⟨by decide +kernel, by decide +kernel, by decide +kernel, rfl, by decide +kernel⟩
/-- R446: slot 0, the preferred one, is blank; slot 1 passes (img_fw). -/
theorem test_fallback : imgReason ((dFw 1).flashAt 0x100000) true 0x900000 keyH 64 ≠ 0 ∧ (dFw 1).imgErr 0 = 0 ∧ (dFw 1).imgErr 1 = 0 ∧ recNat hdrB 6 1 = 0 := by decide +kernel

/-! ## Witnesses of the clauses on values -/

/-- R75, R103: a lane that is NaN or infinite is left out and flagged; half of 255 rounds to 128. -/
def sVn : State := run { vregs := [(3, fps 0x7FC00000), (4, fps 0xFF800000), (30, fps 0x3F800000), (31, fps 0x40000000)] }
def nfOf (c : Instr) (s : State) : NumFlags := ((aft c s).dev.core 0).nflags
theorem test_range_corners : Ready sVn 0 ∧ NoPending sVn 0 [] [3, 30, 31] [0] ∧
    lane 32 (((aft (.qracc site (vf 30 3 0 0 7 0)) sVn).dev.core 0).v 30) 31 = 0x3F800000 ∧ nfOf (.qracc site (vf 30 3 0 0 7 0)) sVn = nfNan ∧
    lane 32 (((aft (.qracc site (vf 30 4 0 0 7 0)) sVn).dev.core 0).v 31) 0 = 0x40000000 ∧ nfOf (.qracc site (vf 30 4 0 0 7 0)) sVn = nfFovf ∧
    tiesAway (2 ^ 23 * 255) (2 ^ 24) 128 ∧ ¬ tiesAway (2 ^ 23 * 255) (2 ^ 24) 127 := by
  refine ⟨ready_of (by decide +kernel), ?_⟩
  unfold NoPending tiesAway
  decide +kernel

/-- R75, R76, R104: 1/2 of range 1 is code 128; NSAT beyond 255; a range out of order, of no width at 0, of one NaN, of one infinity; 1 to 2 is
widened to 0 to 2. -/
theorem test_range_values : quantise 0x3F000000#32 0x3F800000#32 0 = (128, 0#8) ∧
    quantise 0x40000000#32 0x3F800000#32 0 = (255, nfNsat) ∧ quantise 0xBF800000#32 0x40000000#32 128 = (0, 0#8) ∧ dequantise 255 0x40000000#32 0 = 0x40000000#32 ∧
    qrange 0x40000000#32 0x3F800000#32 = (0x437F0000#32, 0, true, nfDegen) ∧ qrange 0#32 0x80000000#32 = (0x437F0000#32, 0, true, nfDegen) ∧
    qrange 0x7FC00000#32 0#32 = (0x437F0000#32, 0, true, nfNan ||| nfDegen) ∧ qrange 0#32 f32Inf = (0x437F0000#32, 0, true, nfFovf ||| nfDegen) ∧
    qrange 0x3F800000#32 0x40000000#32 = (0x40000000#32, 0, false, 0#8) ∧ qrange 0xBF800000#32 0x3F800000#32 = (0x40000000#32, 128, false, 0#8) ∧
    qrange 0xFF7FFFFF#32 f32Max = (f32Max, 255, false, nfFovf) ∧ f32Dec 1#32 = .fin false 1 (-149) ∧ f32Dec 0x3F800000#32 = .fin false (2 ^ 23) (-23) := by decide +kernel

/-- R117, R119: SUB s1 in S1 beside ADD s2; both into s2; VBCAST of s1 and ST of v1 beside ADD s1. -/
def subTo (d : BitVec 6) : BitVec 64 := 0x02#8 ++ d ++ 1#6 ++ 2#6 ++ 0#38
def bcWord : BitVec 64 := 0x0F#8 ++ 31#6 ++ 0#6 ++ 1#6 ++ 0#4 ++ 0#3 ++ 1#1 ++ 0#6 ++ 0#24
def stWord : BitVec 64 := 0x02#8 ++ 1#6 ++ 1#6 ++ 0#6 ++ 0#4 ++ 0#2 ++ 0#6 ++ 0#2 ++ 0#24
def sBu : State := run { sregs := [(1, 0x80#64), (2, 3#64)], vregs := [(1, ones 0xAB)] }
def fA (d : BitVec 6) : SFields := ⟨d, 1#6, 2#6, 0#38⟩
theorem test_bundle_pairs : Ready sBu 0 ∧ (sFields (subTo 1) = ⟨1#6, 1#6, 2#6, 0#38⟩) ∧ (subTo 2).extractLsb' 56 8 = scalarRegOps[1] ∧
    nx (exec (.add ⟨0, [⟨1, subTo 1⟩]⟩ false (fA 2)) sBu) (fun t => (t.dev.core 0).s 2 == 0x83#64 && (t.dev.core 0).s 1 == 0x7D#64) = true ∧
    nx (exec (.add ⟨0, [⟨1, subTo 2⟩]⟩ false (fA 2)) sBu) (fun t => (t.dev.core 0).mode == .aborting && bits (t.dev.rg .coreExc [0]).toNat 7 0 == Cause.bundleConflict.code) = true ∧
    nx (exec (.add ⟨0, [⟨1, subTo 0⟩]⟩ false (fA 0)) sBu) (fun t => (t.dev.core 0).mode == .running) = true ∧
    (vFields bcWord).vb = 1#6 ∧ (vFields bcWord).sb = true ∧ (vFields bcWord).vc = 0#6 ∧ (vFields bcWord).imm = 0#24 ∧ bcWord.extractLsb' 56 8 = 0x0F#8 ∧
    nx (exec (.add ⟨0, [⟨2, bcWord⟩]⟩ true (fA 1)) sBu) (fun t => (t.dev.core 0).s 1 == 0x83#64 && lane 8 ((t.dev.core 0).v 31) 127 == 0x80) = true ∧
    (lFields stWord).vd = 1#6 ∧ (lFields stWord).sa = 1#6 ∧ (lFields stWord).r1 = 0#6 ∧ (lFields stWord).r2 = 0#8 ∧ stWord.extractLsb' 56 8 = 0x02#8 ∧
    BanksFree sBu 0 0x80 128 ∧
    nx (exec (.add ⟨0, [⟨3, stWord⟩]⟩ false (fA 1)) sBu) (fun t => (t.dev.core 0).s 1 == 0x83#64 && t.dev.mem.rd (satBase 0 + 0x80) == 0xAB#8 &&
      t.dev.mem.rd (satBase 0 + 0xFF) == 0xAB#8 && t.dev.mem.rd (satBase 0 + 0x100) == 0#8) = true := by
  refine ⟨ready_of (by decide +kernel), ?_⟩
  unfold BanksFree
  decide +kernel

/-- R109, R123, R131, R164, R170: an aborting core's load, run and epilogue write nothing; a stream behind a prologue of a G4 plane; an epilogue older
than the load whose bytes it does not touch. -/
def sAb (a : ArrSt) : State := mk ((sE a).dev.modCore 0 (fun c => { c with mode := .aborting, abort := some 0x10#8 }))
def rJob : RunJob := ⟨rOp, { fmt := some 0, lines := [(0, 3#1024)] }, [[2]], 0, 0, 0, 1, []⟩
def eJob : EpiJob := ⟨eOp, [(127, 5#4096)], [], 0, 0, 512, [], []⟩
theorem test_aborting :
    nx (exec (.mloadComplete 0 0) (sAb { loading := some lOp })) (fun t => !(t.dev.core 0).f 7 && ((t.dev.core 0).arr 0).shadow.el 0 0 0 == 0 && ((t.dev.core 0).arr 0).loading.isNone) = true ∧
    nx (exec (.mrunComplete 0 0) (sAb { runs := [rJob] })) (fun t => !(t.dev.core 0).f 5 && ((t.dev.core 0).arr 0).acc0 == [] && ((t.dev.core 0).arr 0).runs == []) = true ∧
    nx (exec (.mepiComplete 0 0) (sAb { epis := [eJob] })) (fun t => !(t.dev.core 0).f 6 && t.dev.mem.rd (satBase 0 + 0x8000) == 9#8 && ((t.dev.core 0).arr 0).epis == []) = true ∧
    nx (exec (.mrunStreamStart 0 0) (sE { pwr := .on, queue := [.run { rOp with fmt := 10, chain := 1 }] })) (fun t =>
      ((t.dev.core 0).arr 0).runs.map (fun j => (j.pitch, j.lead, j.xs.map (·.length))) == [(2, 12, [256])]) = true ∧
    spansMeet { lOp with seq := 2 }.spans (eOp.spans (sE {}).dev 0) = false ∧
    nx (exec (.mloadComplete 0 0) (sE { loading := some { lOp with seq := 2 }, epis := [eJob] })) (fun t => (t.dev.core 0).f 7) = true ∧
    nx (exec (.mepiComplete 0 0) (sE { loading := some lOp, epis := [eJob] })) (fun t => (t.dev.core 0).f 6) = true := by decide +kernel

/-- R66, R130, R132: where the elements of a plane come from: INT8, FP16, the two halves of a G4 byte, the last group scale, a class scale. -/
def sPl (a : Nat) (b : Byte) : Dev := { Dev.reset with mem := { cells := [(satBase 0 + a, b)] } }
theorem test_plane_bytes :
    (loadPlane (sPl (0x4000 + 128 * 127 + 127) 5#8) 0 ⟨0x4000, 0, 0, 0, false, none, 0, none, 0⟩).el 0 127 127 = 5 ∧
    (loadPlane (sPl (0x4000 + 128 * 63 + 127) 5#8) 0 ⟨0x4000, 6, 0, 0, false, none, 0, none, 0⟩).el 6 63 63 = 0x500 ∧
    (loadPlane (sPl (0x4000 + 64 * 255 + 63) 0x97#8) 0 ⟨0x4000, 10, 0, 0, false, none, 0, none, 0⟩).el 10 255 126 = 7 ∧
    (loadPlane (sPl (0x4000 + 64 * 255 + 63) 0x97#8) 0 ⟨0x4000, 10, 0, 0, false, none, 0, none, 0⟩).el 10 255 127 = 9 ∧
    lane 8 (spGet 0#1024 (loadPlane (sPl (0x9000 + 128 * 3 + 127) 5#8) 0 ⟨0x4000, 8, 0, 0x9000, false, none, 0, none, 0⟩).scales 3) 127 = 5 ∧
    bits (classScales (loadPlane (sPl (0x9000 + 512 + 255) 5#8) 0 ⟨0x4000, 8, 0, 0x9000, false, none, 0, none, 0⟩) 8).toNat 2047 2032 = 0x500 := by decide +kernel

/-- R67, R137, R141-R143, R147: the unmasked lanes of a G4 vector; L1 saturates; the least of two sums; FP16's 1 + 1 in order; a group of 3 × 2 scaled by 17,
and past the largest long value. -/
def gW : Plane := { fmt := some 8, lines := [(0, 3#1024)], scales := [(0, 1#1024)] }
theorem test_landing_columns :
    ((colPairs { rOp with fmt := 10, mask := 1#128 } {} (upto 256) 0).map (·.2) = [0, 1]) ∧
    intCol { rOp with mode := 1, clr := false } [(3, 5)] 0x7FFFFFFE#32 = (0x7FFFFFFF#32, nfAsat) ∧
    intCol { rOp with mode := 3 } [(3, 5), (255, 1)] 0#32 = (0#32, 0#8) ∧ intCol { rOp with mode := 4, clr := false } [(3, 5)] 9#32 = (9#32, 0#8) ∧
    intCol { rOp with mode := 5 } [(3, 5)] 0#32 = (2#32, 0#8) ∧
    (floatCol { rOp with fmt := 6 } [(0x3C00, 0x3C00), (0x3C00, 0x3C00)] 0#32) = (0x40000000#32, 0#8) ∧
    (floatCol { rOp with fmt := 6, mode := 3 } [] 0#32).1 = f32Inf ∧
    groupCol { rOp with fmt := 8 } gW ((upto 128).map (fun k => if k = 0 then 2 else 0)) 0 9 = (102, 0#8) ∧
    groupCol { rOp with fmt := 8, clr := false } gW ((upto 128).map (fun k => if k = 0 then 2 else 0)) 0 (2 ^ 63 - 102) = (2 ^ 63 - 1, nfLsat) ∧
    gW.gsize < 3 ∧ ((upto 128).map (fun k => if k = 0 then 2 else 0) : List Nat).length = vecLen 8 := by decide +kernel

/-- R143, R145: a grouped row lands in both planes, and leaves the class scales of its plane. -/
theorem test_grouped_landing :
    nx (exec (.mrunComplete 0 0) (sE { runs := [{ rJob with op := { rOp with fmt := 8 }, w := gW, xs := [2 :: List.replicate 127 0] }] })) (fun t =>
      accEl (spGet 0#4096 ((t.dev.core 0).arr 0).acc0 127) 0 == 102#32 && accEl (spGet 0#4096 ((t.dev.core 0).arr 0).acc1 127) 0 == 0#32) = true ∧
    nx (exec (.mrunComplete 0 0) (sE { acc1 := [(3, 1#4096)], runs := [{ rJob with op := { rOp with pair := true } }] })) (fun t =>
      ((t.dev.core 0).arr 0).acc1 == [] && accEl (spGet 0#4096 ((t.dev.core 0).arr 0).acc0 127) 0 == 6#32) = true := by decide +kernel

/-- R74, R165, R166: column 0 alone: (5 + bias 1) × 3 / 2 is 9 on the integer path; 5 as INT8 on the float path without a step; byte 1 is as before. -/
def dEp (ctl : Nat) : Dev := (({ (sE {}).dev with mem := { cells := [(satBase 0 + 0x8001, 9#8), (satBase 0 + 0x9000, 1#8), (satBase 0 + 0x9004, 3#8)] } } : Dev).setRg .coreChdCtl [0, 0]
  (BitVec.ofNat 32 ctl)).setRg .coreChdP [0, 0, 0] 0x9000#32 |>.setRg .coreChdP [0, 0, 1] 1#32
def jEp : EpiJob := { eJob with op := { eOp with chain := 1 } }
theorem test_epilogue_values : efmtOf (chd (dEp (2 ^ 29)) 0 1).fmt = some .int8 ∧ (chd (dEp (2 ^ 29)) 0 1).ncol = 0 ∧ (chd (dEp 0) 0 1).ops.getD 0 0 = 0 ∧
    (let t := epilogue 0 jEp (dEp (2 ^ 29)); t.mem.rd (satBase 0 + 0x8000) = 9#8 ∧ t.mem.rd (satBase 0 + 0x8001) = 9#8) ∧
    (let t := epilogue 0 jEp (dEp 0); t.mem.rd (satBase 0 + 0x8000) = 5#8 ∧ t.mem.rd (satBase 0 + 0x8001) = 9#8) ∧
    intEpilogue 5 1 3 1 0 (-128) 127 0 0 = (9, 0#8) ∧ intEpilogue 1 0 1 1 0 (-128) 127 0 0 = (1, 0#8) ∧ intEpilogue (-1) 0 1 1 0 (-128) 127 0 0 = (-1, 0#8) ∧
    intEpilogue 500 0 1 0 0 (-128) 127 2 6 = (6, nfNsat) ∧ intEpilogue (-500) 0 1 0 3 (-128) 127 1 0 = (3, nfNsat) := by decide +kernel

/-! ## Witnesses of the clauses on transfers, waits and order -/

/-- R188, R189: a tile of 16 bytes of which 12 lie in the tensor: the positions differ in their bytes, the four beyond are padded, and a write of it leaves the
far bytes beyond the tensor. -/
def dWp : List W32 := dWords.set 4 0x0010000C#32
def xWp : Xfer := { xf0 with words := dWp, padv := 5#32 }
def dMv : Dev := { Dev.reset with mem := { cells := [(0x80000000B, 7#8), (0x80000000C, 8#8), (satBase 0 + 0x100, 9#8)] } }
theorem test_mode0 : (parseDsc dWp).mode = 0 ∧ (parseDsc dWp).fmc = 0 ∧ (parseDsc dWp).ffmt = (parseDsc dWp).nfmt ∧ (parseDsc dWp).nf.bits = 8 ∧
    (∀ i j : Nat → Nat, ∀ a b, (∀ k, k < 5 → i k < (parseDsc dWp).tl k) → (∀ k, k < 5 → j k < (parseDsc dWp).tl k) → a < 1 → b < 1 →
      (parseDsc dWp).near + i 0 * 1 + a = (parseDsc dWp).near + j 0 * 1 + b → ∀ k, k < 5 → i k = j k) := by
  refine ⟨by decide, by decide, by decide, by decide, fun i j a b hi hj ha hb h k hk => ?_⟩
  have t : ∀ k, k < 5 → (parseDsc dWp).tl k = if k = 0 then 16 else 1 := by decide
  have e := hi k hk
  have g := hj k hk
  rw [t k hk] at e g
  by_cases z : k = 0
  · subst z; omega
  · simp only [z, if_false] at e g; omega
theorem test_mode0_bytes :
    (let t := moveRead dMv 0 xWp 0x800000000 dMv.mem.rd dMv.mem.rd dMv.mem.rd
     t.mem.rd (satBase 0 + 0x10B) = 7#8 ∧ t.mem.rd (satBase 0 + 0x10C) = 5#8 ∧ t.mem.rd (satBase 0 + 0x10F) = 5#8 ∧ t.mem.rd (satBase 0 + 0x110) = 0#8) ∧
    (let t := moveWrite dMv 0 xWp 0x800000000
     t.mem.rd 0x800000000 = 9#8 ∧ t.mem.rd 0x80000000B = 0#8 ∧ t.mem.rd 0x80000000C = 8#8) := by decide +kernel

/-- R14, R401: two held writes of one register and of two land in order, in the register and its core's image; a locked device stays locked. -/
def oWn : Nat := regOff .coreChdOut [0, 0]
def sHw (l : List (Nat × W32)) : State := mk ((Dev.reset.setFld .sysLock [] 0 0 1).setCore 0 { held := l })
theorem test_held_order : regAt oWn = some (.coreChdOut, [0, 0]) ∧ heldReg .coreChdOut = true ∧ spfuseAt .coreChdOut = none ∧ spfuseAt .coreWchCtl = none ∧
    (sHw []).dev.locked = true ∧ (sHw []).dev.logicalOf 0 < 6 ∧ 0x4000 ≤ oWn % 0x100000 ∧ oWn % 0x100000 < 0x5000 ∧
    nx (exec (.heldWriteApply 0) (sHw [(oWn, 1#32), (oWn, 2#32)])) (fun t => t.dev.rg .coreChdOut [0, 0] == mergeWrite true Reg.coreChdOut.fields (mergeWrite true Reg.coreChdOut.fields (Dev.reset.rg .coreChdOut [0, 0]) 1#32) 2#32 &&
      spGet 0#32 t.dev.coreImg ((oWn % 0x100000 - 0x4000) / 4) == t.dev.rg .coreChdOut [0, 0] && t.dev.locked && (t.dev.core 0).held == []) = true ∧
    nx (exec (.heldWriteApply 0) (sHw [(oWn, 1#32), (oWch, 3#32)])) (fun t => t.dev.rg .coreWchCtl [0] == 3#32 && (t.dev.core 0).held == []) = true := by decide +kernel

/-- R246, R247: the order goes by CLASS; a SPREAD entry with six idle cores starts on all; behind one that must wait the next starts on a core it does not hold. -/
def eSp : TEntry := { eT with spread := true, cores := 63, cls := 3 }
def sSp (l : List (Nat × TEntry)) (busy : List (Fin 7)) : State :=
  mk (busy.foldl (fun d p => d.modCore p (fun c => ({ c with mode := .running } : CoreSt))) { Dev.reset.setRg .ttCtl [] 1#32 with tt := { entries := l } })
def e5 : TEntry := { eT with cores := 33, seq := 1 }
theorem test_dispatch_order :
    (sSp [(1, e5), (0, eSp)] []).dev.order = [(0, eSp), (1, e5)] ∧ (sSp [(0, eSp)] []).dev.order = [(0, eSp)] ∧ (sSp [(0, eSp)] []).dev.entry 0 = some eSp ∧
    (∀ k : Fin 6, bit eSp.cores k = true ∧ (sSp [(0, eSp)] []).dev.idleCore k = true ∧ (sSp [(0, eSp)] []).dev.loadBlocks eSp.seq k = false ∧ (sSp [(0, eSp)] []).dev.slotOf k = k) ∧
    nx (exec .taskDispatch (sSp [(0, eSp)] [])) (fun t => ([0, 1, 2, 3, 4, 5] : List (Fin 7)).all (fun p => decide ((t.dev.core p).mode = .running) && (t.dev.core p).pc == 4095 &&
      (t.dev.core p).s 4 == BitVec.ofNat 64 p.val) && t.dev.tt.entries.map (fun e => e.2.live) == [[0, 1, 2, 3, 4, 5]]) = true ∧
    bit e5.cores 0 = true ∧ bit e5.cores 5 = true ∧ (sSp [(1, e5), (0, { eSp with cores := 3 })] [1]).dev.idleCore 1 = false ∧
    nx (exec .taskDispatch (sSp [(1, e5), (0, { eSp with cores := 3 })] [1])) (fun t => decide ((t.dev.core 5).mode = .running) && decide ((t.dev.core 0).mode = .idle)) = true ∧
    nx (exec .taskDispatch (sSp [(1, { e5 with cores := 1 }), (0, { eSp with cores := 3 })] [1])) (fun t => decide ((t.dev.core 0).mode = .idle)) = true := by decide +kernel

/-- R311: EN written while a job is unfinished reads 1 at once, takes no job, and the block is read when the job is complete; a full completion ring waits. -/
def pAg : PrimSt := { pPr with again := true, cur := some (rPr, ⟨0#8, false, false, 1, 1⟩) }
theorem test_primer_again :
    nx (exec .primerEnable (mk (dPr 0 { pPr with cur := pAg.cur }))) (fun t => primOn t.dev && decide (t.dev.med.prim = pAg)) = true ∧
    nx (exec .primerPoll (mk (dPo 0 pAg))) (fun t => decide (t.dev.med.prim = pAg)) = true ∧ primOn (dPo 0 pAg) = true ∧
    nx (exec .tokeniseComplete (mk (dPo 0 pAg))) (fun t => primOn t.dev && decide (t.dev.med.prim = { blk := bPr })) = true ∧
    2 ^ pAg.cplLog = 16 ∧ nx (exec .tokeniseComplete (mk (dPo 0 { pAg with cplCount := 16 }))) (fun t => decide (t.dev.med.prim = { pAg with cplCount := 16 })) = true ∧
    nx (exec .tokeniseComplete (mk (dPo 0 { pAg with jobs := [rPr] }))) (fun t => t.dev.med.prim.again && t.dev.med.prim.jobs == [rPr] && t.dev.med.prim.cplCount == 1) = true := by decide +kernel

/-- R336: a write that fails beside a queued write of its whole block poisons the read before that write, and neither its block nor the read behind it. -/
theorem test_rewritten :
    nx (exec (.writeParityError 15 8) (mk (dCh { sent := [wT], wq := [wE blkT (BitVec.allOnes 64)], rq := [rE false false, rE true false] }))) (fun t =>
      (t.dev.chan 15).rq.map (·.pz) == [true, false] && t.dev.poison == [] && t.dev.fld .memChErr [15] 23 16 == 1) = true := by decide +kernel

/-- R276, R291: a line of a frame takes its place in the buffer of the port the frame came by. -/
theorem test_line_level :
    nx (exec (.csiLinePacket 3 15 0x2A#6 0 false false [5#8]) (mk (dCp { xCp with frame := some fCp } 0))) (fun t => t.dev.rtUsed 3 == 4) = true ∧
    nx (exec (.csiLinePacket 3 15 0x2A#6 0 false false [5#8]) (mk (dCp { xCp with frame := some fCp } byp))) (fun t => t.dev.rtUsed 3 == 4 && spGet 0 t.dev.stk.rtByp 3 == 4) = true ∧
    (dCp xCp 0).rtFull 3 1 = false ∧ ({ dCp xCp 0 with stk := { rt := [(3, 131072)] } } : Dev).rtFull 3 1 = true := by decide +kernel

/-- R379, R449: a supply reset while the device is held in reset joins the causes whatever the rail's voltage. R83: no plane of a tile is left. R409: the watch of a tile
in the rotation's pause. -/
theorem test_held_supply :
    nx (exec .supplyReset (mk { Dev.reset.setRg .secReset [] 0x4FFFF#32 with stop := some .reset })) (fun t => t.dev.fld .secReset [] 31 0 == 0x3FFFF) = true ∧
    nx (exec (.tile site ⟨0, 0, 0, 0, false, 0, 0, 0, 0⟩) (run { arrA := { shadow := { fmt := some 0, gsize := 1 } }, div0 := some ⟨1, 7#64⟩ })) (fun t => decide ((t.dev.core 0).arrA.shadow = {}) &&
      (t.dev.core 0).ckpt.sregs == [(1, 7#64)]) = true ∧
    (run {}).dev.wdSuspended = false := by decide +kernel

/-- R424: D3hot and back by the Power Management capability; a state that is neither stays. -/
theorem test_power_capability :
    nx (exec (.hostWrite 15 0x84 [3#8] false) (mk dSv)) (fun t => t.dev.pci.d3hot) = true ∧
    nx (exec (.hostWrite 15 0x84 [0#8] false) (mk { dSv with pci := { d3hot := true } })) (fun t => !t.dev.pci.d3hot) = true ∧
    nx (exec (.hostWrite 15 0x84 [1#8] false) (mk { dSv with pci := { d3hot := true } })) (fun t => t.dev.pci.d3hot) = true := by decide +kernel

/-! ## Ill-formed commands -/

/-- A bundle whose other word stands in place `n`. -/
def twice (n : Nat) : Site := ⟨0, [⟨Fin.ofNat 8 n, 1#64⟩]⟩
def sF : SFields := ⟨0, 0, 0, 0⟩
def vF : VFields := ⟨0, 0, 0, 0, 0, false, 0, 0⟩
/-- A packet of a kind with `len` and `n` data bytes. -/
def pk (kind len n : Nat) : Packet :=
  ⟨0, BitVec.ofNat 8 kind, 0, 0, 0, BitVec.ofNat 8 len, 0, 0, 0, 0, 0, List.replicate n 0#8⟩

/-- R90: a word in the operation's own place, or two in one place; a bundle with different places is accepted. -/
theorem test_wf_site : (Instr.add (twice 0) false sF).wf = false ∧ (Instr.add (twice 1) true sF).wf = false ∧ (Instr.vadd (twice 2) vF).wf = false ∧
    (Instr.add ⟨0, [⟨3, 1#64⟩, ⟨3, 2#64⟩]⟩ false sF).wf = false ∧ (Instr.nop (twice 7) 7).wf = false ∧
    (∀ f, (Instr.ld (twice 3) false f).wf = false) ∧ (∀ f, (Instr.ld (twice 4) true f).wf = false) ∧ (∀ f, (Instr.mload (twice 5) f).wf = false) ∧
    (∀ f, (Instr.walk (twice 6) f).wf = false) ∧ (∀ f, (Instr.jmp (twice 7) f).wf = false) ∧ (Instr.add ⟨0, [⟨3, 1#64⟩, ⟨4, 2#64⟩]⟩ false sF).wf = true := by
  refine ⟨by decide, by decide, by decide, by decide, by decide, fun _ => ?_, fun _ => ?_, fun _ => ?_, fun _ => ?_, fun _ => ?_, by decide⟩ <;>
  · simp only [Instr.wf]; decide

/-- R13, R17, R425: an offset out of range or misaligned, an unknown BAR, an empty or overlong access. -/
theorem test_wf_access : (Instr.registerWrite 0x10000000 0#32).wf = false ∧ (Instr.registerWrite 2 0#32).wf = false ∧ (Instr.registerWrite 0xFFFFFFC 0#32).wf = true ∧
    (Instr.hostRead 1 0 4).wf = false ∧ (Instr.hostRead 0 0 0).wf = false ∧ (Instr.hostRead 0 0 4097).wf = false ∧ (Instr.hostRead 4 0 4096).wf = true ∧
    (Instr.hostWrite 3 0 [0#8] false).wf = false ∧ (Instr.hostWrite 0 0 [] false).wf = false ∧ (Instr.hostWrite 0 0 (List.replicate 513 0#8) false).wf = false := by decide +kernel

/-- Records, requests and lists of a wrong length; addresses out of range or misaligned. -/
theorem test_wf_lengths :
    (∀ f ∈ [Instr.task 0, Instr.load 0, Instr.mark 0, Instr.tokenise], (f []).wf = false ∧ (f (List.replicate 64 0#8)).wf = true) ∧
    (∀ f ∈ [Instr.streamOpen, .streamClose, .encodeOpen, .encodeClose, .faultConfig, .test, .marionette, .lease, .settingsWrite, .flashWrite, .svnCommit,
        .ownerProvision, .identity, .attest, fun r => .debugChallenge r 0, .debugUnlock, .reset], (f []).wf = false ∧ (f (List.replicate 64 0#8)).wf = true) ∧
    (∀ f ∈ [Instr.ringPoll, .bitstreamPoll, .servicePoll], (f [(2 ^ 64, 0#8)]).wf = false ∧ (f [(2 ^ 64 - 1, 0#8)]).wf = true) ∧
    (Instr.data 0 [] ⟨none, true⟩).wf = false ∧ (Instr.eos 0 []).wf = false ∧ (∀ h o w, (Instr.staffCoreAmo h o w (2 ^ 64) 0).wf = false) ∧
    (∀ h w, (Instr.staffCoreLr h w (2 ^ 64)).wf = false) ∧ (∀ h w, (Instr.staffCoreSc h w (2 ^ 64) 0).wf = false) ∧
    (Instr.arbiterRequest 0 0 0 (.transfer 0 true)).wf = false ∧ (Instr.arbiterRequest 0 0 0 (.transfer 17 true)).wf = false ∧
    (Instr.arbiterRequest 83 0 0 (.transfer 16 false)).wf = true ∧ (Instr.droopTrip ⟨0, []⟩).wf = false ∧ (Instr.hostRead 15 0 64).wf = true ∧ (Instr.hostRead 15 61 4).wf = true ∧ (Instr.hostWrite 15 0x84 [3#8] false).wf = true ∧
    (Instr.stackReadAccept 0 0 0 ⟨32, 33⟩).wf = false ∧ (Instr.stackWriteAccept 0 0 0 32 0 (List.replicate 64 0#8)).wf = false ∧
    (Instr.stackWriteAccept 0 0 0 64 0 []).wf = false ∧ (Instr.linkAck 0 0 [1, 2, 3, 4]).wf = false ∧ (Instr.grant []).wf = false ∧
    (Instr.grant [0#8]).wf = false ∧ (Instr.thermalSample []).wf = false := by
  refine ⟨by decide, by decide, by decide, by decide, by decide, fun _ _ _ => ?_, fun _ _ => ?_, fun _ _ => ?_, by decide⟩ <;>
  · simp only [Instr.wf]; decide

/-- R356, R357: each kind with its own length and data is accepted; another kind, length or number of data bytes is not. -/
theorem test_wf_packets :
    (∀ e ∈ [(Instr.read 0, 0x01, 4, 0), (.write 0, 0x02, 4, 256), (.atomic 0, 0x03, 0, 32), (.barArrive 0, 0x04, 0, 0), (.mgmt 0, 0x10, 1, 64), (.rdata 0, 0x81, 4, 256),
        (.wack 0, 0x82, 0, 0), (.aresult 0, 0x83, 0, 32), (.barRelease 0, 0x84, 0, 0), (.error 0, 0x8F, 0, 0)],
      (e.1 (pk e.2.1 e.2.2.1 e.2.2.2)).wf = true ∧ (e.1 (pk 0x20 e.2.2.1 e.2.2.2)).wf = false ∧ (e.1 (pk e.2.1 5 (if e.2.1 = 2 then 320 else e.2.2.2))).wf = false ∧
      (e.1 (pk e.2.1 e.2.2.1 1)).wf = false ∧ (e.1 { pk e.2.1 e.2.2.1 e.2.2.2 with flags := 2#8 }).wf = false) := by decide +kernel

end Sys2Proof.Tests
end

section
/-! PROOFS. Bit fields, and the place a register's offset names. -/

namespace Sys2Proof.Machine

/-! ## Bits of a number -/

theorem testBit_bits (x hi lo j : Nat) : (bits x hi lo).testBit j = (decide (j < hi + 1 - lo) && x.testBit (lo + j)) := by
  rw [bits, Nat.testBit_mod_two_pow, Nat.testBit_shiftRight]

theorem bit_eq_testBit (x i : Nat) : bit x i = x.testBit i := by
  rw [bit, Nat.shiftRight_eq_div_pow, Nat.testBit_eq_decide_div_mod_eq]
  rfl

/-- A number with a field replaced, as the bits above, the field and the bits below. -/
theorem setBits_eq (x hi lo v : Nat) :
    setBits x hi lo v = 2 ^ lo * (2 ^ (hi + 1 - lo) * (x / 2 ^ lo / 2 ^ (hi + 1 - lo)) + v % 2 ^ (hi + 1 - lo)) + x % 2 ^ lo := by
  have below := Nat.div_add_mod x (2 ^ lo)
  have field := Nat.div_add_mod (x / 2 ^ lo) (2 ^ (hi + 1 - lo))
  have split : x = 2 ^ lo * (2 ^ (hi + 1 - lo) * (x / 2 ^ lo / 2 ^ (hi + 1 - lo))) +
      x / 2 ^ lo % 2 ^ (hi + 1 - lo) * 2 ^ lo + x % 2 ^ lo := by
    rw [Nat.mul_comm (x / 2 ^ lo % _), ← Nat.mul_add, field, below]
  have hv := Nat.mul_comm (v % 2 ^ (hi + 1 - lo)) (2 ^ lo)
  rw [setBits, bits, Nat.shiftRight_eq_div_pow, Nat.mul_add]
  omega

theorem testBit_setBits (x hi lo v k : Nat) :
    (setBits x hi lo v).testBit k = if lo ≤ k ∧ k < hi + 1 then v.testBit (k - lo) else x.testBit k := by
  rw [setBits_eq, Nat.testBit_two_pow_mul_add _ (Nat.mod_lt _ (Nat.two_pow_pos lo)),
    Nat.testBit_two_pow_mul_add _ (Nat.mod_lt _ (Nat.two_pow_pos _))]
  by_cases below : k < lo
  · rw [if_pos below, if_neg (by omega), Nat.testBit_mod_two_pow, decide_eq_true below, Bool.true_and]
  · rw [if_neg below]
    by_cases inside : k - lo < hi + 1 - lo
    · rw [if_pos inside, if_pos (by omega), Nat.testBit_mod_two_pow, decide_eq_true inside, Bool.true_and]
    · rw [if_neg inside, if_neg (by omega), Nat.testBit_div_two_pow, Nat.testBit_div_two_pow]
      congr 1
      omega

theorem bits_setBits_same (x hi lo v : Nat) : bits (setBits x hi lo v) hi lo = v % 2 ^ (hi + 1 - lo) := by
  refine Nat.eq_of_testBit_eq (fun j => ?_)
  rw [testBit_bits, testBit_setBits, Nat.testBit_mod_two_pow]
  by_cases h : j < hi + 1 - lo
  · rw [if_pos (by omega), Nat.add_sub_cancel_left]
  · simp [h]

/-- A field of a register sees nothing above bit 31. -/
theorem bits_ofNat (x lo : Nat) {hi : Nat} (h : hi < 32) : bits (BitVec.ofNat 32 x).toNat hi lo = bits x hi lo := by
  refine Nat.eq_of_testBit_eq (fun j => ?_)
  rw [testBit_bits, testBit_bits, BitVec.testBit_toNat, BitVec.getLsbD_ofNat]
  by_cases hj : j < hi + 1 - lo
  · rw [decide_eq_true (show lo + j < 32 by omega), Bool.true_and]
  · simp [hj]

/-- Two words with the same bits from `lo` to `hi` have the same field there. -/
theorem bits_congr {x y : W32} {hi lo : Nat} (h : ∀ k, lo ≤ k → k ≤ hi → x.getLsbD k = y.getLsbD k) :
    bits x.toNat hi lo = bits y.toNat hi lo := by
  refine Nat.eq_of_testBit_eq (fun j => ?_)
  rw [testBit_bits, testBit_bits, BitVec.testBit_toNat, BitVec.testBit_toNat]
  by_cases hj : j < hi + 1 - lo
  · rw [h _ (by omega) (by omega)]
  · simp [hj]

theorem Dev.flag_eq_getLsbD (d : Dev) (r : Reg) (i : List Nat) (k : Nat) : d.flag r i k = (d.rg r i).getLsbD k := by
  rw [Dev.flag, bit_eq_testBit, BitVec.testBit_toNat]

/-- A field set from the hardware side holds what was set. -/
theorem Dev.fld_setFld_same (d : Dev) (r : Reg) (i : List Nat) (lo v : Nat) {hi : Nat} (h : hi < 32) :
    (d.setFld r i hi lo v).fld r i hi lo = v % 2 ^ (hi + 1 - lo) := by
  rw [Dev.fld, Dev.setFld, Dev.rg_setRg_same, bits_ofNat _ _ h, bits_setBits_same]

/-- A counter counts up to its largest value. -/
theorem Dev.fld_incSat_same (d : Dev) (r : Reg) (i : List Nat) (lo n : Nat) {hi : Nat} (h : hi < 32) :
    (d.incSat r i hi lo n).fld r i hi lo = min (d.fld r i hi lo + n) (2 ^ (hi + 1 - lo) - 1) := by
  have largest : min (d.fld r i hi lo + n) (2 ^ (hi + 1 - lo) - 1) < 2 ^ (hi + 1 - lo) :=
    Nat.lt_of_le_of_lt (Nat.min_le_right _ _) (Nat.sub_lt (Nat.two_pow_pos _) Nat.one_pos)
  rw [Dev.incSat, Dev.fld_setFld_same _ _ _ _ _ h, Nat.mod_eq_of_lt largest]

/-! ## The register at an offset -/

/-- The indices at a distance sum up, by their strides, to the distance. -/
theorem regIdx_sum {dims : List (Nat × Nat)} {x : Nat} {is : List Nat} (h : regIdx dims x = some is) :
    ((dims.zip is).map (fun e => e.1.2 * e.2)).sum = x := by
  induction dims generalizing x is with
  | nil =>
    simp only [regIdx, Option.ite_none_right_eq_some] at h
    simp [h.1]
  | cons e rest ih =>
    obtain ⟨n, stride⟩ := e
    simp only [regIdx, Option.ite_none_right_eq_some, Option.map_eq_some_iff] at h
    obtain ⟨-, js, hjs, rfl⟩ := h
    rw [List.zip_cons_cons, List.map_cons, List.sum_cons, ih hjs, Nat.div_add_mod]

/-- A register found in a list lies at its place, by its indices. -/
theorem regFind_place {off : Nat} {l : List Reg} {r : Reg} {is : List Nat} (h : regFind off l = some (r, is)) :
    r.place.base ≤ off ∧ regIdx r.place.dims (off - r.place.base) = some is := by
  induction l with
  | nil => simp [regFind] at h
  | cons x rest ih =>
    rw [regFind] at h
    split at h
    · rename_i above
      split at h
      · rename_i js found
        obtain ⟨rfl, rfl⟩ : x = r ∧ js = is := by simpa using h
        exact ⟨above, found⟩
      · exact ih h
    · exact ih h

/-- `regOff` undoes `regAt`. -/
theorem regOff_of_regAt {off : Nat} {r : Reg} {is : List Nat} (h : regAt off = some (r, is)) : regOff r is = off := by
  obtain ⟨above, found⟩ := regFind_place h
  rw [regOff, ← List.sum_eq_foldl_nat, regIdx_sum found]
  omega

/-- How far the places of an indexed register reach from the first one, by its outermost index; 1 where there is only one. -/
def dimSpan : List (Nat × Nat) → Nat
  | [] => 1
  | (n, stride) :: _ => n * stride

theorem lt_dimSpan {dims : List (Nat × Nat)} {x : Nat} {is : List Nat} (h : regIdx dims x = some is)
    (pos : ∀ e ∈ dims, 0 < e.2) : x < dimSpan dims := by
  cases dims with
  | nil => simp only [regIdx, Option.ite_none_right_eq_some] at h; simp [dimSpan, h.1]
  | cons e rest =>
    simp only [regIdx, Option.ite_none_right_eq_some] at h
    exact (Nat.div_lt_iff_lt_mul (pos e List.mem_cons_self)).mp h.1

/-- A register lies in the MiB of a slot, its outermost index the slot. -/
def inSlotMiB (r : Reg) : Bool :=
  match r.place.dims with
  | [] => false
  | e :: rest => decide (e = (7, 0x100000)) && rest.all (fun e => decide (0 < e.2)) &&
      decide (0x1000000 ≤ r.place.base ∧ r.place.base + dimSpan rest ≤ 0x1100000)

theorem inSlotMiB_of_heldReg (r : Reg) : heldReg r = true → inSlotMiB r = true := by
  cases r <;> decide

/-- A register that a running core holds lies in the MiB of its first index. -/
theorem heldReg_off {off p : Nat} {r : Reg} {is : List Nat} (h : regAt off = some (r, p :: is)) (held : heldReg r = true) :
    p < 7 ∧ 0x1000000 + p * 0x100000 ≤ off ∧ off < 0x1000000 + (p + 1) * 0x100000 := by
  obtain ⟨above, found⟩ := regFind_place h
  have place := inSlotMiB_of_heldReg r held
  unfold inSlotMiB at place
  split at place
  · cases place
  · rename_i e rest dims
    simp only [Bool.and_eq_true, decide_eq_true_eq, List.all_eq_true] at place
    obtain ⟨⟨rfl, pos⟩, low, high⟩ := place
    rw [dims] at found
    simp only [regIdx, Option.ite_none_right_eq_some, Option.map_eq_some_iff, List.cons.injEq] at found
    obtain ⟨slot, js, inner, rfl, rfl⟩ := found
    have := lt_dimSpan inner pos
    omega

end Sys2Proof.Machine
end

section
/-! PROOFS. What a register write leaves in each bit, what a read shows, and the accesses through BAR0. -/

namespace Sys2Proof.Machine

/-! ## The commands of the register space -/

theorem exec_registerWrite {s : State} (off : Nat) (v : W32) (h : s.dev.stop = none) :
    exec (.registerWrite off v) s = .next (s.put (s.dev.regWrite off v)) := onDev_go _ h

theorem exec_hostRead {s : State} (bar off len : Nat) (h : s.dev.stop = none) :
    exec (.hostRead bar off len) s = .next (s.put (s.dev.hostRead bar off len)) := onDev_go _ h

theorem exec_hostWrite {s : State} (bar off : Nat) (data : List Byte) (ep : Bool) (h : s.dev.stop = none) :
    exec (.hostWrite bar off data ep) s = .next (s.put (s.dev.hostWrite bar off data ep)) := onDev_go _ h

/-! ## Access types, bit by bit (R13, R14, R16) -/

theorem getLsbD_fieldMask (hi lo : Nat) {k : Nat} (h : k < 32) :
    (fieldMask hi lo).getLsbD k = decide (lo ≤ k ∧ k ≤ hi) := by
  rw [fieldMask, BitVec.getLsbD_ofNat, decide_eq_true h, Bool.true_and]
  by_cases le : lo ≤ hi + 1
  · have shifted : 2 ^ (hi + 1) - 2 ^ lo = (2 ^ (hi + 1 - lo) - 1) <<< lo := by
      rw [Nat.shiftLeft_eq, Nat.sub_mul, ← Nat.pow_add, Nat.sub_add_cancel le, Nat.one_mul]
    rw [shifted, Nat.testBit_shiftLeft, Nat.testBit_two_pow_sub_one, ← Bool.decide_and]
    exact decide_eq_decide.mpr (by omega)
  · have empty : 2 ^ (hi + 1) - 2 ^ lo = 0 := Nat.sub_eq_zero_of_le (Nat.pow_le_pow_right (by omega) (by omega))
    rw [empty, Nat.zero_testBit, eq_comm, decide_eq_false_iff_not]
    omega

/-- What a write leaves in a bit of a field with this access type. -/
def writtenBit (lock : Bool) (old new : Bool) : Access → Bool
  | .ro | .wo => old
  | .rw => new
  | .w1c => old && !new
  | .w1s => old || new
  | .rwl => if lock then old else new

/-- A field covers a bit. -/
def covers (k : Nat) (f : Nat × Nat × Access) : Bool := decide (f.2.1 ≤ k ∧ k ≤ f.1)

/-- The bits under a mask from one word, the others from another. -/
theorem getLsbD_splice (old new mask : W32) {k : Nat} (h : k < 32) :
    ((old &&& ~~~mask) ||| (new &&& mask)).getLsbD k = if mask.getLsbD k then new.getLsbD k else old.getLsbD k := by
  rw [BitVec.getLsbD_or, BitVec.getLsbD_and, BitVec.getLsbD_and, BitVec.getLsbD_not, decide_eq_true h]
  cases mask.getLsbD k <;> simp

theorem getLsbD_mergeField (lock : Bool) (new old : W32) (f : Nat × Nat × Access) {k : Nat} (h : k < 32) :
    (mergeField lock new old f).getLsbD k =
      if covers k f then writtenBit lock (old.getLsbD k) (new.getLsbD k) f.2.2 else old.getLsbD k := by
  obtain ⟨hi, lo, a⟩ := f
  have mask : covers k (hi, lo, a) = (fieldMask hi lo).getLsbD k := (getLsbD_fieldMask hi lo h).symm
  rw [mask]
  cases a with
  | ro | wo => exact (ite_self _).symm
  | rw => exact getLsbD_splice old new _ h
  | rwl =>
    cases lock with
    | false => exact getLsbD_splice old new _ h
    | true => exact (ite_self _).symm
  | w1c =>
    rw [mergeField, BitVec.getLsbD_and, BitVec.getLsbD_not, BitVec.getLsbD_and, decide_eq_true h]
    cases (fieldMask hi lo).getLsbD k <;> simp [writtenBit]
  | w1s =>
    rw [mergeField, BitVec.getLsbD_or, BitVec.getLsbD_and]
    cases (fieldMask hi lo).getLsbD k <;> simp [writtenBit]

/-- The fields of a register do not overlap. -/
theorem Reg.fields_descend (r : Reg) : r.fields.Pairwise (fun f g => g.1 < f.2.1) := by
  cases r <;> decide

/-- A write changes a bit by the access type of the field that covers it, and no reserved bit. -/
theorem getLsbD_mergeWrite (lock : Bool) {fields : List (Nat × Nat × Access)} (old new : W32) {k : Nat} (h : k < 32)
    (descend : fields.Pairwise (fun f g => g.1 < f.2.1)) :
    (mergeWrite lock fields old new).getLsbD k =
      ((fields.find? (covers k)).map (fun f => writtenBit lock (old.getLsbD k) (new.getLsbD k) f.2.2)).getD (old.getLsbD k) := by
  induction fields generalizing old with
  | nil => rfl
  | cons f rest ih =>
    obtain ⟨above, descend⟩ := List.pairwise_cons.mp descend
    have step : mergeWrite lock (f :: rest) old new = mergeWrite lock rest (mergeField lock new old f) new := rfl
    rw [step, ih _ descend, getLsbD_mergeField _ _ _ _ h, List.find?_cons]
    cases c : covers k f with
    | false => rfl
    | true =>
      have none_below : rest.find? (covers k) = none := List.find?_eq_none.mpr (fun g hg => by
        have := above g hg
        simp only [covers, decide_eq_true_eq] at c ⊢
        omega)
      rw [none_below]
      rfl

/-! ## A register's word as it is read (R13, R16) -/

/-- A fold whose every step can only set a bit sets it where some step does. -/
theorem getLsbD_foldl_or {α : Type} (l : List α) (m : W32) (k : Nat) (f : W32 → α → W32) (sets : α → Bool)
    (step : ∀ m x, (f m x).getLsbD k = (m.getLsbD k || sets x)) : (l.foldl f m).getLsbD k = (m.getLsbD k || l.any sets) := by
  induction l generalizing m with
  | nil => simp
  | cons x rest ih => rw [List.foldl_cons, ih, step, List.any_cons, Bool.or_assoc]

/-- What a read shows: the bits of fields that can be read. -/
theorem getLsbD_readMask (fields : List (Nat × Nat × Access)) {k : Nat} (h : k < 32) :
    (readMask fields).getLsbD k = fields.any (fun f => covers k f && decide (f.2.2 ≠ .wo)) := by
  rw [readMask, getLsbD_foldl_or fields 0#32 k _ (fun f => covers k f && decide (f.2.2 ≠ .wo)), BitVec.getLsbD_zero, Bool.false_or]
  intro m f
  by_cases wo : f.2.2 = .wo
  · simp [wo]
  · simp [wo, getLsbD_fieldMask _ _ h, covers]

theorem Dev.regVal_stored (d : Dev) {r : Reg} (i : List Nat) (h : r ∉ liveRegs) : d.regVal r i = d.rg r i &&& readMask r.fields := by
  unfold Dev.regVal
  split
  rotate_right
  · rfl
  all_goals exact absurd (by simp [liveRegs]) h

theorem Dev.readEffect_stored (d : Dev) {r : Reg} (i : List Nat) (h : r ∉ liveRegs) : d.readEffect r i = d := by
  unfold Dev.readEffect
  split
  rotate_right
  · rfl
  all_goals exact absurd (by simp [liveRegs]) h

/-! ## Register writes outside the CORE blocks -/

theorem Dev.unitWrite_plain (d : Dev) {r : Reg} (i : List Nat) (v : W32) (h : r ∉ effectRegs) :
    d.unitWrite r i v = d.plainWrite r i v := by
  unfold Dev.unitWrite
  split
  rotate_right
  · rfl
  all_goals exact absurd (by simp [effectRegs]) h

theorem Dev.regWrite_unit (d : Dev) {off : Nat} {r : Reg} {i : List Nat} (v : W32) (h : regAt off = some (r, i))
    (out : off < 0x1000000 ∨ 0x1800000 ≤ off) : d.regWrite off v = d.unitWrite r i v := by
  rw [Dev.regWrite, h]
  exact if_neg (by omega)

/-- A write where there is no register, nor the MSI-X table, is ignored (R17). -/
theorem Dev.regWrite_unused (d : Dev) {off : Nat} (v : W32) (h : regAt off = none) (out : off < 0x3810000 ∨ 0x3810400 ≤ off) :
    d.regWrite off v = d := by
  rw [Dev.regWrite, h]
  exact if_neg (by unfold msixBase; omega)

/-- A read where there is no register, nor the MSI-X structure, answers 0 (R17). -/
theorem Dev.regRead_unused (d : Dev) {off : Nat} (h : regAt off = none) (out : off < 0x3810000 ∨ 0x3811008 ≤ off) :
    d.regRead off = (0#32, d) := by
  rw [Dev.regRead, h]
  have table : ¬ (msixBase ≤ off ∧ off < msixBase + 1024) := by unfold msixBase; omega
  have low : off ≠ pbaBase := by unfold pbaBase; omega
  have high : off ≠ pbaBase + 4 := by unfold pbaBase; omega
  exact (if_neg table).trans ((if_neg low).trans (if_neg high))

/-! ## Words through BAR0 (R18, R425) -/

theorem Dev.barTakes_bar0 (d : Dev) {off len : Nat} (awake : d.pci.d3hot = false) (inside : off + len ≤ 0x10000000) (short : len ≤ 8) :
    d.barTakes 0 off len = true := by
  simp [Dev.barTakes, Dev.barSize, awake, inside, short]

/-- Reading one whole word through BAR0. -/
theorem Dev.hostRead_word (d : Dev) {off : Nat} (awake : d.pci.d3hot = false) (aligned : off % 4 = 0) (inside : off + 4 ≤ 0x10000000) :
    d.hostRead 0 off 4 =
      let x := if d.bar0Open off then d.regRead off else (0#32, d)
      x.2.answer (leBytes 4 x.1.toNat) false := by
  have word : off / 4 * 4 = off := by omega
  have one : ceilDiv (off + 4 - off) 4 = 1 := by rw [Nat.add_sub_cancel_left]; rfl
  simp only [Dev.hostRead, Dev.barTakes_bar0 d awake inside (by decide), Dev.hostReadRegs, word, one]
  simp [readWords, leBytes]

/-- No whole word of the request begins at `w` or above. -/
theorem writeWords_past (n : Nat) (d : Dev) {w off : Nat} {bs : List Byte} (part : ¬ (off ≤ w ∧ w + 4 ≤ off + bs.length))
    (last : off + bs.length < w + 8) : writeWords n d w off bs = d := by
  induction n generalizing w with
  | zero => rfl
  | succ n ih =>
    rw [writeWords, if_neg (fun h => part ⟨h.1, h.2.1⟩)]
    exact ih (by omega) (by omega)

/-- Writing one whole word through BAR0. -/
theorem Dev.hostWrite_word (d : Dev) {off : Nat} {data : List Byte} (awake : d.pci.d3hot = false) (aligned : off % 4 = 0)
    (inside : off + 4 ≤ 0x10000000) (len : data.length = 4) :
    d.hostWrite 0 off data false =
      if d.bar0Open off then d.regWrite off (BitVec.ofNat 32 (leNat data)) else d := by
  have word : off / 4 * 4 = off := by omega
  have takes := Dev.barTakes_bar0 d (off := off) (len := data.length) awake (by omega) (by omega)
  have whole : (data.drop (off - off)).take 4 = data := by
    rw [Nat.sub_self, List.drop_zero, ← len, List.take_length]
  have once : d.hostWrite 0 off data false = writeWords (data.length / 4 + 1 + 1) d off off data := by
    simp [Dev.hostWrite, takes, word]
  rw [once, writeWords, writeWords_past _ _ (by omega) (by omega), whole]
  simp [len]

/-- A part of a word written through BAR0 is discarded. -/
theorem Dev.hostWrite_part (d : Dev) {off : Nat} {data : List Byte} (awake : d.pci.d3hot = false) (inside : off + 4 ≤ 0x10000000)
    (short : data.length < 4) : d.hostWrite 0 off data false = d := by
  have takes := Dev.barTakes_bar0 d (off := off) (len := data.length) awake (by omega) (by omega)
  simp only [Dev.hostWrite, takes]
  exact writeWords_past _ d (by omega) (by omega)

/-- A word written and a word read where there is no register (R17). -/
theorem Dev.hostRead_unused (d : Dev) {off : Nat} (awake : d.pci.d3hot = false) (aligned : off % 4 = 0) (inside : off + 4 ≤ 0x10000000)
    (h : regAt off = none) (out : off < 0x3810000 ∨ 0x3811008 ≤ off) :
    d.hostRead 0 off 4 = d.answer [0#8, 0#8, 0#8, 0#8] false := by
  have zeros : leBytes 4 (0#32).toNat = [0#8, 0#8, 0#8, 0#8] := by decide
  rw [Dev.hostRead_word d awake aligned inside, Dev.regRead_unused d h out, ite_self]
  exact congrArg (d.answer · false) zeros

theorem Dev.hostWrite_unused (d : Dev) {off : Nat} {data : List Byte} (awake : d.pci.d3hot = false) (aligned : off % 4 = 0)
    (inside : off + 4 ≤ 0x10000000) (len : data.length = 4) (h : regAt off = none) (out : off < 0x3810000 ∨ 0x3810400 ≤ off) :
    d.hostWrite 0 off data false = d := by
  rw [Dev.hostWrite_word d awake aligned inside len, Dev.regWrite_unused d _ h out, ite_self]

theorem length_leBytes (n x : Nat) : (leBytes n x).length = n := by
  induction n generalizing x with
  | zero => rfl
  | succ n ih => rw [leBytes, List.length_cons, ih]

/-- Settles O24: no register is found at the offset, for the register write and for both host paths. -/
theorem unusedOffsets : Obligations.UnusedOffsets := by
  intro s off v run awake aligned inside none_at out
  have out' : off < 0x3810000 ∨ 0x3810400 ≤ off := by omega
  refine ⟨?_, ?_, ?_⟩
  · rw [exec_registerWrite _ _ run, Dev.regWrite_unused _ _ none_at out']
    rfl
  · rw [exec_hostWrite _ _ _ _ run, Dev.hostWrite_unused _ awake aligned inside (length_leBytes 4 _) none_at out']
    rfl
  · rw [exec_hostRead _ _ _ run, Dev.hostRead_unused _ awake aligned inside none_at out]

/-! ## Settling register access -/

/-- A write of a register with no further effect, bit by bit. -/
theorem exec_registerWrite_plain {s : State} {off : Nat} {r : Reg} {i : List Nat} (v : W32) (run : s.dev.stop = none)
    (out : off < 0x1000000 ∨ 0x1800000 ≤ off) (at_ : regAt off = some (r, i)) (plain : r ∉ effectRegs) :
    exec (.registerWrite off v) s = .next (s.put (s.dev.setRg r i (mergeWrite s.dev.locked r.fields (s.dev.rg r i) v))) := by
  rw [exec_registerWrite _ _ run, Dev.regWrite_unit _ _ at_ out, Dev.unitWrite_plain _ _ _ plain]
  rfl

/-- Setting bit 0 from the hardware side sets it and no other bit. -/
theorem setFld_bit0 (d : Dev) (r : Reg) (i : List Nat) : d.setFld r i 0 0 1 = d.setRg r i (d.rg r i ||| 1#32) := by
  refine congrArg (d.setRg r i) (BitVec.eq_of_getLsbD_eq (fun k hk => ?_))
  rw [BitVec.getLsbD_ofNat, testBit_setBits, BitVec.getLsbD_or, decide_eq_true hk, Bool.true_and, BitVec.testBit_toNat]
  cases k with
  | zero => simp
  | succ k => simp

/-- SYS_LOCK_SET sets the lock bit and changes nothing else (R40). -/
theorem exec_sysLockSet {s : State} (run : s.dev.stop = none) :
    exec .sysLockSet s = .next (s.put (s.dev.setRg .sysLock [] (s.dev.rg .sysLock [] ||| 1#32))) := by
  have go : exec .sysLockSet s = .next (s.put (s.dev.setFld .sysLock [] 0 0 1)) := onDev_go _ run
  rw [go, setFld_bit0]

/-- Reading a stored register's word through BAR0. -/
theorem Dev.hostRead_stored (d : Dev) {off : Nat} {r : Reg} {i : List Nat} (awake : d.pci.d3hot = false) (placed : 2 ≤ d.stage)
    (aligned : off % 4 = 0) (inside : off + 4 ≤ 0x10000000) (at_ : regAt off = some (r, i)) (stored : r ∉ liveRegs) :
    d.hostRead 0 off 4 = d.answer (leBytes 4 (d.rg r i &&& readMask r.fields).toNat) false := by
  have opened : d.bar0Open off = true := by simp [Dev.bar0Open, placed]
  have word : d.regRead off = (d.regVal r i, d.readEffect r i) := by rw [Dev.regRead, at_]
  rw [Dev.hostRead_word d awake aligned inside, if_pos opened, word, Dev.regVal_stored d i stored, Dev.readEffect_stored d i stored]

theorem finSlot_val (p : Fin 7) : finSlot p.val = some p := by simp [finSlot]

theorem Dev.slot_val (d : Dev) (p : Fin 7) : d.slot p.val = d.core p := by rw [Dev.slot, finSlot_val]

/-- Settles O21: writes bit by bit through `getLsbD_mergeWrite`, reads through `getLsbD_readMask`. -/
theorem registerAccess : Obligations.RegisterAccess := by
  refine ⟨fun s off v run out => ⟨?_, ?_, ?_⟩, fun s off run awake placed inside => ⟨?_, ?_, ?_, ?_, ?_, ?_⟩⟩
  · intro r i at_ plain
    refine ⟨_, exec_registerWrite_plain v run out at_ plain, fun k hk => ?_⟩
    rw [getLsbD_mergeWrite _ _ _ hk r.fields_descend]
    have covering : (fun f : Nat × Nat × Access => decide (f.2.1 ≤ k ∧ k ≤ f.1)) = covers k := rfl
    rw [covering]
    cases r.fields.find? (covers k) with
    | none => rfl
    | some f =>
      obtain ⟨hi, lo, a⟩ := f
      cases a <;> rfl
  · intro none_at free
    rw [exec_registerWrite _ _ run, Dev.regWrite_unused _ _ none_at free]
    rfl
  · refine ⟨_, exec_sysLockSet run, rfl, ?_⟩
    change Dev.flag _ .sysLock [] 0 = true
    rw [Dev.flag_eq_getLsbD]
    simp [State.put]
  · intro r i at_ aligned stored
    rw [exec_hostRead _ _ _ run, Dev.hostRead_stored _ awake placed aligned inside at_ stored]
    refine ⟨_, rfl, fun k hk => ?_⟩
    rw [BitVec.getLsbD_and, getLsbD_readMask _ hk]
    rfl
  · intro none_at aligned free
    rw [exec_hostRead _ _ _ run, Dev.hostRead_unused _ awake aligned inside none_at free]
  · intro data len aligned
    have opened : s.dev.bar0Open off = true := by simp [Dev.bar0Open, placed]
    rw [exec_hostWrite _ _ _ _ run, exec_registerWrite _ _ run, Dev.hostWrite_word _ awake aligned inside len, if_pos opened]
  · intro data short
    rw [exec_hostWrite _ _ _ _ run, Dev.hostWrite_part _ awake inside short]
    rfl
  · intro p
    refine ⟨_, onDev_go _ run, ?_, ?_, rfl⟩
    · change leBytes 4 (BitVec.ofNat 32 (s.dev.slot p.val).totCyc).toNat = _
      rw [BitVec.toNat_ofNat, Dev.slot_val]
    · rw [← Dev.slot_val]
      exact Dev.rg_setRg_same s.dev .coreCyclesHi [p.val] _
  · refine ⟨_, onDev_go _ run, ?_, ?_, rfl⟩
    · change leBytes 4 (BitVec.ofNat 32 s.dev.tb).toNat = _
      rw [BitVec.toNat_ofNat]
    · exact Dev.rg_setRg_same s.dev .capTbNowHi [] _

end Sys2Proof.Machine
end

section
/-! PROOFS. The host's window on Commons, refused requests, and register writes that a running core holds. -/

namespace Sys2Proof.Machine

/-! ## Several bytes of memory -/

theorem Memory.rdN_eq_map (m : Memory) (a n : Nat) : m.rdN a n = (upto n).map (fun k => m.rd (a + k)) := by
  induction n generalizing a with
  | zero => rfl
  | succ n ih =>
    have shift : (fun k => m.rd (a + 1 + k)) = (fun k => m.rd (a + k)) ∘ Nat.succ := by
      funext k
      exact congrArg m.rd (by omega)
    rw [Memory.rdN, ih, upto, upto, List.range_succ_eq_map, List.map_cons, List.map_map, shift, Nat.add_zero]

/-- Bytes written are the bytes read. -/
theorem Memory.rdN_wrN (m : Memory) (a : Nat) (bs : List Byte) : (m.wrN a bs).rdN a bs.length = bs := by
  refine List.ext_getElem (by simp [Memory.rdN_eq_map, upto]) (fun i _ h => ?_)
  simp only [Memory.rdN_eq_map, upto, List.getElem_map, List.getElem_range]
  exact Memory.rd_wrN_in m a bs h

theorem Memory.wrN_append (m : Memory) (a : Nat) (xs ys : List Byte) :
    m.wrN a (xs ++ ys) = (m.wrN a xs).wrN (a + xs.length) ys := by
  induction xs generalizing m a with
  | nil => rfl
  | cons x xs ih =>
    rw [List.cons_append, Memory.wrN, ih, Memory.wrN, List.length_cons]
    congr 1
    omega

/-! ## BAR4's lower half: Commons (R43, R425) -/

theorem Dev.barTakes_bar4 (d : Dev) {o len : Nat} (awake : d.pci.d3hot = false) (inside : o + len ≤ 0x1000000) :
    d.barTakes 4 o len = true := by
  have fits : o + len ≤ 0x2000000 := by omega
  simp [Dev.barTakes, Dev.barSize, awake, fits]

theorem Dev.winByte_commons (d : Dev) {o : Nat} (service : d.stage = 5) (inside : o < 0x1000000) :
    d.winByte 4 o = .mem (0x800000000 + o) := by
  simp [Dev.winByte, inside, service, commonsBase]

/-- A read through BAR4's lower half answers the bytes of Commons. -/
theorem Dev.hostRead_commons (d : Dev) {o len : Nat} (awake : d.pci.d3hot = false) (service : d.stage = 5) (clean : d.poison = [])
    (inside : o + len ≤ 0x1000000) : d.hostRead 4 o len = d.answer (d.mem.rdN (0x800000000 + o) len) false := by
  have bytes : (upto len).map (fun k => d.winByte 4 (o + k)) = (upto len).map (fun k => .mem (0x800000000 + o + k)) := by
    refine List.map_congr_left (fun k hk => ?_)
    have : k < len := List.mem_range.mp hk
    rw [Dev.winByte_commons d service (by omega), Nat.add_assoc]
  have sound : ∀ w ∈ (upto len).map (fun k => WinByte.mem (0x800000000 + o + k)), d.winPoisoned w = false := by
    intro w hw
    obtain ⟨k, -, rfl⟩ := List.mem_map.mp hw
    simp [Dev.winPoisoned, Dev.poisoned, clean]
  have takes := Dev.barTakes_bar4 d (len := len) awake inside
  have direct : d.hostRead 4 o len = d.hostReadMem 4 o len := by simp [Dev.hostRead, takes]
  rw [direct, Dev.hostReadMem, bytes, if_neg (by simpa using sound), List.map_map, Memory.rdN_eq_map]
  rfl

/-- What a write to Commons through the window leaves: the bytes stored, every register and slot as it was. -/
def CommonsWritten (d t : Dev) (o : Nat) (bs : List Byte) : Prop :=
  t.mem = d.mem.wrN (0x800000000 + o) bs ∧ t.regs = d.regs ∧ t.cores = d.cores

theorem writeWin_nil (n : Nat) (d : Dev) (bar o : Nat) : writeWin n d bar o [] = d := by
  cases n <;> rfl

theorem Dev.winWr_commons (d : Dev) {o : Nat} (bs : List Byte) (service : d.stage = 5) (inside : o < 0x1000000) :
    d.winWr 4 o bs = d.store (0x800000000 + o) bs := by
  rw [Dev.winWr, Dev.winByte_commons d service inside]

/-- One word of a request to Commons. -/
theorem writeWin_commons_step (n : Nat) (d : Dev) {o : Nat} {bs : List Byte} (service : d.stage = 5) (inside : o < 0x1000000)
    (some_left : bs ≠ []) : writeWin (n + 1) d 4 o bs =
      writeWin n (d.store (0x800000000 + o) (bs.take (4 - o % 4))) 4 (o + (bs.take (4 - o % 4)).length) (bs.drop (4 - o % 4)) := by
  rw [← Dev.winWr_commons d _ service inside, writeWin, if_neg (by simpa using some_left)]

/-- Words written one by one store the bytes of the whole request. -/
theorem writeWin_commons (n : Nat) (d : Dev) {o : Nat} {bs : List Byte} (service : d.stage = 5)
    (inside : o + bs.length ≤ 0x1000000) (fuel : bs = [] ∨ bs.length + o % 4 ≤ 4 * n) :
    CommonsWritten d (writeWin n d 4 o bs) o bs := by
  induction n generalizing d o bs with
  | zero =>
    obtain rfl : bs = [] := fuel.elim id (fun h => List.eq_nil_of_length_eq_zero (by omega))
    exact ⟨rfl, rfl, rfl⟩
  | succ n ih =>
    by_cases done : bs = []
    · subst done
      exact ⟨rfl, rfl, rfl⟩
    have enough := fuel.resolve_left done
    have some_left : 0 < bs.length := List.length_pos_iff.mpr done
    rw [writeWin_commons_step n d service (by omega) done]
    have word_length := List.length_take (i := 4 - o % 4) (l := bs)
    have rest_length := List.length_drop (i := 4 - o % 4) (l := bs)
    have parts := List.take_append_drop (4 - o % 4) bs
    generalize bs.take (4 - o % 4) = word at *
    generalize bs.drop (4 - o % 4) = rest at *
    have fuel' : rest = [] ∨ rest.length + (o + word.length) % 4 ≤ 4 * n := by
      by_cases last : bs.length ≤ 4 - o % 4
      · exact .inl (List.eq_nil_of_length_eq_zero (by omega))
      · exact .inr (by omega)
    obtain ⟨hmem, hregs, hcores⟩ := ih (d.store (0x800000000 + o) word) (o := o + word.length) service (by omega) fuel'
    refine ⟨?_, hregs, hcores⟩
    rw [hmem, ← parts, Memory.wrN_append, Nat.add_assoc]
    rfl

/-- A write through BAR4's lower half stores its bytes in Commons. -/
theorem Dev.hostWrite_commons (d : Dev) {o : Nat} {data : List Byte} (awake : d.pci.d3hot = false) (service : d.stage = 5)
    (inside : o + data.length ≤ 0x1000000) : CommonsWritten d (d.hostWrite 4 o data false) o data := by
  have takes := Dev.barTakes_bar4 d awake inside
  have direct : d.hostWrite 4 o data false = writeWin (data.length / 4 + 2) d 4 o data := by simp [Dev.hostWrite, takes]
  rw [direct]
  exact writeWin_commons _ d service inside (.inr (by omega))

/-- A write with EP set is discarded (R428). -/
theorem Dev.hostWrite_poisoned (d : Dev) {o : Nat} {data : List Byte} (awake : d.pci.d3hot = false)
    (inside : o + data.length ≤ 0x1000000) :
    d.hostWrite 4 o data true = (d.incSat .pciErr [] 23 16 1).pciError .nonfatal false := by
  simp [Dev.hostWrite, Dev.barTakes_bar4 d awake inside]

/-- A function in D3hot takes no memory request (R430). -/
theorem Dev.barTakes_asleep (d : Dev) (bar o len : Nat) (asleep : d.pci.d3hot = true) : d.barTakes bar o len = false := by
  simp [Dev.barTakes, asleep]

theorem Dev.hostWrite_asleep (d : Dev) (o : Nat) (data : List Byte) (ep : Bool) (asleep : d.pci.d3hot = true) :
    d.hostWrite 4 o data ep = d.unsupported true := by
  simp [Dev.hostWrite, Dev.barTakes_asleep d _ _ _ asleep]

theorem Dev.hostRead_asleep (d : Dev) (o len : Nat) (asleep : d.pci.d3hot = true) :
    d.hostRead 4 o len = (d.answer [] false).unsupported false := by
  simp [Dev.hostRead, Dev.barTakes_asleep d _ _ _ asleep]

/-- An unsupported request is counted (R428). -/
theorem Dev.fld_unsupported (d : Dev) (posted : Bool) :
    (d.unsupported posted).fld .pciErr [] 7 0 = min (d.fld .pciErr [] 7 0 + 1) 255 := by
  have counted := Dev.fld_incSat_same d .pciErr [] 0 1 (hi := 7) (by decide)
  cases posted <;> exact counted

/-! ## Writes of a core's registers (R150, R151, R401) -/

/-- A write of the image changes the image alone. -/
theorem Dev.imgWrite_frame (d : Dev) (off : Nat) (v : W32) : ∃ img, d.imgWrite off v = { d with coreImg := img } := by
  unfold Dev.imgWrite
  split
  · split
    · exact ⟨_, rfl⟩
    · exact ⟨d.coreImg, rfl⟩
  · exact ⟨d.coreImg, rfl⟩

theorem Dev.rg_imgWrite (d : Dev) (off : Nat) (v : W32) (r : Reg) (i : List Nat) : (d.imgWrite off v).rg r i = d.rg r i := by
  obtain ⟨img, h⟩ := d.imgWrite_frame off v
  rw [h]
  rfl

/-- A write of a core's register as it takes effect. -/
theorem Dev.coreWriteNow_at (d : Dev) {off : Nat} {r : Reg} {i : List Nat} (v : W32) (at_ : regAt off = some (r, i)) :
    d.coreWriteNow off v = (d.plainWrite r i (d.fusedKeep r i v)).imgWrite off ((d.plainWrite r i (d.fusedKeep r i v)).rg r i) := by
  rw [Dev.coreWriteNow, at_]

/-- It changes registers and the image alone. -/
theorem Dev.coreWriteNow_frame (d : Dev) (off : Nat) (v : W32) :
    ∃ rs img, d.coreWriteNow off v = { d with regs := rs, coreImg := img } := by
  unfold Dev.coreWriteNow
  split
  · rename_i r i _
    obtain ⟨img, h⟩ := (d.plainWrite r i (d.fusedKeep r i v)).imgWrite_frame off ((d.plainWrite r i (d.fusedKeep r i v)).rg r i)
    exact ⟨_, img, h⟩
  · exact ⟨d.regs, d.coreImg, rfl⟩

@[simp] theorem Dev.coreWriteNow_stop (d : Dev) (off : Nat) (v : W32) : (d.coreWriteNow off v).stop = d.stop := by
  obtain ⟨rs, img, h⟩ := d.coreWriteNow_frame off v
  rw [h]

@[simp] theorem Dev.coreWriteNow_mem (d : Dev) (off : Nat) (v : W32) : (d.coreWriteNow off v).mem = d.mem := by
  obtain ⟨rs, img, h⟩ := d.coreWriteNow_frame off v
  rw [h]

@[simp] theorem Dev.core_coreWriteNow (d : Dev) (off : Nat) (v : W32) (q : Fin 7) : (d.coreWriteNow off v).core q = d.core q := by
  obtain ⟨rs, img, h⟩ := d.coreWriteNow_frame off v
  rw [h]
  rfl

/-- The register written takes the word by its fields' access types, but for fused entries. -/
theorem Dev.rg_coreWriteNow_same (d : Dev) {off : Nat} {r : Reg} {i : List Nat} (v : W32) (at_ : regAt off = some (r, i)) :
    (d.coreWriteNow off v).rg r i = mergeWrite d.locked r.fields (d.rg r i) (d.fusedKeep r i v) := by
  rw [Dev.coreWriteNow_at d v at_, Dev.rg_imgWrite, Dev.plainWrite, Dev.rg_setRg_same]

/-- Every register at another offset stays. -/
theorem Dev.rg_coreWriteNow_ne (d : Dev) {off : Nat} {r : Reg} {i : List Nat} (v : W32) (h : regOff r i ≠ off) :
    (d.coreWriteNow off v).rg r i = d.rg r i := by
  unfold Dev.coreWriteNow
  split
  · rename_i r' i' at_
    rw [Dev.rg_imgWrite, Dev.plainWrite, Dev.rg_setRg_ne _ _ (by rwa [regOff_of_regAt at_])]
  · rfl

theorem Dev.locked_coreWriteNow_ne (d : Dev) {off : Nat} (v : W32) (h : off ≠ 4) : (d.coreWriteNow off v).locked = d.locked := by
  rw [Dev.locked, Dev.flag, Dev.rg_coreWriteNow_ne d v (fun e => h e.symm)]
  rfl

/-- A lock that is set stays set, whatever register is written (R14, R40). -/
theorem Dev.locked_coreWriteNow (d : Dev) (off : Nat) (v : W32) (lock : d.locked = true) : (d.coreWriteNow off v).locked = true := by
  by_cases own : off = 4
  · have at_ : regAt off = some (.sysLock, []) := by rw [own]; decide
    rw [Dev.locked, Dev.flag_eq_getLsbD] at lock ⊢
    rw [Dev.rg_coreWriteNow_same d v at_, getLsbD_mergeWrite _ _ _ (by decide) (Reg.fields_descend _), lock]
    rfl
  · rw [Dev.locked_coreWriteNow_ne d v own, lock]

/-! ## Fused entries of a spare map (R150) -/

theorem Dev.fusedKeep_none (d : Dev) {r : Reg} (i : List Nat) (v : W32) (h : spfuseAt r = none) : d.fusedKeep r i v = v := by
  rw [Dev.fusedKeep, h]

/-- The entries of a spare map that are fused, as a mask over its four bytes. -/
def fuseMask (fused : Nat → Bool) : W32 :=
  (upto 4).foldl (fun m e => if fused e then m ||| fieldMask (8 * e + 7) (8 * e) else m) 0#32

theorem Dev.fusedKeep_some (d : Dev) {r : Reg} (i : List Nat) (v : W32) {lo : Nat} (h : spfuseAt r = some lo) :
    d.fusedKeep r i v =
      (v &&& ~~~(fuseMask (fun e => d.flag .coreArrSpfuse i (lo + e)))) |||
      (d.rg r i &&& fuseMask (fun e => d.flag .coreArrSpfuse i (lo + e))) := by
  rw [Dev.fusedKeep, h, BitVec.or_comm]
  rfl

theorem getLsbD_fuseMask (fused : Nat → Bool) {e k : Nat} (he : e < 4) (low : 8 * e ≤ k) (high : k ≤ 8 * e + 7) :
    (fuseMask fused).getLsbD k = fused e := by
  rw [fuseMask, getLsbD_foldl_or _ _ k _ (fun e => fused e && decide (8 * e ≤ k ∧ k ≤ 8 * e + 7)), BitVec.getLsbD_zero, Bool.false_or,
    Bool.eq_iff_iff, List.any_eq_true]
  · refine ⟨fun ⟨e', _, hit⟩ => ?_, fun h => ⟨e, List.mem_range.mpr he, by simp [h, low, high]⟩⟩
    simp only [Bool.and_eq_true, decide_eq_true_eq] at hit
    obtain rfl : e' = e := by omega
    exact hit.1
  · intro m e
    cases fused e <;> simp [getLsbD_fieldMask _ _ (show k < 32 by omega)]

/-- A byte of a spare map keeps what it holds where its entry is fused, and takes the write where it is not. -/
theorem Dev.getLsbD_fusedKeep (d : Dev) {r : Reg} (i : List Nat) (v : W32) {lo e k : Nat} (h : spfuseAt r = some lo) (he : e < 4)
    (low : 8 * e ≤ k) (high : k ≤ 8 * e + 7) :
    (d.fusedKeep r i v).getLsbD k = if d.flag .coreArrSpfuse i (lo + e) then (d.rg r i).getLsbD k else v.getLsbD k := by
  rw [Dev.fusedKeep_some d i v h, getLsbD_splice _ _ _ (by omega), getLsbD_fuseMask _ he low high]

/-- Every bit of a spare map can be written. -/
theorem find_spareMap (r : Reg) :
    (spfuseAt r).isSome = true → ∀ k < 32, (r.fields.find? (covers k)).map (·.2.2) = some .rw := by
  cases r <;> decide

theorem mergeWrite_spareMap (lock : Bool) {r : Reg} (old new : W32) (h : (spfuseAt r).isSome = true) :
    mergeWrite lock r.fields old new = new := by
  refine BitVec.eq_of_getLsbD_eq (fun k hk => ?_)
  obtain ⟨f, found, rw_⟩ := Option.map_eq_some_iff.mp (find_spareMap r h k hk)
  rw [getLsbD_mergeWrite _ _ _ hk r.fields_descend, found, Option.map_some, Option.getD_some, rw_]
  rfl

/-! ## The image of a core's range (R401) -/

theorem Dev.logicalOf_setRg_ne (d : Dev) {r : Reg} {i : List Nat} (v : W32) (p : Nat) (h : regOff r i ≠ 8) :
    (d.setRg r i v).logicalOf p = d.logicalOf p := by
  have map : (d.setRg r i v).rg .sysCoreMap [] = d.rg .sysCoreMap [] := Dev.rg_setRg_ne d v (fun e => h e.symm)
  simp only [Dev.logicalOf, Dev.slotOf, Dev.fld, map]

/-- An offset in slot `p`'s MiB has its image word under `p`. -/
theorem imgWord_slot {off p q w : Nat} (low : 0x1000000 + p * 0x100000 ≤ off) (high : off < 0x1000000 + (p + 1) * 0x100000)
    (h : imgWord off = some (q, w)) : q = p := by
  simp only [imgWord, Option.ite_none_right_eq_some, Option.some.injEq, Prod.mk.injEq] at h
  omega

theorem imgWord_image {off p : Nat} (slot : p < 7) (low : 0x1000000 + p * 0x100000 ≤ off)
    (high : off < 0x1000000 + (p + 1) * 0x100000) (first : 0x4000 ≤ off % 0x100000) (last : off % 0x100000 < 0x5000) :
    imgWord off = some (p, (off % 0x100000 - 0x4000) / 4) := by
  have here : (off - 0x1000000) / 0x100000 = p := by omega
  rw [imgWord, if_pos ⟨by omega, by omega, first, last⟩, here]

/-- A held register's word goes to the image of the core that its slot is mapped to. -/
theorem Dev.coreImg_coreWriteNow (d : Dev) {off p : Nat} {r : Reg} {i : List Nat} (v : W32) (at_ : regAt off = some (r, p :: i))
    (held : heldReg r = true) (first : 0x4000 ≤ off % 0x100000) (last : off % 0x100000 < 0x5000) (mapped : d.logicalOf p < 6) :
    (d.coreWriteNow off v).coreImg =
      spSet 0#32 d.coreImg (d.logicalOf p * 1024 + (off % 0x100000 - 0x4000) / 4) ((d.coreWriteNow off v).rg r (p :: i)) := by
  obtain ⟨slot, low, high⟩ := heldReg_off at_ held
  have same : ∀ x, (d.plainWrite r (p :: i) x).logicalOf p = d.logicalOf p := fun x =>
    Dev.logicalOf_setRg_ne d _ p (by rw [regOff_of_regAt at_]; omega)
  rw [Dev.coreWriteNow_at d v at_, Dev.rg_imgWrite, Dev.imgWrite, imgWord_image slot low high first last]
  simp only [same, if_pos mapped]
  rfl

/-- A slot that no core is mapped to has no image. -/
theorem Dev.coreImg_coreWriteNow_spare (d : Dev) {off p : Nat} {r : Reg} {i : List Nat} (v : W32) (at_ : regAt off = some (r, p :: i))
    (held : heldReg r = true) (spare : 6 ≤ d.logicalOf p) : (d.coreWriteNow off v).coreImg = d.coreImg := by
  obtain ⟨-, low, high⟩ := heldReg_off at_ held
  have same : ∀ x, (d.plainWrite r (p :: i) x).logicalOf p = d.logicalOf p := fun x =>
    Dev.logicalOf_setRg_ne d _ p (by rw [regOff_of_regAt at_]; omega)
  rw [Dev.coreWriteNow_at d v at_]
  unfold Dev.imgWrite
  split
  · rename_i q w word
    obtain rfl := imgWord_slot low high word
    rw [same, if_neg (by omega)]
    rfl
  · rfl

/-! ## Held writes (R151) -/

/-- The device with these writes held for a slot. -/
def Dev.withHeld (d : Dev) (p : Fin 7) (l : List HeldWrite) : Dev := d.modCore p (fun c => { c with held := l })

@[simp] theorem Dev.core_withHeld (d : Dev) (p : Fin 7) (l : List HeldWrite) :
    (d.withHeld p l).core p = { d.core p with held := l } := Dev.core_modCore d p _

theorem Dev.core_withHeld_ne (d : Dev) {p q : Fin 7} (l : List HeldWrite) (h : q ≠ p) : (d.withHeld p l).core q = d.core q :=
  Dev.core_modCore_ne d _ h

theorem Dev.withHeld_withHeld (d : Dev) (p : Fin 7) (l l' : List HeldWrite) : (d.withHeld p l).withHeld p l' = d.withHeld p l' :=
  Dev.modCore_modCore d p _ _

theorem Dev.withHeld_self {d : Dev} {p : Fin 7} {l : List HeldWrite} (h : (d.core p).held = l) : d.withHeld p l = d := by
  have same : ({ d.core p with held := l } : CoreSt) = d.core p := by rw [← h]
  exact (congrArg (d.setCore p) same).trans (Dev.modCore_id d p)

theorem Dev.heldApply_busy {d : Dev} {p : Fin 7} (busy : (d.core p).busy = true) : d.heldApply p = d := by
  rw [Dev.heldApply]
  exact if_pos busy

/-- An idle core's held writes take effect in order. -/
theorem Dev.heldApply_idle {d : Dev} {p : Fin 7} (idle : (d.core p).busy = false) :
    d.heldApply p = (d.core p).held.foldl (fun d h => d.coreWriteNow h.1 h.2) (d.withHeld p []) := by
  rw [Dev.heldApply]
  exact if_neg (by simp [idle])

theorem Dev.heldApply_withHeld {d : Dev} {p : Fin 7} (l : List HeldWrite) (idle : (d.core p).busy = false) :
    (d.withHeld p l).heldApply p = l.foldl (fun d h => d.coreWriteNow h.1 h.2) (d.withHeld p []) := by
  have idle' : ((d.withHeld p l).core p).busy = false := by rw [Dev.core_withHeld]; exact idle
  rw [Dev.heldApply_idle idle', Dev.core_withHeld, Dev.withHeld_withHeld]

theorem Dev.locked_applyAll (l : List HeldWrite) (d : Dev) (lock : d.locked = true) :
    (l.foldl (fun d h => d.coreWriteNow h.1 h.2) d).locked = true := by
  induction l generalizing d with
  | nil => exact lock
  | cons h rest ih => exact ih _ (Dev.locked_coreWriteNow d h.1 h.2 lock)

/-- A running core holds the write of such a register. -/
theorem Dev.regWrite_held (d : Dev) {p : Fin 7} {off : Nat} {r : Reg} {i : List Nat} (v : W32) (at_ : regAt off = some (r, p.val :: i))
    (held : heldReg r = true) (low : 0x1000000 ≤ off) (high : off < 0x1800000) (busy : (d.core p).busy = true)
    (keep : v.getLsbD 30 = false) : d.regWrite off v = d.modCore p (fun c => { c with held := c.held ++ [(off, v)] }) := by
  have core : d.regWrite off v = d.coreRegWrite r (p.val :: i) off v := by
    rw [Dev.regWrite, at_]
    exact if_pos ⟨low, high⟩
  have no_clear : ¬ (r = .coreHaloCtl ∧ v.getLsbD 30 = true) := fun h => by rw [keep] at h; cases h.2
  have wait : d.coreRegWrite r (p.val :: i) off v = d.coreWrite p.val off v := by
    simp only [Dev.coreRegWrite, if_neg no_clear, if_pos held, List.getD_cons_zero]
  rw [core, wait, Dev.coreWrite, Dev.slot_val, if_pos busy, Dev.modSlot, finSlot_val]

theorem exec_heldWriteApply {s : State} (p : Fin 7) (run : s.dev.stop = none) :
    exec (.heldWriteApply p) s = .next (s.put (s.dev.heldApply p)) := onDev_go _ run

/-! ## Settling host access -/

/-- Register `r` holds, once a held write has landed on it, the word by its fields' access types. -/
theorem Dev.rg_coreWriteNow_unfused (d : Dev) {off : Nat} {r : Reg} {i : List Nat} (v : W32) (at_ : regAt off = some (r, i))
    (unfused : spfuseAt r = none) : (d.coreWriteNow off v).rg r i = mergeWrite d.locked r.fields (d.rg r i) v := by
  rw [Dev.rg_coreWriteNow_same d v at_, Dev.fusedKeep_none d i v unfused]

/-- Byte `e` of a spare map after a write: kept where the entry is fused, else written. -/
theorem Dev.bits_coreWriteNow_fused (d : Dev) {off : Nat} {r : Reg} {i : List Nat} (v : W32) {lo e : Nat}
    (at_ : regAt off = some (r, i)) (fused : spfuseAt r = some lo) (he : e < 4) :
    bits ((d.coreWriteNow off v).rg r i).toNat (8 * e + 7) (8 * e) =
      bits (if d.flag .coreArrSpfuse i (lo + e) then d.rg r i else mergeWrite d.locked r.fields (d.rg r i) v).toNat (8 * e + 7) (8 * e) := by
  have map : (spfuseAt r).isSome = true := by rw [fused]; rfl
  refine bits_congr (fun k low high => ?_)
  rw [Dev.rg_coreWriteNow_same d v at_, mergeWrite_spareMap _ _ _ map, mergeWrite_spareMap _ _ _ map,
    Dev.getLsbD_fusedKeep d i v fused he low high]
  exact (apply_ite (fun x : W32 => x.getLsbD k) _ _ _).symm

/-- A single held write lands. -/
theorem Dev.heldApply_one {d : Dev} {p : Fin 7} {h : HeldWrite} (idle : (d.core p).busy = false) (held : (d.core p).held = [h]) :
    d.heldApply p = (d.withHeld p []).coreWriteNow h.1 h.2 := by
  rw [Dev.heldApply_idle idle, held]
  rfl

/-- Two held writes land in order. -/
theorem Dev.heldApply_two {d : Dev} {p : Fin 7} {h h' : HeldWrite} (idle : (d.core p).busy = false)
    (held : (d.core p).held = [h, h']) :
    d.heldApply p = ((d.withHeld p []).coreWriteNow h.1 h.2).coreWriteNow h'.1 h'.2 := by
  rw [Dev.heldApply_idle idle, held]
  rfl

/-- The first held write alone, then the rest: the same as all of them. -/
theorem Dev.heldApply_first {d : Dev} {p : Fin 7} (h : HeldWrite) {rest : List HeldWrite} (idle : (d.core p).busy = false)
    (held : (d.core p).held = h :: rest) : d.heldApply p = (((d.withHeld p [h]).heldApply p).withHeld p rest).heldApply p := by
  have first : (d.withHeld p [h]).heldApply p = (d.withHeld p []).coreWriteNow h.1 h.2 := Dev.heldApply_withHeld [h] idle
  have idle' : (((d.withHeld p []).coreWriteNow h.1 h.2).core p).busy = false := by
    rw [Dev.core_coreWriteNow, Dev.core_withHeld]
    exact idle
  have empty : ((d.withHeld p []).coreWriteNow h.1 h.2).withHeld p [] = (d.withHeld p []).coreWriteNow h.1 h.2 :=
    Dev.withHeld_self (by rw [Dev.core_coreWriteNow, Dev.core_withHeld])
  rw [first, Dev.heldApply_withHeld rest idle', empty, Dev.heldApply_idle idle, held]
  rfl

/-- Writes of two registers held together both land. -/
theorem Dev.coreWriteNow_pair (d : Dev) {off off' : Nat} {r r' : Reg} {i i' : List Nat} (v v' : W32) (at_ : regAt off = some (r, i))
    (at_' : regAt off' = some (r', i')) (unfused : spfuseAt r = none) (unfused' : spfuseAt r' = none) (unlock : off ≠ 4)
    (apart : regOff r' i' ≠ regOff r i) :
    ((d.coreWriteNow off v).coreWriteNow off' v').rg r i = mergeWrite d.locked r.fields (d.rg r i) v ∧
      ((d.coreWriteNow off v).coreWriteNow off' v').rg r' i' = mergeWrite d.locked r'.fields (d.rg r' i') v' := by
  rw [regOff_of_regAt at_, regOff_of_regAt at_'] at apart
  constructor
  · rw [Dev.rg_coreWriteNow_ne _ v' (by rw [regOff_of_regAt at_]; exact apart.symm), Dev.rg_coreWriteNow_unfused d v at_ unfused]
  · rw [Dev.rg_coreWriteNow_unfused _ v' at_' unfused', Dev.locked_coreWriteNow_ne d v unlock,
      Dev.rg_coreWriteNow_ne d v (by rw [regOff_of_regAt at_']; exact apart)]

/-- Two writes of one register land one on the other. -/
theorem Dev.coreWriteNow_twice (d : Dev) {off off' : Nat} {r : Reg} {i : List Nat} (v v' : W32) (at_ : regAt off = some (r, i))
    (at_' : regAt off' = some (r, i)) (unfused : spfuseAt r = none) (unlock : off ≠ 4) :
    ((d.coreWriteNow off v).coreWriteNow off' v').rg r i =
      mergeWrite d.locked r.fields (mergeWrite d.locked r.fields (d.rg r i) v) v' := by
  rw [Dev.rg_coreWriteNow_unfused _ v' at_' unfused, Dev.locked_coreWriteNow_ne d v unlock, Dev.rg_coreWriteNow_unfused d v at_ unfused]

/-- Settles O22: the windows through `writeWin_commons`, a held write through the laws of `Dev.coreWriteNow`, and the order of several
through `Dev.heldApply_first`. -/
theorem hostAccess : Obligations.HostAccess := by
  refine ⟨fun s o len data run => ⟨?_, ?_, ?_, fun asleep => ⟨?_, ?_⟩⟩, fun s p r i off v run at_ held low high =>
    ⟨?_, ?_, ?_, ?_, ?_, ?_⟩⟩
  · intro awake service clean inside
    rw [exec_hostRead _ _ _ run, Dev.hostRead_commons _ awake service clean inside]
  · intro awake service inside
    obtain ⟨hmem, hregs, hcores⟩ := Dev.hostWrite_commons s.dev awake service inside
    refine ⟨_, exec_hostWrite 4 o data false run, ?_, fun a out => ?_, hregs, hcores⟩
    · change (s.dev.hostWrite 4 o data false).mem.rdN _ _ = _
      rw [hmem, Memory.rdN_wrN]
    · change (s.dev.hostWrite 4 o data false).mem.rd a = _
      rw [hmem, Memory.rd_wrN_out _ _ _ out]
  · intro awake inside
    rw [exec_hostWrite 4 o data true run, Dev.hostWrite_poisoned _ awake inside]
    refine ⟨_, rfl, Dev.fld_incSat_same s.dev .pciErr [] 16 1 (by decide), ?_, ?_, rfl⟩ <;> simp [State.put, Dev.pciError]
  · rw [exec_hostWrite 4 o data false run, Dev.hostWrite_asleep _ _ _ _ asleep]
    refine ⟨_, rfl, Dev.fld_unsupported s.dev true, ?_, rfl⟩
    simp [State.put, Dev.unsupported, Dev.pciError]
  · rw [exec_hostRead 4 o len run, Dev.hostRead_asleep _ _ _ asleep]
    exact ⟨_, rfl, rfl, Dev.fld_unsupported (s.dev.answer [] false) false, rfl⟩
  · intro busy keep
    rw [exec_registerWrite _ _ run, Dev.regWrite_held _ _ at_ held low high busy keep]
  · intro busy
    rw [exec_heldWriteApply _ run, Dev.heldApply_busy busy]
    rfl
  · intro idle one
    rw [exec_heldWriteApply _ run, Dev.heldApply_one idle one]
    refine ⟨_, rfl, ?_, Dev.rg_coreWriteNow_unfused (s.dev.withHeld p []) v at_, fun lo e fused he => ?_,
      ⟨fun first last mapped => ?_, Dev.coreImg_coreWriteNow_spare (s.dev.withHeld p []) v at_ held⟩, fun q hq => ?_,
      Dev.coreWriteNow_mem (s.dev.withHeld p []) off v⟩
    · change (((s.dev.withHeld p []).coreWriteNow off v).core p).held = []
      rw [Dev.core_coreWriteNow, Dev.core_withHeld]
    · exact Dev.bits_coreWriteNow_fused (s.dev.withHeld p []) v at_ fused he
    · have image := Dev.coreImg_coreWriteNow (s.dev.withHeld p []) v at_ held first last mapped
      refine ⟨?_, fun x hx => ?_⟩ <;> simp only [State.put, image]
      · exact spGet_spSet_same _ _ _ _
      · exact spGet_spSet_ne _ _ _ hx
    · change ((s.dev.withHeld p []).coreWriteNow off v).core q = _
      rw [Dev.core_coreWriteNow, Dev.core_withHeld_ne _ _ hq]
  · intro v' r' i' off' idle two at_' held' unfused unfused'
    have unlock : off ≠ 4 := by omega
    rw [exec_heldWriteApply _ run, Dev.heldApply_two idle two]
    refine ⟨_, rfl, ?_, Dev.coreWriteNow_pair (s.dev.withHeld p []) v v' at_ at_' unfused unfused' unlock, ?_⟩
    · change ((((s.dev.withHeld p []).coreWriteNow off v).coreWriteNow off' v').core p).held = []
      rw [Dev.core_coreWriteNow, Dev.core_coreWriteNow, Dev.core_withHeld]
    · rintro rfl rfl
      exact Dev.coreWriteNow_twice (s.dev.withHeld p []) v v' at_ at_' unfused unlock
  · intro h rest idle all only
    have stop : ((s.dev.withHeld p [h]).heldApply p).stop = none := by
      rw [Dev.heldApply_withHeld [h] idle]
      exact (Dev.coreWriteNow_stop _ _ _).trans run
    refine ⟨_, exec_heldWriteApply p run, ?_⟩
    rw [exec_heldWriteApply p run, Dev.heldApply_first h idle all]
    exact (exec_heldWriteApply (s := s.put (((s.dev.withHeld p [h]).heldApply p).withHeld p rest)) p stop).symm
  · intro lock idle
    refine ⟨_, exec_heldWriteApply p run, ?_⟩
    change (s.dev.heldApply p).locked = true
    rw [Dev.heldApply_idle idle]
    exact Dev.locked_applyAll _ _ lock

end Sys2Proof.Machine
end

section
/-! PROOFS. Planes on the weight chain, the ramps of the matrix arrays, and the halo counters' clear. -/

namespace Sys2Proof.Machine

/-! ## The commands -/

theorem exec_chainPlaneArrive {s : State} (p : Fin 7) (h : s.dev.stop = none) :
    exec (.chainPlaneArrive p) s = .next (s.put (s.dev.chainArrive p)) := onDev_go _ h

theorem exec_arrayIdleRampDown {s : State} (p : Fin 7) (arr : Fin 2) (h : s.dev.stop = none) :
    exec (.arrayIdleRampDown p arr) s = .next (s.put (s.dev.idleRampDown p arr.val)) := onDev_go _ h

theorem exec_arrayRampDownStep {s : State} (p : Fin 7) (arr : Fin 2) (h : s.dev.stop = none) :
    exec (.arrayRampDownStep p arr) s = .next (s.put (s.dev.rampDownStep p arr.val)) := onDev_go _ h

theorem exec_arrayRampUpStep {s : State} (p : Fin 7) (arr : Fin 2) (h : s.dev.stop = none) :
    exec (.arrayRampUpStep p arr) s = .next (s.put (s.dev.rampUpStep p arr.val)) := onDev_go _ h

theorem exec_rampGrant {s : State} (h : s.dev.stop = none) :
    exec .rampGrant s = .next (s.put s.dev.rampGrant) := onDev_go _ h

theorem exec_haloCounterClear {s : State} (p : Fin 7) (h : s.dev.stop = none) :
    exec (.haloCounterClear p) s = .next (s.put (s.dev.haloClear p.val)) := onDev_go _ h

/-! ## One of a slot's two arrays -/

@[simp] theorem CoreSt.arr_modArr (c : CoreSt) (i : Nat) (f : ArrSt → ArrSt) : (c.modArr i f).arr i = f (c.arr i) := by
  by_cases first : i = 0 <;> simp [CoreSt.modArr, CoreSt.setArr, CoreSt.arr, first]

/-- A change of an array is known by what it makes of that array's state. -/
theorem Dev.modArr_congr {d : Dev} {p : Fin 7} {i : Nat} {f g : ArrSt → ArrSt} (h : f (d.arr p i) = g (d.arr p i)) :
    d.modArr p i f = d.modArr p i g :=
  congrArg (fun a => d.setCore p ((d.core p).setArr i a)) h

/-! ## A plane on its way (R202-R205) -/

/-- The chain MLOAD that is next in issue order takes the plane in the array that has started it. -/
theorem CoreSt.takesPlane_started {c : CoreSt} {i : Fin 2} {o : LoadOp} (loads : (c.arr i.val).loading = some o)
    (next : nextChainLoad c = some o.seq) (only : i = 1 → ∀ x, c.arrA.loading = some x → x.seq ≠ o.seq) :
    c.takesPlane = some i.val := by
  have arrays : upto 2 = [0, 1] := rfl
  rw [CoreSt.takesPlane, next, Option.bind_some, arrays]
  match i, loads with
  | 0, loads => simp [show (c.arr 0).loading = some o from loads]
  | 1, loads =>
    have passed : ((c.arr 0).loading.map (fun x => x.seq == o.seq)).getD false = false := by
      cases h : (c.arr 0).loading with
      | none => rfl
      | some x => exact beq_false_of_ne (only rfl x h)
    simp [passed, show (c.arr 1).loading = some o from loads]

/-- A slot that is no enabled member running a task passes the plane on once it has room ahead. -/
theorem Dev.chainArrive_outside {d : Dev} {p : Fin 7} {w : Plane} {rest : List (Nat × Plane)}
    (fly : takeFly p.val d.chainFly = some (w, rest)) (out : d.flag .coreWchCtl [p.val] 7 = false ∨ (d.core p).active = false) :
    d.chainArrive p = if hasRoom d 8 p.val w.hopLines then { d with chainFly := rest }.forward p.val w else d := by
  rw [Dev.chainArrive, fly]
  exact if_pos (by simpa using out)

/-- A running member gives the plane to the chain MLOAD that takes it, and passes it on. -/
theorem Dev.chainArrive_member {d : Dev} {p : Fin 7} {w : Plane} {rest : List (Nat × Plane)} {i : Nat} {o : LoadOp}
    (fly : takeFly p.val d.chainFly = some (w, rest)) (member : d.flag .coreWchCtl [p.val] 7 = true)
    (active : (d.core p).active = true) (takes : (d.core p).takesPlane = some i) (loads : ((d.core p).arr i).loading = some o)
    (fmt : w.fmt = some o.fmt) (groups : isGrouped o.fmt = true → w.gsize = o.gsize) (room : hasRoom d 8 p.val w.hopLines = true) :
    d.chainArrive p = ({ d with chainFly := rest }.modArr p i
      (fun a => { a with loading := some { o with got := some w } })).forward p.val w := by
  have agrees : w.fmt = some o.fmt ∧ (!isGrouped o.fmt || w.gsize == o.gsize) = true := by
    refine ⟨fmt, ?_⟩
    cases grouped : isGrouped o.fmt with
    | false => rfl
    | true => simpa using groups grouped
  simp only [Dev.chainArrive, fly, member, active, takes, loads, Bool.and_self, Bool.not_true, Bool.false_eq_true, if_false,
    if_pos agrees, room, if_true]
  rfl

/-! ## Ramps (R152-R155, R377) -/

theorem Dev.idleRampDown_idle {d : Dev} {p : Fin 7} {i : Nat} (on : (d.arr p i).pwr = .on) (quiet : (d.arr p i).hasRun = false)
    (limit : d.fld .coreArrIdle [p.val] 15 0 ≠ 0) (long : d.fld .coreArrIdle [p.val] 15 0 ≤ (d.arr p i).idle) :
    d.idleRampDown p i = d.modArr p i (fun a => { a with pwr := .down }) :=
  if_pos (by simp [on, quiet, limit, long])

theorem Dev.rampDownStep_down {d : Dev} {p : Fin 7} {i : Nat} (down : (d.arr p i).pwr = .down)
    (free : (d.arr p i).waitsGrant = false) (go : d.arraysHeld = false) :
    d.rampDownStep p i = d.modArr p i (fun a => { a with step := a.step - 1, pwr := if a.step ≤ 1 then .gated else .down }) :=
  if_pos (by simp [down, free, go])

theorem Dev.rampUpStep_up {d : Dev} {p : Fin 7} {i : Nat} (up : (d.arr p i).pwr = .up) (go : d.arraysHeld = false) :
    d.rampUpStep p i = d.modArr p i (fun a => { a with step := a.step + 1, pwr := if 7 ≤ a.step then .on else .up }) :=
  if_pos (by simp [up, go])

/-- A step down that leaves column steps. -/
theorem Dev.rampDownStep_left {d : Dev} {p : Fin 7} {i : Nat} (down : (d.arr p i).pwr = .down)
    (free : (d.arr p i).waitsGrant = false) (go : d.arraysHeld = false) (left : 1 < (d.arr p i).step) :
    d.rampDownStep p i = d.modArr p i (fun a => { a with step := a.step - 1, pwr := .down }) := by
  rw [Dev.rampDownStep_down down free go]
  exact Dev.modArr_congr (by rw [if_neg (Nat.not_le.mpr left)])

/-- The last step down. -/
theorem Dev.rampDownStep_last {d : Dev} {p : Fin 7} {i : Nat} (down : (d.arr p i).pwr = .down)
    (free : (d.arr p i).waitsGrant = false) (go : d.arraysHeld = false) (last : (d.arr p i).step ≤ 1) :
    d.rampDownStep p i = d.modArr p i (fun a => { a with step := a.step - 1, pwr := .gated }) := by
  rw [Dev.rampDownStep_down down free go]
  exact Dev.modArr_congr (by rw [if_pos last])

/-- A step up below the eighth. -/
theorem Dev.rampUpStep_below {d : Dev} {p : Fin 7} {i : Nat} (up : (d.arr p i).pwr = .up) (go : d.arraysHeld = false)
    (below : (d.arr p i).step < 7) : d.rampUpStep p i = d.modArr p i (fun a => { a with step := a.step + 1, pwr := .up }) := by
  rw [Dev.rampUpStep_up up go]
  exact Dev.modArr_congr (by rw [if_neg (Nat.not_le.mpr below)])

/-- The eighth step up. -/
theorem Dev.rampUpStep_eighth {d : Dev} {p : Fin 7} {i : Nat} (up : (d.arr p i).pwr = .up) (go : d.arraysHeld = false)
    (seven : (d.arr p i).step = 7) : d.rampUpStep p i = d.modArr p i (fun a => { a with step := 8, pwr := .on }) := by
  rw [Dev.rampUpStep_up up go]
  exact Dev.modArr_congr (by rw [seven, if_pos (Nat.le_refl 7)])

/-- The oldest request that still waits is granted, and its array counts one more ramp. -/
theorem Dev.rampGrant_oldest {d : Dev} {p : Fin 7} {now i : Nat} {r : List (Nat × Nat × Nat)}
    (normal : d.fld .pwrSupply [] 31 30 ≠ 1) (steady : d.fld .pwrSupply [] 31 30 ≠ 2) (go : d.arraysHeld = false)
    (oldest : d.liveRamps = (now, p.val, i) :: r) :
    d.rampGrant = ({ d with rampReq := r }.modArr p i
      (fun a => { a with pwr := if 8 ≤ a.step then .on else .up, waitsGrant := false })).incMod
        .coreArrRamps [p.val] (if i = 0 then 15 else 31) (if i = 0 then 0 else 16) 1 := by
  simp only [Dev.rampGrant, normal, steady, go, oldest, Dev.modSlot, finSlot_val, Bool.false_eq_true, or_self, if_false]
  rfl

/-! ## The halo counters (R238) -/

/-- Clearing some registers leaves one at an offset of its own. -/
theorem Dev.rg_clear_ne (d : Dev) {l : List Reg} {r : Reg} {i : List Nat} (own : ∀ x ∈ l, regOff r i ≠ regOff x i) :
    (l.foldl (fun d x => d.setRg x i 0#32) d).rg r i = d.rg r i := by
  induction l generalizing d with
  | nil => rfl
  | cons x rest ih =>
    obtain ⟨here, later⟩ := List.forall_mem_cons.mp own
    rw [List.foldl_cons, ih _ later, Dev.rg_setRg_ne d _ here]

/-- Registers at different offsets that are cleared one after the other all read 0. -/
theorem Dev.rg_clear_mem (d : Dev) {l : List Reg} {i : List Nat} (apart : l.Pairwise (fun r x => regOff r i ≠ regOff x i)) :
    ∀ r ∈ l, (l.foldl (fun d x => d.setRg x i 0#32) d).rg r i = 0#32 := by
  induction l generalizing d with
  | nil => simp
  | cons x rest ih =>
    obtain ⟨own, apart⟩ := List.pairwise_cons.mp apart
    refine List.forall_mem_cons.mpr ⟨?_, ih _ apart⟩
    rw [List.foldl_cons, Dev.rg_clear_ne _ own, Dev.rg_setRg_same]

theorem haloCounters_apart (p : Fin 7) :
    ([.coreHaloRdyUp, .coreHaloRdyDn, .coreHaloSpcUp, .coreHaloSpcDn] : List Reg).Pairwise
      (fun r x => regOff r [p.val] ≠ regOff x [p.val]) := by
  revert p
  decide

/-! ## Settling chain planes and ramps -/

/-- Settles O14: the equation of each command in the case its clause names. -/
theorem chainPlanesAndRamps : Obligations.ChainPlanesAndRamps := by
  refine ⟨fun s p w rest run fly => ⟨fun out => ⟨fun room => ?_, fun full => ?_⟩, ?_⟩, fun s p arr run => ⟨?_, ?_, ?_, ?_, ?_, ?_, ?_⟩⟩
  · rw [exec_chainPlaneArrive p run, Dev.chainArrive_outside fly out, if_pos room]
  · rw [exec_chainPlaneArrive p run, Dev.chainArrive_outside fly out, full]
    rfl
  · intro i o member active loads next only fmt groups room
    rw [exec_chainPlaneArrive p run, Dev.chainArrive_member fly member active (CoreSt.takesPlane_started loads next only)
      loads fmt groups room]
    rfl
  · intro on quiet limit long
    rw [exec_arrayIdleRampDown p arr run, Dev.idleRampDown_idle on quiet limit long]
    rfl
  · intro down free go left
    rw [exec_arrayRampDownStep p arr run, Dev.rampDownStep_left down free go left]
    rfl
  · intro down free go last
    rw [exec_arrayRampDownStep p arr run, Dev.rampDownStep_last down free go last]
    rfl
  · intro up go below
    rw [exec_arrayRampUpStep p arr run, Dev.rampUpStep_below up go below]
    rfl
  · intro up go seven
    rw [exec_arrayRampUpStep p arr run, Dev.rampUpStep_eighth up go seven]
    rfl
  · intro now r normal steady go oldest
    refine ⟨_, exec_rampGrant run, ?_⟩
    rw [Dev.rampGrant_oldest normal steady go oldest]
    refine ⟨rfl, ?_⟩
    simp only [State.put, Dev.core_incMod, Dev.modArr, Dev.core_modCore, CoreSt.arr_modArr]
    rfl
  · exact ⟨_, exec_haloCounterClear p run, Dev.rg_clear_mem s.dev (haloCounters_apart p)⟩

end Sys2Proof.Machine
end

section
/-! PROOFS. A walker that meets poisoned data when a transfer completes (R399), and what that says of the walkers' events. -/

namespace Sys2Proof.Machine

/-! ## The command -/

/-- A slot that is clocked, on a network that is clocked, takes the walker's step. -/
theorem exec_walkerTransferComplete {s : State} (p : Fin 7) (w : Fin 3) (run : s.dev.stop = none)
    (clocked : (s.dev.core p).stopped = false) (thawed : (s.dev.core p).frozen = false) (network : s.dev.pwr.commonsOff = false) :
    exec (.walkerTransferComplete p w) s = .next (s.put (s.dev.walkerComplete p w.val)) := by
  have step : s.dev.clocked p (·.networked (·.walkerComplete p w.val)) = s.dev.walkerComplete p w.val := by
    simp [Dev.clocked, Dev.networked, clocked, thawed, network]
  exact (onDev_go _ run).trans (by rw [step]; rfl)

/-! ## An event record is no core's state -/

theorem Dev.cores_evWrite (d : Dev) (e : EvRec) : (d.evWrite e).1.cores = d.cores := by
  unfold Dev.evWrite
  split
  · rfl
  · split <;> rfl

theorem Dev.cores_evNew (d : Dev) (e : EvRec) : (d.evNew e).cores = d.cores := by
  unfold Dev.evNew
  split
  · exact Dev.cores_evWrite d e
  · rfl

theorem Dev.cores_eventAt (d : Dev) (ts : Nat) (code : Byte) (unit index addr detail : Nat) :
    (d.eventAt ts code unit index addr detail).cores = d.cores := by
  unfold Dev.eventAt
  dsimp only
  split
  · split <;> rfl
  · exact Dev.cores_evNew _ _

theorem Dev.cores_log (d : Dev) (code : Byte) (unit index addr detail : Nat) :
    (d.log code unit index addr detail).cores = d.cores := by
  have event := Dev.cores_eventAt d d.tb code unit index addr detail
  rw [Dev.log, Dev.logTs, Dev.trigger]
  split <;> exact event

/-! ## Poison ends the task (R399) -/

theorem Dev.mode_walkerPoison (d : Dev) (p : Fin 7) (a : Nat) : ((d.walkerPoison p a).core p).mode = .aborting := by
  have logged := Dev.cores_log ((d.endTask p stPoisoned).dropUnstarted p) stPoisoned 0 p.val a (d.core p).entry
  rw [Dev.walkerPoison, Dev.core, logged]
  change (((d.endTask p stPoisoned).dropUnstarted p).core p).mode = _
  simp [Dev.dropUnstarted, Dev.endTask]

/-- A transfer that would complete reads a poisoned byte, of a read's source or of a nibble a write keeps: the task ends. -/
theorem Dev.mode_walkerComplete_poisoned {d : Dev} {p : Fin 7} {w a : Nat} {x : Xfer} {rest : List Xfer}
    (head : (d.core p).wk w = x :: rest) (started : x.started = true) (answered : x.sent = []) (here : x.remote = false)
    (full : x.empty = false)
    (poisoned : spansPoisoned d (readsHere x x.base x.mdev (w == 2) (farGroups d x x.base x.mdev)) = some a) :
    ((d.walkerComplete p w).core p).mode = .aborting := by
  simp only [Dev.walkerComplete, head, started, answered, here, full, poisoned, Bool.not_true, List.isEmpty_nil, Bool.false_and,
    Bool.or_false, Bool.false_eq_true, if_false]
  exact Dev.mode_walkerPoison _ p a

/-! ## Moving bytes leaves the mode alone -/

theorem Dev.core_foldl_store {α : Type} (at_ : α → Nat) (bs : α → List Byte) (l : List α) (d : Dev) (p : Fin 7) :
    (l.foldl (fun d e => d.store (at_ e) (bs e)) d).core p = d.core p := by
  induction l generalizing d with
  | nil => rfl
  | cons e rest ih => exact ih (d.store (at_ e) (bs e))

theorem mode_moveWrite (d : Dev) (p : Fin 7) (x : Xfer) (base : Nat) : ((moveWrite d p x base).core p).mode = (d.core p).mode := by
  unfold moveWrite
  dsimp only
  split
  · rw [Dev.core_foldl_store, Dev.core_store]
  · rw [Dev.core_modCore, Dev.core_foldl_store]
    rfl

theorem CoreSt.mode_setWk (c : CoreSt) (w : Nat) (l : List Xfer) : (c.setWk w l).mode = c.mode := by
  unfold CoreSt.setWk
  split
  · rfl
  · split <;> rfl

theorem CoreSt.mode_raiseF (c : CoreSt) (f : Option Nat) : (c.raiseF f).mode = c.mode := by
  cases f <;> rfl

/-! ## Settling the walkers' events -/

/-- R50, R188: a local write, under way, of element 0 of a row of two INT4 elements in Commons: its far byte keeps the nibble of
element 1. -/
def nibbleWrite : Xfer :=
  { words := [0#32, 8#32, 0x100#32, 0x202#32, 0x00010002#32, 0x00010001#32, 0x00010001#32, 0x00010001#32, 0x00010001#32,
      0#32, 0#32, 0#32, 0#32, 0#32, 0#32, 0#32]
    dsrc := false, descAt := 0, idx := 0#64, padv := 0#32, cls := 0, flag := none, started := true, base := 0x800000000 }

/-- The write at the head of its walker's list, in a task that runs, with that byte's Commons word poisoned. -/
def nibblePoisoned : State :=
  { State.reset with dev := { Dev.reset.setCore 0 { mode := .running, wk2 := [nibbleWrite] } with poison := [0x800000000] } }

/-- Refutes O20: its clause on a local write does not ask that the bytes of which the write keeps a nibble be free of poison. Where
one is poisoned, the walker that reads it ends the task (R399), and the transfer does not complete. -/
theorem not_walkerEvents : ¬ Obligations.WalkerEvents := by
  unfold Obligations.WalkerEvents
  intro claim
  obtain ⟨completes, -⟩ := claim nibblePoisoned 0 2 rfl rfl rfl
  obtain ⟨-, -, writes⟩ := completes nibbleWrite [] rfl rfl rfl (fun h => absurd h (by decide)) rfl
  have stored := writes rfl rfl rfl
  rw [exec_walkerTransferComplete 0 2 rfl rfl rfl rfl] at stored
  injection stored with same
  have poisoned : spansPoisoned nibblePoisoned.dev (readsHere nibbleWrite nibbleWrite.base nibbleWrite.mdev (2 == 2)
      (farGroups nibblePoisoned.dev nibbleWrite nibbleWrite.base nibbleWrite.mdev)) = some 0x800000000 := by decide
  have ends : ((nibblePoisoned.dev.walkerComplete 0 2).core 0).mode = .aborting :=
    Dev.mode_walkerComplete_poisoned rfl rfl rfl rfl rfl poisoned
  have runs := congrArg (fun t : State => (t.dev.core 0).mode) same
  simp only [State.put, Dev.core_modCore, CoreSt.mode_raiseF, CoreSt.mode_setWk, Dev.core_incSat, mode_moveWrite] at runs
  exact absurd (ends.symm.trans runs) (by decide)

end Sys2Proof.Machine
end
